-- ==== Sys2Proof/Word.lean ====
section
/-! DEFINITION. The words of the part: samples, channels, storage words and the masters that send accesses. -/

namespace Sys2Proof

/-- The 20-bit native sample. -/
abbrev Sample := BitVec 20
/-- A 32-bit register, core word or binary32 value (R3). -/
abbrev Word32 := BitVec 32
/-- A 40-bit internal address. -/
abbrev Addr := BitVec 40
/-- The 256-bit storage word: 12 samples, 12 end marks, 4 poison-group bits (spec/00_scope.md). -/
abbrev Line := BitVec 256

/-- What a channel carries: a sample, its end mark E and its poison mark P (R16). -/
structure Chan where
  v : Sample := 0
  e : Bool := false
  p : Bool := false
deriving DecidableEq, Repr

/-- Who issues an access on the network (R274, R285). -/
inductive Master where
  | host
  | puppeteer
  | core (n : Fin 16)
  | dma (c : Fin 16)
  | engine (p : Fin 4)
  | derailleur (r : Fin 64)
  | loader
  | tunnel (r : Fin 64)
  | sched
  | cxp (i : Fin 16)
  | eth (p : Fin 4)
deriving DecidableEq, Repr

end Sys2Proof
end

