-- ==== Sys2Proof/Syntax.lean ====
section
/-! DEFINITION. The commands of the part: one constructor per row of spec/opcode_table.json, and the operands they carry. -/

namespace Sys2Proof

/-- What an access asks of MEM port 1 (R116, R281). -/
inductive P1Op where
  | read
  | write (slots : BitVec 12) (data : Line)
  | bytes (mask : BitVec 32) (data : Line)
deriving DecidableEq, Repr

/-- A stream packet of a CoaXPress receiver (R373, R374): an image header with its sizes, pixels of the
current line and the lines after it, `bad` where CRC or sequence shows that they were lost, or a packet of
another stream. -/
inductive CxpPacket where
  | header (xsize ysize : BitVec 24)
  | pixels (px : List (BitVec 16)) (bad : Bool)
  | otherStream
deriving DecidableEq, Repr

/-- An unmasking of MSI-X (R399): one vector, or MSI-X enable and function mask in configuration space. -/
inductive MsixOp where
  | vector (v : Fin 2048)
  | control (enable fmask : Bool)
deriving DecidableEq, Repr

/-- What a TLP of the host addresses (R393, R394): BAR 0, 2 or 4, numbered 0, 1, 2, or configuration space. -/
inductive HostSpace where
  | bar (n : Fin 3)
  | config
deriving DecidableEq, Repr

/-- A request as a master puts it on the network (R276, R277): opcode, address, RLEN, RSIZE, masks, data
flits, and whether a reserved field is nonzero. -/
structure NocReq where
  op : BitVec 4
  addr : Addr
  rlen : BitVec 4 := 0
  rsize : BitVec 3 := 0
  slots : BitVec 96 := 0
  bytes : BitVec 32 := 0
  reserved : Bool := false
  data : List Line := []
deriving DecidableEq, Repr

/-- What happens to a packet at a router (R279, R286, R289): a master injects a request, a response for a tag of
master `m` enters at router `t` other than as the answer to a request, packet `i` of those on their way leaves the
router at which it stands, or its sideband is found uncorrectable there. -/
inductive HopOp where
  | inject (m : Master) (r : NocReq)
  | response (t : Fin 76) (m : Master) (r : NocReq) (status tag : BitVec 8)
  | move (i : Nat)
  | sideband (i : Nat)
deriving DecidableEq, Repr

/-- What a core load or fetch reads (R248, R251): a base-specification load, LR.W, or an instruction fetch. -/
inductive LoadKind where
  | lb | lh | lw | lbu | lhu | lr
  | fetch (half : Bool)
deriving DecidableEq, Repr

/-- What an atomic operation of the A extension does with the word and its operand (R248). -/
inductive AmoOp where
  | swap | add | xor | and | or | min | max | minu | maxu
deriving DecidableEq, Repr

/-- What a core store writes (R248, R250): a base-specification store, SC.W, or an atomic operation. -/
inductive StoreKind where
  | sb | sh | sw
  | sc (rd : Fin 32)
  | amo (op : AmoOp) (rd : Fin 32)
deriving DecidableEq, Repr

/-- An instruction that reads or writes an f register or fcsr (R256): a load or store of one, or any other
with the results that the base specification gives it. -/
inductive FpOp where
  | flw (rd rs1 : Fin 32) (imm : BitVec 12)
  | fsw (rs2 rs1 : Fin 32) (imm : BitVec 12)
  | other (f x : Option (Fin 32 × Word32)) (fcsr : Option Word32)
deriving DecidableEq, Repr

/-- What a CSR instruction does with its CSR (R248): write, set bits, clear bits. -/
inductive CsrKind where
  | rw | rs | rc
deriving DecidableEq, Repr

/-- A system instruction of the base specification (R248): a CSR access with its source register, or the source
number as an immediate; ECALL, EBREAK, FENCE, WFI. -/
inductive SysOp where
  | csr (kind : CsrKind) (rd src : Fin 32) (imm : Bool)
  | ecall | ebreak | fence | wfi
deriving DecidableEq, Repr

/-- An Xtz instruction with its operands (R265). -/
inductive Xtz where
  | ldm (window : Bool) (rs1 rs2 : Nat)
  | stm (window : Bool) (rs1 rs2 : Nat)
  | bankrd (rd k : Nat)
  | bankwr (k rs1 : Nat)
  | take (rd : Nat)
  | ready (rd rs1 : Nat)
  | delay (rd rs1 rs2 : Nat)
  | cancel (rd rs1 : Nat)
deriving DecidableEq, Repr

/-- A checker instance (R313): the MEM cells of a region, a DRAM channel, or any other. -/
inductive Checker where
  | cell (r : Fin 64)
  | channel (c : Fin 4)
  | other (n : Nat)
deriving DecidableEq, Repr

/-- What the outside and the silicon bring to the attempt on one slot (R416): the step at which the flash stops
answering, the channels that fail training, those whose checker fails a pattern of R313, and whether a
staged word is found uncorrectable. -/
structure BootTry where
  flash : Option (Fin 12) := none
  untrained : List (Fin 4) := []
  checks : List (Fin 4 × Fin 10) := []
  stageBad : Bool := false
deriving DecidableEq, Repr

/-- What a boot finds (R313, R416): the checker instances that fail with the pattern, and the attempts on
slots A and B. -/
structure BootOp where
  checks : List (Checker × Fin 10) := []
  a : BootTry := {}
  b : BootTry := {}
deriving DecidableEq, Repr

/-- What OTPWR programs (R427). -/
inductive OtpWrite where
  | hash (k : Fin 4) (v : BitVec 512)
  | keyv (v : BitVec 4)
  | keyrev (v : BitVec 4)
  | lock
deriving DecidableEq, Repr

/-- A command: one row of spec/opcode_table.json. -/
inductive Instr where
  /-- REGISTER_WRITE (R5). A write to a register that has no row of its own acts on each field as its access code says. -/
  | registerWrite (m : Master) (addr : Addr) (v : Word32)
  /-- COUNTER_LOW_READ (R4). A read of the low word of a 64-bit counter latches the high word for the reading master. -/
  | counterLowRead (m : Master) (addr : Addr)
  /-- COUNTER_HIGH_READ (R4). A read of the high word of a 64-bit counter returns the latched value, which releases the latch, or the live word if no latch is held. -/
  | counterHighRead (m : Master) (addr : Addr)
  /-- PIN_EDGE (R43). An edge at a machine I/O pin is synchronised and captured, and is readable at its pin-slot source 4 or 5 region cycles later. -/
  | pinEdge (pin : Fin 512) (drive : Option Bool)
  /-- PAD_OUTPUT (R43). A sample routed to a pin-slot output reaches the pad at the end of the seventh region cycle after the routing cycle. -/
  | padOutput (r : Fin 64) (slot : Fin 64)
  /-- BORDER_SAMPLE_ARRIVAL (R27). A pushed sample becomes readable in the receiving region from its third cycle after the push. -/
  | borderSampleArrival (r : Fin 64) (i : Fin 72)
  /-- CREDIT_RETURN (R27). A credit freed by a pop becomes usable by the sender from its third cycle after the pop. -/
  | creditReturn (r : Fin 64) (o : Fin 72)
  /-- RESULT_LANDS (R41). An issued operation's result lands in its destinations L cycles after issue. -/
  | resultLands (r : Fin 64)
  /-- MEM_WRITE_PHASE (R117). A write phase stores the covered slots with a fresh code and merges the poison groups. -/
  | memWritePhase (r : Fin 64)
  /-- PORT1_ACCESS (R116). A NoC, queue or march access starts on MEM port 1 under the cell's ownership state. -/
  | port1Access (m : Master) (r : Fin 64) (c : Fin 32) (w : Fin 1024) (op : P1Op)
  /-- OWNER_WRITE (R121). A write to OWNER is checked and, if accepted, changes the cell's owner state. -/
  | ownerWrite (r : Fin 64) (c : Fin 32) (v : Word32)
  /-- MARCH_HANDBACK (R122). The march engine restores the word, hands the bank back, and the owner access proceeds. -/
  | marchHandback (p : Fin 4)
  /-- HALT (R92). The HALT instruction halts the region with cause HALT_INSTR. -/
  | halt (r : Fin 64)
  /-- RUN (R78). RUN issues its context in N consecutive unstalled region cycles.
  `r` is the region, and how many of them pass with this command at most; the next RUN of the region goes on. -/
  | runContext (r : Fin 64 × Fin 65537)
  /-- REPEAT (R79). REPEAT pushes a loop-stack entry of count c, or skips the body when c is 0. -/
  | repeatBlock (r : Fin 64)
  /-- BRANCH (R82). BRANCH tests its condition, runs its delay slot, and goes to TARGET if taken.
  `r` is the region, and how many cycles of the delay slot pass with this command at most; a RUN of the region goes
  on with it. -/
  | branch (r : Fin 64 × Fin 65537)
  /-- RETE (R100). RETE returns to EVT_RET after its delay slot and clears INH and FRZ; `r` as for BRANCH. -/
  | rete (r : Fin 64 × Fin 65537)
  /-- WAIT (R87). WAIT issues nothing and waits on a border condition, with an optional timeout. -/
  | waitBorder (r : Fin 64)
  /-- WAIT_CONDITION_MET (R87). The border condition of a WAIT holds, so the WAIT ends and WTO clears. -/
  | waitConditionMet (r : Fin 64)
  /-- WAIT_TIMEOUT (R87). TMO cycles pass without the condition holding, so the WAIT ends and WTO is set. -/
  | waitTimeout (r : Fin 64)
  /-- TAKE (R88). A region TAKE presents the region to the scheduler as a taker and waits for a task. -/
  | takeTask (r : Fin 64)
  /-- TASK_DELIVERED (R227). A dispatched task reaches its taker, which completes the TAKE with ID, ARG and CXL. -/
  | taskDelivered (k : Fin 80)
  /-- SHIFT (R89). SHIFT performs an armed shift at its boundary and continues at ENTRY of the new half. -/
  | shift (r : Fin 64)
  /-- SIGNAL (R90). SIGNAL raises the region event sources that MASK selects. -/
  | signal (r : Fin 64)
  /-- LSTK_SAVE (R91). LSTK SAVE copies the loop stack into the loop-save registers and empties it. -/
  | lstkSave (r : Fin 64)
  /-- LSTK_RESTORE (R91). LSTK RESTORE replaces the loop stack from the loop-save registers. -/
  | lstkRestore (r : Fin 64)
  /-- REGION_ENABLE (R94). Writing REG_CTRL.EN to 1 checks the region and starts the sequencer at START_PC. -/
  | regionEnable (r : Fin 64) (v : Word32)
  /-- REGION_DISABLE (R94). Clearing EN stops the sequencer at the end of the cycle, and STATE reads OFF. -/
  | regionDisable (r : Fin 64) (v : Word32)
  /-- STOP (R93). STOP halts the region at the end of the current region cycle. -/
  | stop (r : Fin 64)
  /-- START (R93). START resumes a halted, enabled region at START_PC with a clean sequencer state. -/
  | start (r : Fin 64)
  /-- PRODUCER_PUSH (R142). A producer's push completes when the queue is enabled, has tail space, and is below the packet limit. -/
  | producerPush (q : Fin 512)
  /-- CONSUMER_POP (R136). A pop by the consumer frees a head place and updates the counts. -/
  | consumerPop (q : Fin 512)
  /-- SHIP (R137). The engine ships samples from the tail to the middle ring. -/
  | ship (q : Fin 512)
  /-- MIDDLE_READ (R138). A middle read completes and fills a staging word. -/
  | middleRead (q : Fin 512)
  /-- HEAD_REFILL (R138). The head takes staged samples into its free places. -/
  | headRefill (q : Fin 512)
  /-- SIMPLE_MODE_MOVE (R141). In simple mode the engine moves one sample tail to buffer and one buffer to head. -/
  | simpleModeMove (q : Fin 512)
  /-- QUEUE_TIMEOUT (R146). The queue timer fires, sets TMOF and requests a flush of the stranded tail. -/
  | queueTimeout (q : Fin 512)
  /-- FLUSH (R147). Q_CMD.FLUSH ships the whole tail, as far as it fits. -/
  | flush (q : Fin 512)
  /-- SETMARK (R149). Q_CMD.SETMARK places the rewind mark at the next packet boundary. -/
  | setmark (q : Fin 512)
  /-- REWIND (R150). Q_CMD.REWIND returns the consumer's read position to the mark. -/
  | rewind (q : Fin 512)
  /-- RELEASE (R150). Q_CMD.RELEASE drops the mark and frees the places it held. -/
  | release (q : Fin 512)
  /-- MARK_TIMEOUT (R151). The mark timer expires, drops the mark and sets MLOST. -/
  | markTimeout (q : Fin 512)
  /-- MIDDLE_ERROR (R152). An error response to a middle access stops all sample movement of the queue. -/
  | middleError (q : Fin 512)
  /-- Q_DATA_READ (R159). A read of Q_DATA pops one sample through the REG endpoint. -/
  | qDataRead (m : Master) (q : Fin 512)
  /-- Q_DATA_WRITE (R159). A write of Q_DATA pushes one sample through the REG endpoint, or is refused. -/
  | qDataWrite (m : Master) (q : Fin 512) (v : Word32)
  /-- QUEUE_ENABLE (R155). Writing Q_CTRL.EN to 1 checks the queue and starts it empty. -/
  | queueEnable (q : Fin 512) (v : Word32)
  /-- QUEUE_DISABLE (R154). Clearing Q_CTRL.EN stops transfers and discards the contents and the mark. -/
  | queueDisable (q : Fin 512) (v : Word32)
  /-- PRELOAD (R171). PRELOAD starts copying recipe REC into the inactive half. -/
  | preload (r : Fin 64) (rec : Fin 64)
  /-- PRELOAD_DONE (R171). The preload's reads end, and the digest and checks decide LOADED or EMPTY. -/
  | preloadDone (r : Fin 64)
  /-- ARM (R174). DRL_CTRL.ARM arms the derailleur if LOADED with the expected recipe. -/
  | arm (r : Fin 64) (rec : Fin 64)
  /-- DISARM (R170). DISARM returns an ARMED derailleur to LOADED. -/
  | disarm (r : Fin 64)
  /-- SWAP (R179). SWAP exchanges the halves at once on a region that is OFF or HALTED. -/
  | swap (r : Fin 64) (rec : Fin 64)
  /-- COMMIT (R188). COMMIT releases the marks set at the last shift. -/
  | commit (r : Fin 64)
  /-- MIGRATE (R189). MIGRATE starts copying a region onto its target. -/
  | migrate (r : Fin 64) (t : Fin 64)
  /-- MIGRATION_DONE (R191). The copy completes, and the target substitutes for the source. -/
  | migrationDone (r : Fin 64)
  /-- MIGRATION_FAILED (R198). A started migration fails, which leaves both regions OFF and both derailleurs EMPTY. -/
  | migrationFailed (r : Fin 64)
  /-- POST_SHIFT_CHECK (R178). After a shift, the check of the new inactive half ends in LOADED or EMPTY. -/
  | postShiftCheck (r : Fin 64)
  /-- PARK_PUSH (R181). An output port pushes its park sample once the queue has space. -/
  | parkPush (r : Fin 64) (i : Fin 8)
  /-- CADENCE_FIRE (R183). A cadence entry fires when machine time reaches TIME and applies its action. -/
  | cadenceFire (n : Fin 128)
  /-- FNOW_STEP (R204). A freewheel clock moves one code toward its effective target. -/
  | fnowStep (r : Fin 64)
  /-- DROOP_TRIP (R205). A droop detector trip stretches a freewheel region's cycles or is counted. -/
  | droopTrip (r : Fin 64)
  /-- MT_SYNC_OFFSET (R208). An offset from the discipline source steers machine time and moves its state. -/
  | mtSyncOffset (off : Int)
  /-- PPS_EDGE (R209). An MT_PPS edge is captured and checked. -/
  | ppsEdge
  /-- MT_INPUT_LOSS (R210). The discipline input is lost, and the state becomes HOLDOVER. -/
  | mtInputLoss (k : Fin 3)
  /-- HOLDMAX_EXCEEDED (R210). Holdover outlasts HOLDMAX, which raises source 1987. -/
  | holdmaxExceeded
  /-- MT_ENABLE (R208). Writing MT_CTRL.EN to 1 starts acquisition, or is refused. -/
  | mtEnable (v : Word32)
  /-- MT_DISABLE (R211). Writing MT_CTRL.EN to 0 is refused while a timed region runs. -/
  | mtDisable (v : Word32)
  /-- SENSOR_REFRESH (R212). Temperature sensors refresh and drive THERM_N, TWARN and THOT. -/
  | sensorRefresh (vals : List (BitVec 12))
  /-- MARGIN_ALARM (R213). A timed region's MARGIN falls below MGUARD, which raises source 1991. -/
  | marginAlarm (r m : Fin 64)
  /-- VTARGET_WRITE (R213). A write of VTARGET is checked against the limits and the margin guard, and sent over AVSBus. -/
  | vtargetWrite (v : Word32)
  /-- GATE (R214). GATE starts draining a region toward power-off, or is refused. `r` is who asks, and the region. -/
  | gate (r : Master × Fin 64)
  /-- GATE_DONE (R214). The drain completes, and the region powers off with PSTATE OFF. -/
  | gateDone (r : Fin 64)
  /-- WAKE (R216). WAKE restores the region's power, clears its MEM cells and resets credits. `r` as for GATE. -/
  | wake (r : Master × Fin 64)
  /-- WAKE_DONE (R216). The wake completes, and PSTATE becomes ON. -/
  | wakeDone (r : Fin 64)
  /-- GOV_RAISE (R220). A write of GOV_RAISE raises source 1996 + N. -/
  | govRaise (v : Word32)
  /-- DEFINE (R230). DEFINE sets a task's priority, class, pin and argument and makes it IDLE. -/
  | define (id : Fin 65536) (prio : Fin 64) (cls : Fin 16) (pin : Bool) (arg : Word32)
  /-- UNDEFINE (R230). UNDEFINE returns a task to FREE. -/
  | undefine (id : Fin 65536)
  /-- READY (R230). READY places a task on its ready list, merges it, or sets RERUN. -/
  | ready (id : Fin 65536)
  /-- DELAY (R236). DELAY gives a task a relative wake time. -/
  | delay (id : Fin 65536) (ns : Word32)
  /-- DELAYABS (R230). DELAYABS gives a task an absolute wake time. -/
  | delayabs (id : Fin 65536) (wake : BitVec 64)
  /-- CANCEL (R230). CANCEL removes a task's entries or marks it cancel-pending. -/
  | cancel (id : Fin 65536)
  /-- SETARG (R230). SETARG sets a task's argument. -/
  | setarg (id : Fin 65536) (arg : Word32)
  /-- TAKE_REQUEST (R226). A taker's request arrives, completes the task it held, and makes the taker wait. -/
  | takeRequest (k : Fin 80)
  /-- TAKE_WITHDRAWAL (R228). A taker's withdrawal arrives and removes its request. -/
  | takeWithdrawal (k : Fin 80)
  /-- DISPATCH (R233). The scheduler gives the highest-priority takeable entry to the earliest eligible waiting taker. -/
  | dispatch
  /-- DELAY_EXPIRY (R235). A delay entry expires at its tick boundary and makes the task ready. -/
  | delayExpiry
  /-- SPILL_READ (R239). A DRAM read for a spilled record or entry arrives, and the waiting command or dispatch completes. -/
  | spillRead (lvl : Option (Fin 64))
  /-- SPILL_ERROR (R241). An error response to a spill access stops spilling. -/
  | spillError
  /-- SCH_ENABLE (R243). Writing SCH_CTRL.EN to 1 checks the scheduler and enables it. -/
  | schEnable (v : Word32)
  /-- SCH_TKOFF_WRITE (R229). Marking a core offline answers its waiting TAKE with no task and completes its held task. -/
  | schTkoffWrite (v : Word32)
  /-- LDM (R262). LDM loads the masked registers from consecutive words, resumable by LSMPROG. -/
  | ldm (n : Fin 17) (rs1 rs2 : Fin 32) (stop : Option (Fin 32))
  /-- LDM_W (R261). LDM.W loads the registers of the BANKWIN bank. -/
  | ldmW (n : Fin 17) (rs1 rs2 : Fin 32) (stop : Option (Fin 32))
  /-- STM (R262). STM stores the masked registers to consecutive words. -/
  | stm (n : Fin 17) (rs1 rs2 : Fin 32) (stop : Option (Fin 32))
  /-- STM_W (R261). STM.W stores the registers of the BANKWIN bank. -/
  | stmW (n : Fin 17) (rs1 rs2 : Fin 32) (stop : Option (Fin 32))
  /-- BANKRD (R261). BANKRD reads a register of the window bank. -/
  | bankrd (n : Fin 17) (rd k : Fin 32)
  /-- BANKWR (R261). BANKWR writes a register of the window bank. -/
  | bankwr (n : Fin 17) (k rs1 : Fin 32)
  /-- CORE_TAKE (R263). A core TAKE requests a task from the scheduler and waits. -/
  | coreTake (n : Fin 17) (rd : Fin 32)
  /-- CORE_READY (R263). The core READY instruction sends a READY command. -/
  | coreReady (n : Fin 17) (rd rs1 : Fin 32)
  /-- CORE_DELAY (R263). The core DELAY instruction sends a DELAY command. -/
  | coreDelay (n : Fin 17) (rd rs1 rs2 : Fin 32)
  /-- CORE_CANCEL (R263). The core CANCEL instruction sends a CANCEL command. -/
  | coreCancel (n : Fin 17) (rd rs1 : Fin 32)
  /-- LOAD (R251). A core load reads memory and traps precisely on poison or an error response. -/
  | load (n : Fin 17) (kind : LoadKind) (rd rs1 : Fin 32) (imm : BitVec 12) (rvc : Bool)
  /-- FP_INSTRUCTION (R256). The first FP instruction with FPL set saves the FP state lazily before it executes. -/
  | fpInstruction (n : Fin 17) (op : FpOp) (rvc : Bool)
  /-- INTERRUPT_ENTRY (R253). A pending interrupt above the running level is taken into a new bank. -/
  | interruptEntry (n : Fin 17)
  /-- MRET (R255). MRET returns to the interrupted context and restores FP state if saved. -/
  | mret (n : Fin 17)
  /-- STORE_ERROR (R251). A posted store receives an error response, which is recorded and raises an event. -/
  | storeError (n : Fin 17)
  /-- XRAISE (R266). A write of XRAISE raises the core's software source.
  It stands for every system instruction of a core; `csr` is the register that a CSR instruction names. -/
  | xraise (n : Fin 17) (csr : BitVec 12) (op : SysOp)
  /-- CC_ENABLE (R268). Writing CC_CTRL.EN to 1 checks and starts a control core. -/
  | ccEnable (n : Fin 16) (v : Word32)
  /-- CC_DISABLE (R268). Clearing CC_CTRL.EN stops the core at the next boundary. -/
  | ccDisable (n : Fin 16) (v : Word32)
  /-- CC_RESET (R268). RESET zeroes the core's banks and restarts it. -/
  | ccReset (n : Fin 16)
  /-- EVENT_SOURCE_ARRIVAL (R270). A raised source reaches the event controller, which applies its enabled routes. -/
  | eventSourceArrival (src : Fin 2048)
  /-- EV_RAISE (R272). The puppeteer's write of EV_RAISE raises source N. -/
  | evRaise (m : Master) (src : Fin 2048)
  /-- ROUTE_WRITE (R272). A write of a route register is checked and, if valid, applied. -/
  | routeWrite (src : Fin 2048) (high : Bool) (v : Word32)
  /-- EV_CTRL_ENABLE (R272). Writing EV_CTRL.EN to 1 checks every route and enables routing. -/
  | evCtrlEnable (v : Word32)
  /-- SHA_GO (R433). The SHA3 engine absorbs a byte range and may finish the hash. -/
  | shaGo (v : Word32)
  /-- SHA_DONE (R433). The SHA3 operation ends with DONE or ERR. -/
  | shaDone
  /-- VERIFY (R433). The ML-DSA engine starts verifying a signature. -/
  | verify
  /-- SIGN (R433). The ML-DSA engine starts signing with the identity key and context KWFW. -/
  | sign
  /-- PUBKEY (R433). The ML-DSA engine starts writing out the identity public key. -/
  | pubkey
  /-- MLD_DONE (R433). An ML-DSA operation ends. -/
  | mldDone
  /-- PACKET_HOP (R289). A packet reaches a router and is routed by the table bank of its epoch. -/
  | packetHop (op : HopOp)
  /-- RD (R278). An RD request at its target reads storage words. -/
  | rd (i : Nat) (hdr : Bool)
  /-- WR (R281). A WR request writes the slots that SLOTMASK selects. -/
  | wr (i : Nat) (hdr : Bool) (bad : BitVec 8)
  /-- WRB (R281). A WRB request writes the bytes that BYTEMASK selects. -/
  | wrb (i : Nat) (hdr : Bool) (bad : Bool)
  /-- RGR (R278). An RGR request reads a register. -/
  | rgr (i : Nat) (hdr : Bool)
  /-- RGW (R318). An RGW request writes a register, unless its data is poisoned. -/
  | rgw (i : Nat) (hdr : Bool) (bad : Bool)
  /-- RDR (R278). A read response reaches its master. -/
  | rdr (i : Nat) (bad : BitVec 8)
  /-- WRA (R278). A write acknowledgement reaches its master. -/
  | wra (i : Nat)
  /-- RGRR (R278). A register read response reaches its master. -/
  | rgrr (i : Nat) (bad : BitVec 8)
  /-- RGWA (R278). A register write acknowledgement reaches its master. -/
  | rgwa (i : Nat)
  /-- REQUEST_TIMEOUT (R285). A request unanswered for RTO µs completes with TIMEOUT. -/
  | requestTimeout (i : Nat)
  /-- FLIP (R291). FLIP starts the check of the other routing bank, or is refused. -/
  | flip (v : Word32)
  /-- FLIP_CHECK_DONE (R292). The check ends, and on a pass the epoch inverts. -/
  | flipCheckDone
  /-- DRAINED (R292). The old-epoch packets drain, and DRAINED becomes 1. -/
  | drained
  /-- ROUTE_TABLE_WRITE (R290). A write to a routing table bank is performed only if the bank is not in use. -/
  | routeTableWrite (m : Master) (bank : Bool) (t : Fin 76) (k : Fin 10) (v : Word32)
  /-- TRCLR (R302). TRCLR empties the trace buffer. -/
  | trclr (v : Word32)
  /-- PROBE_ENABLE (R303). Writing a probe's EN to 1 checks and starts it. -/
  | probeEnable (n : Fin 8) (v : Word32)
  /-- SCRUB_VISIT (R319). A scrubber visits one storage word when it is due and rewrites it if needed.
  The scrubber is that of plane `k`, or of DRAM channel `k`. -/
  | scrubVisit (dram : Bool) (k : Fin 4)
  /-- SCRUB_ADAPT (R324). Once per second the governor adjusts INTERVAL from the CE rate. -/
  | scrubAdapt
  /-- SCRUB_ENABLE (R326). Writing SCR_CTRL.EN to 1 checks the intervals and starts the scrubber. -/
  | scrubEnable (u : Fin 8) (v : Word32)
  /-- DRAM_ISSUE (R338). The DDR5 controller issues the next command by its order of precedence. -/
  | dramIssue (c : Fin 4)
  /-- REFRESH_DUE (R341). A refresh falls due and is paid, postponed or forced. -/
  | refreshDue (c : Fin 4) (rank : Fin 2)
  /-- MR4_POLL (R342). The controller reads MR4 and starts or ends doubled refresh. -/
  | mr4Poll (c : Fin 4) (rank : Fin 2) (rate : Fin 3)
  /-- PAGE_IDLE_PRECHARGE (R339). A bank idle for IDLE ns is precharged. -/
  | pageIdlePrecharge (c : Fin 4) (bank : Fin 128)
  /-- SELF_REFRESH_ENTRY (R344). After SRIDLE µs idle the channel enters self-refresh. -/
  | selfRefreshEntry (c : Fin 4) (cancelled : Bool)
  /-- UNFREEZE (R348). UNFREEZE returns a frozen channel to RUN and issues the held writes. -/
  | unfreeze (c : Fin 4)
  /-- TW_WRRD (R349). Training wheels write a pattern, read it back and compare. -/
  | twWrrd (m : Master) (c : Fin 4) (v : Word32) (bad : List (Nat × Nat × BitVec 40))
  /-- TW_RD (R349). Training wheels read and compare against a pattern. -/
  | twRd (m : Master) (c : Fin 4) (v : Word32) (bad : List (Nat × Nat × BitVec 40))
  /-- TW_CMD (R349). Training wheels issue one raw command. -/
  | twCmd (m : Master) (c : Fin 4) (v : Word32) (mrr : List (BitVec 8))
  /-- TW_DONE (R349). A training-wheels operation ends and sets DONE. -/
  | twDone (c : Fin 4)
  /-- CHRST (R356). CHRST resets a channel to OFF and clears TRAINED and FAIL. -/
  | chrst (m : Master) (c : Fin 4)
  /-- DDR_TRAINED (R350). The boot loader sets TRAINED on a channel. -/
  | ddrTrained (m : Master) (c : Fin 4)
  /-- DDR_FAIL (R351). Setting FAIL makes the channel FAILED. -/
  | ddrFail (m : Master) (c : Fin 4)
  /-- DDR_ENABLE (R354). Writing DDR_CTRL.EN to 1 checks the channel and enables it, starting the zero-fill if due. -/
  | ddrEnable (c : Fin 4) (v : Word32)
  /-- FILL_DONE (R352). The zero-fill completes, and the state becomes RUN. -/
  | fillDone (c : Fin 4)
  /-- TSU_COMPARE (R371). Machine time reaches TSU_TIME, and the channel drives its pad. -/
  | tsuCompare (k : Fin 8)
  /-- PWM_LOAD_POINT (R366). At a carrier centre or boundary, the PWM slot loads its compare value.
  The region is named by its row and column. -/
  | pwmLoadPoint (row col : Fin 8) (slot : Fin 64)
  /-- SSI_WORD_READY (R369). The SSI frame ends, and the received word is presented. -/
  | ssiWordReady (r clk : Fin 64) (words : List (Fin 64 × Word32 × Bool))
  /-- SWIO_WRITE (R371). A write of SWIO_OUT or SWIO_OE drives the pins that SWIO owns. -/
  | swioWrite (k : Fin 32) (v : Word32)
  /-- MIO_ENABLE (R360). Writing MIO_CTRL.EN to 1 activates the pins, or is refused. -/
  | mioEnable (v : Word32)
  /-- MIO_DISABLE (R360). Writing MIO_CTRL.EN to 0 is refused while a perimeter region is enabled. -/
  | mioDisable (v : Word32)
  /-- CXP_STREAM_PACKET (R374). A CoaXPress stream packet is received and pushed to the queue and the history ring. -/
  | cxpStreamPacket (i : Fin 16) (p : CxpPacket)
  /-- MBX_SEND (R389). SEND transmits a control packet on the uplink. -/
  | mbxSend (i : Fin 16) (v : Word32)
  /-- MBX_RECEIVE (R389). A control packet is received into MBX_RX. -/
  | mbxReceive (i : Fin 16) (words : List Word32) (len : Fin 256)
  /-- CXP_ENABLE (R385). Writing CXP_CTRL.EN to 1 checks and enables a receiver. -/
  | cxpEnable (i : Fin 16) (v : Word32)
  /-- ETH_FRAME_RECEIVE (R381). A received frame is filtered and pushed to a receive stream. -/
  | ethFrameReceive (p : Fin 4) (bytes : List (BitVec 8)) (good : Bool)
  /-- TAP_REPLACEMENT (R383). A replacement for a tapped frame arrives at the tap. -/
  | tapReplacement (pair : Fin 2)
  /-- ETH_TRANSMIT (R381). A transmit packet is padded, given its FCS and sent under the gates. -/
  | ethTransmit (p k : Fin 4)
  /-- SYNC_TRANSMIT (R380). A master port sends Sync at its interval. -/
  | syncTransmit (p : Fin 4)
  /-- SGMII_AN_WORD (R379). An in-band auto-negotiation word sets the SGMII speed and link state. -/
  | sgmiiAnWord (p : Fin 4) (w : BitVec 16)
  /-- CONFIG_CHANGE (R388). CHG starts a gate-list ConfigChange. -/
  | configChange (p : Fin 4)
  /-- GCL_ACTIVATE (R388). The admin gate list becomes operational at its base time. -/
  | gclActivate (p : Fin 4)
  /-- ETH_ENABLE (R385). Writing ETH_CTRL.EN to 1 checks and enables a port. -/
  | ethEnable (p : Fin 4) (v : Word32)
  /-- PERST (R392). PERST_N low resets the host link alone. -/
  | perst
  /-- PCIE_LINK_DOWN (R392). A link-down resets the host link alone. -/
  | pcieLinkDown
  /-- FLR (R392). A Function Level Reset resets the host link alone. -/
  | flr
  /-- HOST_WRITE (R396). A host write TLP to a BAR is converted into NoC writes. -/
  | hostWrite (space : HostSpace) (off : Addr) (data : List (Option (BitVec 8))) (ep : Bool)
  /-- HOST_READ (R395). A host read TLP is converted into NoC reads and completed. -/
  | hostRead (space : HostSpace) (off : Addr) (len : Fin 4097) (tag : Fin 1024)
  /-- MSIX_UNMASK (R399). Unmasking a pending vector sends its message. -/
  | msixUnmask (op : MsixOp)
  /-- DMA_TAIL_WRITE (R400). The host writes TAIL to add descriptors. -/
  | dmaTailWrite (c : Fin 16) (v : BitVec 16)
  /-- DESCRIPTOR_START (R400). A channel fetches and starts the next descriptor. -/
  | descriptorStart (c : Fin 16) (d : Option (BitVec 256))
  /-- DESCRIPTOR_END (R404). A descriptor ends, is written back and may raise its message. -/
  | descriptorEnd (c : Fin 16)
  /-- DMA_ABORT (R406). ABORT stops the channel in ERROR. -/
  | dmaAbort (c : Fin 16) (units : Fin 8388608)
  /-- DMA_RESUME (R403). RESUME skips the failed descriptor and restarts the channel. -/
  | dmaResume (c : Fin 16)
  /-- DMA_ENABLE (R413). Writing DMA_CTRL.EN to 1 checks and enables a channel. -/
  | dmaEnable (c : Fin 16) (v : Word32)
  /-- STG_GO (R408). GO hands a staging manifest to the puppeteer. -/
  | stgGo (v : Word32)
  /-- STAGING_DONE (R408). The staging verifies and writes the directory block, or is refused. -/
  | stagingDone
  /-- DOE_REQUEST (R409). An attestation request arrives through DOE. -/
  | doeRequest (vendor : BitVec 16) (type : BitVec 8) (words : List Word32)
  /-- ATTESTATION_REPORT (R432). The attestation report is assembled, signed and ready. -/
  | attestationReport
  /-- ERASE (R410). The recovery mailbox erases a flash range. -/
  | erase (slot : Bool) (off len : Word32)
  /-- PROGRAM (R410). The recovery mailbox programs flash from its buffer. -/
  | program (slot : Bool) (off len : Word32)
  /-- READ (R410). The recovery mailbox reads flash into its buffer. -/
  | readFlash (slot : Bool) (off len : Word32)
  /-- RESTART (R410). The recovery mailbox reruns the power-on boot. -/
  | restart (op : BootOp)
  /-- RMB_DONE (R410). A recovery mailbox command ends with its status. -/
  | rmbDone (flashError : Bool)
  /-- POR_N_RISE (R416). The rise of POR_N starts the boot. -/
  | porNRise (role : Bool) (op : BootOp)
  /-- ENABLE_SECTIONS (R429). Once every channel is filled, the ENABLE entries are applied and RUNNING rises. -/
  | enableSections (b : BootTry)
  /-- OTPWR (R427). The TAP instruction OTPWR programs owner fuses while LOCK is 0. -/
  | otpwr (w : OtpWrite)
  /-- POR_N_FALL (R483). POR_N falls, and the logbook finishes its word write and stops. -/
  | porNFall
  /-- TDM_ENABLE (R451). Writing TDM_CTRL.EN to 1 checks the tandem block and enters LINKING. -/
  | tdmEnable (v : Word32)
  /-- HELLO (R444). A HELLO from the peer is checked, and the pair forms or is refused. -/
  | hello (pairid : Word32) (hash : BitVec 64) (roles : BitVec 8) (captain solo : Bool)
  /-- HEARTBEAT_SEND (R442). A heartbeat is sent every 10 µs. -/
  | heartbeatSend
  /-- HEARTBEAT_RECEIVE (R442). A peer heartbeat clears the miss count and updates SKEW. -/
  | heartbeatReceive (st : Fin 8) (captain : Bool) (time : BitVec 64)
  /-- HEARTBEAT_MISS (R442). A heartbeat is missed, and the third miss acts on the peer loss. -/
  | heartbeatMiss
  /-- GONE (R443). A GONE frame from the peer counts three misses at once. -/
  | gone
  /-- RECORD_POP (R446). The block pops a local decision record, stores it and sends it to the peer. -/
  | recordPop
  /-- REMOTE_RECORD (R446). A peer record arrives and is compared with its counterpart. -/
  | remoteRecord (bits : BitVec 120) (poison : Bool)
  /-- MWIN_EXPIRY (R446). An entry without a counterpart within MWIN is counted MISSING. -/
  | mwinExpiry
  /-- YIELD (R449). YIELD hands acting captaincy to the stoker. -/
  | yieldCaptain (fromPeer : Bool)
  /-- YIELD_REPLY (R449). The stoker's reply arrives, and the old captain becomes stoker. -/
  | yieldReply
  /-- LANE_DROP (R441). A failing Aedade lane is dropped. -/
  | laneDrop
  /-- AEDADE_LINK_DOWN (R441). No frame for 4 µs, or no lane left, puts the link down. -/
  | aedadeLinkDown
  /-- MARCH_GO (R459). GO starts a march test, or is refused. -/
  | marchGo (p : Fin 4) (v : Word32)
  /-- MARCH_ABORT (R460). ABORT ends a march test. -/
  | marchAbort (p : Fin 4)
  /-- MARCH_RESUME (R460). After RESUME µs without owner accesses, a preempted test borrows the bank again. -/
  | marchResume (p : Fin 4)
  /-- MARCH_DONE (R458). A march test ends, on completion or at a miscompare. -/
  | marchDone (p : Fin 4) (miss : Option (Fin 6 × Fin 256 × Fin 277 × Bool))
  /-- BIST_GO (R461). GO starts a logic BIST, or is refused. -/
  | bistGo (v : Word32)
  /-- BIST_DONE (R461). A logic BIST ends with its signature. -/
  | bistDone (sig : Word32)
  /-- LB_APPEND (R466). The puppeteer appends a logbook entry. -/
  | lbAppend (m : Master) (v : Word32)
  /-- LOGBOOK_HEADER_UPDATE (R465). HEADIDX and HEADSEQ are written once per second. -/
  | logbookHeaderUpdate
  /-- FTL_REQ (R469). The puppeteer's REQ enters the fatal path with cause 5. -/
  | ftlReq (m : Master) (v : Word32)
  /-- FATAL_DUMP_COMPLETE (R470). The dump and summary are written, and FATAL_N falls. -/
  | fatalDumpComplete (readbackError : Bool)
  /-- AVS_VOLTAGE_READ (R484). An AVSBus Voltage read updates VNOW once per ms. -/
  | avsVoltageRead (mv : Fin 1024)
  /-- AVS_STEP_WRITE (R484). The next Voltage write of at most 50 mV is issued 10 µs after the last acknowledgement. -/
  | avsStepWrite
  /-- DRAM_ALERT (R346). The RCD or a component signals a command/address parity error or a write CRC error, and the channel freezes. -/
  | dramAlert (c : Fin 4) (crc : Bool) (a : Addr) (rank sub : Fin 2)
  /-- MT_REF_RETURN (R210). MT_REF shows edges again after its loss, and machine time leaves HOLDOVER for ACQUIRE. -/
  | mtRefReturn
  /-- SYSCLK_25M_STOP (R486). SYSCLK_25M stops while POR_N is high, and the PLLs hold their frequencies within 1 % for at least 200 ms. -/
  | sysclk25mStop
  /-- DROOP_TRIP_END (R205). A region's droop detector releases its trip, and the freewheel stretch and STRETCH end. -/
  | droopTripEnd (r : Fin 64)
  /-- AVS_TRANSACTION_END (R484). An AVSBus transaction ends with a valid acknowledgement, or fails after 2 µs without one or with a bad CRC, which raises source 1992. -/
  | avsTransactionEnd (ok : Bool)
  /-- STORE (R250). A core store writes local memory by read-modify-write with the poison-group rules, or posts a write to a window or register. -/
  | store (n : Fin 17) (kind : StoreKind) (rs1 rs2 : Fin 32) (imm : BitVec 12) (rvc : Bool)
  /-- SDDAT_CAPTURE (R367). At the grid cycle SKEW cycles after each rising edge of its SDCLK slot, an SDDAT slot samples its pad and presents the bit. -/
  | sddatCapture (r slot : Fin 64)
  /-- CXP_LINK_CHANGE (R390). A CoaXPress receiver gains or loses lock on its link, which updates CXP_STAT.LINK and sets CXP_EVT bit 3. -/
  | cxpLinkChange (i : Fin 16) (up : Bool)
  /-- ETH_LINK_CHANGE (R390). An Ethernet port's link comes up or goes down, which updates ETH_STAT.LINK and sets ETH_EVT bit 0. -/
  | ethLinkChange (p : Fin 4) (up : Bool)
  /-- PCIE_LINK_UP (R392). The PCIe link completes training and LINKUP rises, with PCI_STAT updated and source 1440 raised. -/
  | pcieLinkUp (speed width : Fin 8) (flit : Bool)
  /-- DMA_HOST_COMPLETION (R403). A host read completion for a DMA channel arrives with its data, EP bit or UR/CA status, or times out. -/
  | dmaHostCompletion (c : Fin 16) (r : Option (List (BitVec 8) × Bool))
  /-- AEDADE_LINK_UP (R444). The Aedade link comes up, and the devices exchange HELLO frames. -/
  | aedadeLinkUp (lanes : Fin 5)
deriving DecidableEq, Repr

end Sys2Proof
end

