-- ==== Sys2Proof/Decode.lean ====
section
/-! DEFINITION. Words of the opcode table: no row of spec/opcode_table.json gives bits, so that no word spells
a command. The encodings of the Xtz instructions, which the cores fetch (R265). -/

namespace Sys2Proof

/-- The command that a word of `nbits` bits spells by the bits of spec/opcode_table.json. -/
def decodeTableWord (nbits w : Nat) : Option Instr :=
  match nbits, w with
  | _, _ => none

/-- Whether a word has one of the two opcodes of Xtz (R265). -/
def xtzOpcode (w : Nat) : Bool := w % 128 == 0x0B || w % 128 == 0x2B

/-- The Xtz instruction that a word encodes; none where a field shown as 0 is not 0 or no row matches (R265). -/
def xtzDecode (w : Nat) : Option Xtz :=
  let rd := w / 2 ^ 7 % 32
  let rs1 := w / 2 ^ 15 % 32
  let rs2 := w / 2 ^ 20 % 32
  match w % 128, w / 2 ^ 12 % 8, w / 2 ^ 25 % 128 with
  | 0x0B, 0, 0 => if rd = 0 then some (.ldm false rs1 rs2) else none
  | 0x0B, 0, 1 => if rd = 0 then some (.ldm true rs1 rs2) else none
  | 0x0B, 1, 0 => if rd = 0 then some (.stm false rs1 rs2) else none
  | 0x0B, 1, 1 => if rd = 0 then some (.stm true rs1 rs2) else none
  | 0x0B, 2, 0 => if rs1 = 0 then some (.bankrd rd rs2) else none
  | 0x0B, 3, 0 => if rd = 0 then some (.bankwr rs2 rs1) else none
  | 0x2B, 0, 0 => if rs1 = 0 ∧ rs2 = 0 then some (.take rd) else none
  | 0x2B, 1, 0 => if rs2 = 0 then some (.ready rd rs1) else none
  | 0x2B, 2, 0 => some (.delay rd rs1 rs2)
  | 0x2B, 3, 0 => if rs2 = 0 then some (.cancel rd rs1) else none
  | _, _, _ => none

end Sys2Proof
end

