-- ==== Sys2Proof/Config.lean ====
section
/-! DEFINITION. What the spec leaves open: free values without a body, so that nothing rests on one. -/

namespace Sys2Proof.Config

/-- The level of pad `pin` while nothing drives it and nothing pulls it, at the `n`th reading (R505). -/
opaque padOpen (pin n : Nat) : Bool

/-- The level of pad `pin` while the outside and the part drive it to different levels (log entry 23). -/
opaque padFight (pin n : Nat) : Bool

/-- Which of `n` unpinned records the scheduler's store gives up, at the `k`th choice (R237 names no
rule). -/
opaque cacheVictim (k n : Nat) : Nat

/-- The signature that the ROM holds for a good target of each kind of logic BIST (R461). -/
opaque bistSignature (kind : Nat) : BitVec 32

/-- Whether an edge at a pin takes the later of the two capture cycles of R43, at the `n`th edge. -/
opaque edgeLate (n : Nat) : Bool

/-- Whether a step of machine time whose offset lies midway between two multiples of 4 ns takes the upper
one (R208 names no choice). -/
opaque stepUp (off : Int) : Bool

/-- The correction, in ppb, that the servo applies after its `n`th offset; the spec bounds it (R207). -/
opaque servo (n : Nat) : Int

/-- Whether `n` samples fill the 256 KB buffer of a CoaXPress receiver (R375 gives no layout). -/
opaque cxpFull (n : Nat) : Bool

/-- The time, in ns, that a trigger packet takes on the uplink (R377 gives none). -/
opaque trigNs : Nat

/-- Byte `k` that a frame tap reads behind the end of a frame, at the `n`th reading (R383 names none). -/
opaque tapPast (k n : Nat) : BitVec 8

/-- The 32 random bytes of the `n`th signature, as a number (R432: the hedged variant of FIPS 204). -/
opaque signRandom (n : Nat) : BitVec 256

/-- What mtval holds at the `n`th illegal-instruction or breakpoint exception: the base specification leaves the
choice between 0 and the instruction, or its address (R248). -/
opaque illegalTval (n : Nat) : BitVec 32

/-- What a CSR of the base specification that this spec does not name reads, at the `n`th reading (R248). -/
opaque baseCsr (csr n : Nat) : BitVec 32

/-- The port of a master at its router, by the number of the master (R276 numbers none). -/
opaque sourcePort (m : Nat) : BitVec 3

/-- The SEC-DED check bits over bits [63:29] of a sideband (R276 names the code only). -/
opaque sidebandCheck (bits : Nat) : BitVec 7

/-- How many flits the response buffer of a master's port holds beside the 9 of one whole response (R284 names no
size). -/
opaque responseMore (m : Nat) : Nat

/-- How many activations of a bank the components allow before refresh management (R331: their RAA threshold). -/
opaque raaLimit : Nat

/-- The delay that training leaves in place `k` of rank `rank` of subchannel `sub` of channel `c`, at the `n`th
training (R350: the centre of what passes). -/
opaque laneDelay (c rank sub k n : Nat) : BitVec 10

/-- What the training-wheels register at offset `o` of channel `c` holds behind the `n`th training; at 0x4010 + d, the
MRR result of device `d`, ten to a side (R350). -/
opaque trainedReg (c o n : Nat) : BitVec 32

/-- What XTZCFG of the puppeteer holds at RUNNING (R266: of the image, which has no place for it). -/
opaque puppeteerCfg (n : Nat) : BitVec 32

/-- The subsystem vendor ID and subsystem ID that an image gives (R393 takes them from the image, whose header and
sections name no place for them). -/
opaque subsystemIds (head : List (BitVec 8)) : BitVec 32

/-- What a byte of flash holds after a program over a byte that is not erased (R410 states erase and program
only). -/
opaque flashMix (old new : BitVec 8) : BitVec 8

end Sys2Proof.Config
end

