-- ==== Sys2Proof/Machine/Bits.lean ====
section
/-! DEFINITION. Bit fields of registers and storage words (R1, and the storage-word table of spec/00_scope.md). -/

namespace Sys2Proof.Machine

/-- Field of `len` bits whose lowest bit is `lo`, as a number. -/
def fld {w : Nat} (v : BitVec w) (lo len : Nat) : Nat := (v.toNat >>> lo) % 2 ^ len

/-- Bit `i`. -/
def bit {w : Nat} (v : BitVec w) (i : Nat) : Bool := v.getLsbD i

/-- A mask of `len` ones at `lo`. -/
def maskAt (w lo len : Nat) : BitVec w := BitVec.ofNat w ((2 ^ len - 1) <<< lo)

/-- `v` with its field of `len` bits at `lo` replaced by `x`. -/
def setFld {w : Nat} (v : BitVec w) (lo len x : Nat) : BitVec w :=
  (v &&& ~~~ maskAt w lo len) ||| BitVec.ofNat w ((x % 2 ^ len) <<< lo)

/-- `v` with bit `i` set to `b`. -/
def setBit {w : Nat} (v : BitVec w) (i : Nat) (b : Bool) : BitVec w :=
  setFld v i 1 (if b then 1 else 0)

/-- 1 or 0. -/
def b2n (b : Bool) : Nat := if b then 1 else 0

/-- Two's complement reading of the low `w` bits of `n`. -/
def sx (w n : Nat) : Int :=
  if n % 2 ^ w < 2 ^ (w - 1) then (n % 2 ^ w : Int) else (n % 2 ^ w : Int) - 2 ^ w

/-- The number of ones among the low `n` bits. -/
def ones {w : Nat} (v : BitVec w) : Nat → Nat
  | 0 => 0
  | n + 1 => ones v n + b2n (v.getLsbD n)

/-- The numbers below `n` whose bit is set, in ascending order. -/
def setBits {w : Nat} (v : BitVec w) (n : Nat) : List Nat :=
  (List.range n).filter (fun i => v.getLsbD i)

/-- A counter of 32 bits that saturates. -/
def satInc32 (v : Word32) : Word32 := if v = 0xFFFFFFFF#32 then v else v + 1

/-- Adds `n` to a 32-bit saturating counter. -/
def satAdd32 (v : Word32) (n : Nat) : Word32 :=
  if 0xFFFFFFFF < v.toNat + n then 0xFFFFFFFF#32 else BitVec.ofNat 32 (v.toNat + n)

/-- Slot `k` of a storage word as a channel: its sample, its end mark, its group's poison bit. -/
def lineChan (w : Line) (k : Nat) : Chan :=
  { v := BitVec.ofNat 20 (fld w (20 * k) 20), e := w.getLsbD (240 + k), p := w.getLsbD (252 + k / 3) }

/-- The storage word with the sample and end mark of slot `k` replaced; poison groups untouched. -/
def lineSetSlot (w : Line) (k : Nat) (c : Chan) : Line :=
  setBit (setFld w (20 * k) 20 c.v.toNat) (240 + k) c.e

/-- The storage word with all four poison-group bits set (R312). -/
def linePoison (w : Line) : Line := setFld w 252 4 15

/-- Byte `k` of a storage word (R164). -/
def lineByte (w : Line) (k : Nat) : BitVec 8 := BitVec.ofNat 8 (fld w (8 * k) 8)

/-- The storage word with byte `k` replaced. -/
def lineSetByte (w : Line) (k : Nat) (b : BitVec 8) : Line := setFld w (8 * k) 8 b.toNat

/-- The poison granules of byte `k` of a storage word: the groups whose bytes
0-7, 7-14, 15-22, 22-29 hold it (R250, R314). -/
def byteGroups (k : Nat) : List Nat :=
  (if k ≤ 7 then [0] else []) ++ (if 7 ≤ k ∧ k ≤ 14 then [1] else []) ++
  (if 15 ≤ k ∧ k ≤ 22 then [2] else []) ++ (if 22 ≤ k ∧ k ≤ 29 then [3] else [])

/-- Whether any byte from `k` on, `n` bytes long, lies in a poisoned group. -/
def bytesPoisoned (w : Line) (k n : Nat) : Bool :=
  (List.range n).any (fun i => (byteGroups (k + i)).any (fun g => w.getLsbD (252 + g)))

/-- `f` applied `n` times. -/
def iter {α : Type} (f : α → α) : Nat → α → α
  | 0, a => a
  | n + 1, a => iter f n (f a)

/-- The `n` bytes of a number, the least significant first. -/
def natBytes (n x : Nat) : List (BitVec 8) := (List.range n).map (fun i => BitVec.ofNat 8 (x / 256 ^ i))

end Sys2Proof.Machine
end

