-- ==== Sys2Proof/Machine/LineCode.lean ====
section
/-! DEFINITION. The line code (R305 to R308): encoding, syndromes and the outcome of a checker. -/

namespace Sys2Proof.Machine

/-- Multiplication by alpha in GF(2^9) with x^9 + x^4 + 1 (R305). -/
def gfDouble (a : Nat) : Nat :=
  if 2 ^ 8 ≤ a % 2 ^ 9 then ((a <<< 1) % 2 ^ 9) ^^^ 0b000010001 else (a <<< 1) % 2 ^ 9

/-- Product in GF(2^9): Horner over the bits of `b`, highest first. -/
def gfMulStep (a b : Nat) : Nat → Nat
  | 0 => 0
  | n + 1 => (if b.testBit 0 then a else 0) ^^^ gfMulStep (gfDouble a) (b / 2) n

/-- Product in GF(2^9). -/
def gfMul (a b : Nat) : Nat := gfMulStep a b 9

/-- `alpha ^ j`. -/
def gfPow (j : Nat) : Nat := iter gfDouble j 1

/-- The generator polynomial m1 * m3 with m3 = x^9 + x^6 + x^4 + x^3 + 1, of degree 18 (R305). -/
def codeGen : Nat := 0x495C9

/-- One division step of R306: shifts `m` in and reduces by the generator. -/
def codeStep (acc : Nat) (b : Bool) : Nat :=
  let t := (acc <<< 1) ^^^ (if b then 2 ^ 18 else 0)
  if t.testBit 18 then (t ^^^ codeGen) % 2 ^ 18 else t % 2 ^ 18

/-- Remainder of the payload's polynomial, highest bit first (R306). -/
def codeRem (d : Line) : Nat → Nat → Nat
  | 0, acc => acc
  | n + 1, acc => codeRem d n (codeStep acc (d.getLsbD n))

/-- The 19 check bits of a payload (R306). -/
def lineEncode (d : Line) : BitVec 19 :=
  let c := BitVec.ofNat 18 (codeRem d 256 0)
  let par := (ones d 256 + ones c 18) % 2
  BitVec.ofNat 19 (c.toNat + par * 2 ^ 18)

/-- What a checker finds. -/
inductive CodeOutcome where
  | none
  | ce (positions : List Nat)
  | ue
deriving DecidableEq, Repr

/-- The powers of alpha at positions `j`, `j + 1`, ..., with their positions. -/
def gfTable (x j : Nat) : Nat → List (Nat × Nat)
  | 0 => []
  | n + 1 => (j, x) :: gfTable (gfDouble x) (j + 1) n

/-- The syndrome sum of the positions in a list. -/
def syn1 (l : List Nat) : Nat := l.foldl (fun a j => a ^^^ gfPow j) 0

/-- S3 of the positions in a list. -/
def syn3 (l : List Nat) : Nat := l.foldl (fun a j => a ^^^ gfPow (3 * j)) 0

/-- The syndrome of an error pattern of the check bits alone. By linearity it is that of the
received word when the pattern is the stored check bits against the fresh ones (DEDUCED, log entry 22). -/
def lineSyn (err : BitVec 19) : BitVec 19 :=
  let l := (List.range 18).filter (fun i => err.getLsbD i)
  BitVec.ofNat 19 (syn1 l + syn3 l * 2 ^ 9 + (ones err 19 % 2) * 2 ^ 18)

/-- The checker's outcome (R307) from the syndrome. Position 274 stands for C[18]. -/
def lineCheck (syn : BitVec 19) : CodeOutcome :=
  let s1 := fld syn 0 9
  let s3 := fld syn 9 9
  let pf := syn.getLsbD 18
  if s1 = 0 ∧ s3 = 0 then (if pf then .ce [274] else .none)
  else if s1 = 0 then .ue
  else
    let cube := gfMul s1 (gfMul s1 s1)
    let tab := gfTable 1 0 274
    if s3 = cube then
      match tab.filter (fun jx => jx.2 = s1) with
      | [] => .ue
      | jx :: _ => if pf then .ce [jx.1] else .ce [jx.1, 274]
    else if pf then .ue
    else
      match tab.filter (fun jx =>
        (gfMul s1 (gfMul jx.2 jx.2 ^^^ gfMul s1 jx.2)) ^^^ s3 ^^^ cube = 0) with
      | [a, b] => .ce [a.1, b.1]
      | _ => .ue

/-- A payload with the located positions corrected: position 18 + i is payload bit i (R305). -/
def lineCorrect (d : Line) (ps : List Nat) : Line :=
  ps.foldl (fun w j => if 18 ≤ j ∧ j ≤ 273 then w ^^^ BitVec.ofNat 256 (2 ^ (j - 18)) else w) d

/-- The CRC-16 of R311 over 40 address bits, most significant first. -/
def crc16Step (crc : Nat) (b : Bool) : Nat :=
  let t := (crc <<< 1) % 2 ^ 16
  if (crc.testBit 15) != b then t ^^^ 0x1021 else t

/-- The address guard of a DRAM storage word (R311). -/
def addressGuard (a : Nat) : BitVec 16 :=
  let w := BitVec.ofNat 40 (a / 32 * 32)
  BitVec.ofNat 16 (((List.range 40).reverse).foldl (fun c i => crc16Step c (w.getLsbD i)) 0xFFFF)

end Sys2Proof.Machine
end

