-- ==== Sys2Proof/Machine/Map.lean ====
section
/-! DEFINITION. Sparse maps as plain data: a list of keys and values in one canonical form. -/

namespace Sys2Proof.Machine

/-- A sparse map: keys strictly rising, no entry equal to what an unlisted key reads as. -/
abbrev Map (α : Type) := List (Nat × α)

/-- The value at key `k`; `d` where the map lists none. -/
def mget {α : Type} (d : α) : Map α → Nat → α
  | [], _ => d
  | (a, v) :: r, k => if a = k then v else mget d r k

/-- The map without key `k`. -/
def mdel {α : Type} (k : Nat) : Map α → Map α
  | [] => []
  | (a, v) :: r => if a = k then mdel k r else (a, v) :: mdel k r

/-- Insertion before the first greater key. -/
def mins {α : Type} (k : Nat) (v : α) : Map α → Map α
  | [] => [(k, v)]
  | (a, w) :: r => if k < a then (k, v) :: (a, w) :: r else (a, w) :: mins k v r

/-- Sets key `k`; writing the default removes the entry. -/
def mset {α : Type} [DecidableEq α] (d : α) (m : Map α) (k : Nat) (v : α) : Map α :=
  if v = d then mdel k m else mins k v (mdel k m)

/-- Applies `f` at key `k`. -/
def mupd {α : Type} [DecidableEq α] (d : α) (m : Map α) (k : Nat) (f : α → α) : Map α :=
  mset d m k (f (mget d m k))

/-- Drops every key from `lo` up to, not including, `hi`. -/
def mclear {α : Type} (lo hi : Nat) : Map α → Map α
  | [] => []
  | (a, v) :: r => if lo ≤ a ∧ a < hi then mclear lo hi r else (a, v) :: mclear lo hi r

/-- The canonical form. -/
def mapOk {α : Type} [DecidableEq α] (d : α) : Map α → Bool
  | [] => true
  | [(_, v)] => decide (v ≠ d)
  | (a, v) :: (b, w) :: r => decide (v ≠ d) && decide (a < b) && mapOk d ((b, w) :: r)

end Sys2Proof.Machine
end

