-- ==== Sys2Proof/Machine/BlockTypes.lean ====
section
/-! DEFINITION. What the planes, the DRAM channels and the network hold, beside their registers. -/

namespace Sys2Proof.Machine

/-- How a stored word's guards stand (R308, R310): the written flag, the stored check bits against
the fresh code of the payload, the stored address guard against the right one, and the reserved bits of its
slot in DRAM, which every write but a raw one leaves 0 (R349). -/
structure Code where
  wf : BitVec 2 := 0
  err : BitVec 19 := 0
  ag : BitVec 16 := 0
  rsv : BitVec 27 := 0
deriving DecidableEq, Repr

/-- A scrubber's hidden state (R319, R324): the next due time, none while a visit is due at once, and CE_CNT
at the last second. -/
structure Scrubber where
  due : Option Nat := none
  ceLast : Nat := 0
deriving DecidableEq, Repr

/-- The states of a DRAM channel (R356). -/
inductive DdrState where
  | off | fill | run | sref | frozen | failed
deriving DecidableEq, Repr

/-- A write held in a channel's write queue (R337, R338): the word, what it covers, its data. -/
structure DramWrite where
  addr : Nat
  slots : BitVec 12
  bytes : BitVec 32 := 0
  data : Line
deriving DecidableEq, Repr

/-- A rank's refresh state (R341, R343). -/
structure Rank where
  post : Nat := 0
  pull : Nat := 0
  doubled : Bool := false
deriving DecidableEq, Repr

/-- A DRAM channel's hidden state (R338 to R352): state, write queue, whether writes take precedence, whether the zero-fill has run,
the next word to fill, the bursts the fill passes over, refresh counts, the open row of each bank
with the time of its last column command, the activations of each bank since its last refresh management
(R331), and the time from which no request has waited. -/
structure Dram where
  st : DdrState := .off
  wq : List DramWrite := []
  drain : Bool := false
  filled : Bool := false
  fillPos : Nat := 0
  skip : List Nat := []
  rank0 : Rank := {}
  rank1 : Rank := {}
  rows : Map (Option (Nat × Nat)) := []
  acts : Map Nat := []
  idleFrom : Nat := 0
  twBusy : Bool := false
deriving DecidableEq, Repr

/-- A march test of a plane (R456 to R460): the bank under test as 128q + 4c + b, whether every bank is
tested, its mode and backgrounds as at GO, and the time of the last owner access to the bank. -/
structure March where
  cur : Nat := 0
  all : Bool := false
  dest : Bool := false
  bg : Nat := 0
  since : Nat := 0
  done : Nat := 0
deriving DecidableEq, Repr

/-- A packet (R276, R277): the master that issues or awaits it, header fields, data flits. -/
structure Packet where
  m : Master
  dest : Nat
  dport : Nat := 0
  vn : Bool := false
  epoch : Bool := false
  op : Nat := 0
  addr : Nat := 0
  rlen : Nat := 0
  rsize : Nat := 0
  slots : BitVec 96 := 0
  bytes : BitVec 32 := 0
  status : Nat := 0
  tag : Nat := 0
  data : List Line := []
deriving DecidableEq, Repr

/-- A packet on its way: the router it stands at, the one it came from (its own port: the same), whether it has
reached its port, and when. -/
structure Moving where
  pkt : Packet
  at_ : Nat
  from_ : Nat
  arrived : Bool := false
  since : Nat := 0
deriving DecidableEq, Repr

/-- A request outstanding at its issuing port with the flits reserved for its response, or a retired tag (R284,
R285). -/
structure Outstanding where
  m : Master
  tag : Nat
  dest : Nat
  addr : Nat
  op : Nat
  epoch : Bool
  sent : Nat
  flits : Nat := 1
deriving DecidableEq, Repr

/-- The network (R285 to R299): packets on their way in the order in which they were injected,
requests outstanding, tags retired by a timeout, the offline marks of the check that runs and of the
flip in force, the trace buffer, and the time in ns that the NoC's clock has run. -/
structure Noc where
  ns : Nat := 0
  moving : List Moving := []
  outstanding : List Outstanding := []
  retired : List Outstanding := []
  checkOff : List Nat := []
  off : List Nat := []
  trace : Map (BitVec 128) := []
deriving DecidableEq, Repr

/-- A machine I/O pad (R505): what drives it from outside, and the level its keeper holds. -/
structure Pad where
  ext : Option Bool := none
  keep : Option Bool := none
deriving DecidableEq, Repr

/-- A CoaXPress receiver (R374 to R377): the frame in progress with its line and column, half a packed
sample, the samples of the history word being built, the count of frames since enable, the time of the
frame's first packet, whether the rest of the frame is dropped and whether it overran its slot, and the
times at which the trigger packets sent or queued end. -/
structure CxpRx where
  xsize : Nat := 0
  ysize : Nat := 0
  row : Nat := 0
  col : Nat := 0
  half : Option (Nat × Bool) := none
  idx : Nat := 0
  word : List Chan := []
  frame : Nat := 0
  first : Option Nat := none
  active : Bool := false
  dropping : Bool := false
  passed : Bool := false
  trig : List Nat := []
deriving DecidableEq, Repr

/-- A gate control list in operation (R388): base time, cycle, and entries as gates and interval in ns. -/
structure GateList where
  base : Nat := 0
  cycle : Nat := 0
  entries : List (BitVec 8 × Nat) := []
deriving DecidableEq, Repr

/-- A forwarded frame that waits at the tap for its replacement (R383). -/
structure TapFrame where
  seq : Nat
  odd : Bool
  bytes : List (BitVec 8)
  good : Bool
  due : Nat
deriving DecidableEq, Repr

/-- The state of an FRER entry (R378, R388): the next number generated, the number last recovered, the
history behind it. -/
structure Frer where
  next : Nat := 0
  last : Option Nat := none
  hist : BitVec 32 := 0
deriving DecidableEq, Repr

/-- An Ethernet port (R378 to R388): the sequence of tapped frames, the frames at the tap, oldest first, the
operational gate list and the one to come with its time, the token buckets in 1/8000 byte with the time
of their last fill, the FRER entries. -/
structure EthPort where
  seq : Nat := 0
  tap : List TapFrame := []
  oper : Option GateList := none
  next : Option GateList := none
  meters : Map (Option (Nat × Nat)) := []
  frer : Map Frer := []
  synced : Option Nat := none
deriving DecidableEq, Repr

/-- Levels of the status and control pins: POR_N high, TDM_ROLE as sampled (R415), LOAD_FAIL_N low,
FATAL_N low, THERM_N low, SYSCLK_25M running (R436, R485, R486, R490). -/
structure Signals where
  porN : Bool := false
  role : Bool := false
  loadFail : Bool := false
  fatal : Bool := false
  therm : Bool := false
  sysclk : Bool := true
deriving DecidableEq, Repr

/-- The hidden state of machine-time discipline and of the thermal sources (R207 to R212): good and
large offsets in a row, whether a PPS edge has come since the acquisition began, whether MT_REF is lost,
when the holdover began, whether HOLDMAX was reported, whether TWARN and THOT have been raised and not
rearmed, the corrections of the last 16 s with the time each took effect, newest first (counted in ns since
reset, steps apart), and when source 1990 was last raised. -/
structure MTime where
  edged : Bool := false
  refLost : Bool := false
  good : Nat := 0
  big : Nat := 0
  holdFrom : Nat := 0
  holdTold : Bool := false
  warnOff : Bool := false
  hotOff : Bool := false
  hist : List (Nat × Int) := []
  droopAt : Option Nat := none
deriving DecidableEq, Repr

/-- The AVSBus series (R484): the voltage last acknowledged (750 mV before the first write, R480), the
target of the series in progress, the write sent and not yet answered, when the last acknowledgement
came. -/
structure Avs where
  at_ : Nat := 750
  goal : Option Nat := none
  sent : Option Nat := none
  acked : Nat := 0
deriving DecidableEq, Repr

/-- A decision record in the pending table (R445, R446). -/
structure TRec where
  bits : BitVec 120
  poison : Bool
  placed : Nat
deriving DecidableEq, Repr

/-- The tandem block (R438 to R448): both sides of the pending table, the recent-miss list, the record
being popped, the time of the last heartbeat, whether the device was SOLO before LINKING, whether the
peer is UNFIT, whether MTHR has acted since the last write of MCNT, whether a YIELD awaits its reply. -/
structure Tandem where
  mine : List TRec := []
  theirs : List TRec := []
  missed : List Nat := []
  part : List Chan := []
  beat : Nat := 0
  solo : Bool := false
  peerUnfit : Bool := false
  acted : Bool := false
  yielding : Bool := false
deriving DecidableEq, Repr

/-- A DMA descriptor (R401). -/
structure Desc where
  op : Nat
  irq : Bool
  stope : Bool
  hro : Bool := false
  len : Nat
  haddr : Nat
  iaddr : Nat
deriving DecidableEq, Repr

/-- A DMA channel with a descriptor in progress (R400 to R406): the descriptor, the bytes moved, whether
poisoned data was moved, the samples received for the queue. -/
structure DmaJob where
  desc : Desc
  done : Nat := 0
  pois : Bool := false
  got : Nat := 0
deriving DecidableEq, Repr

/-- A recovery mailbox command in progress (R410). -/
structure Rmb where
  op : Nat
  slot : Bool
  off : Nat
  len : Nat
deriving DecidableEq, Repr

/-- An attestation request in preparation: nonce, FLAGS, and when it came (R409). -/
structure DoeReq where
  nonce : BitVec 256
  flags : Word32
  at_ : Nat
deriving DecidableEq, Repr

/-- The host link (R392 to R410): MSI-X enable, function mask and pending bits, descriptors in progress,
the staging and attestation requests being worked on, the recovery mailbox with its buffer, what the host wrote
into configuration space, the subsystem IDs of the image. -/
structure HostLink where
  msixOn : Bool := false
  fmask : Bool := false
  pend : Map Bool := []
  jobs : Map (Option DmaJob) := []
  staging : Option (Nat × Nat) := none
  doe : Option DoeReq := none
  rmb : Option Rmb := none
  buf : Map (BitVec 8) := []
  cfg : Map Word32 := []
  subsys : Word32 := 0
deriving DecidableEq, Repr

/-- The SHA3 engine (R433): the bytes absorbed, and what the operation that runs will end with: nothing for
ERR, else the output where FIN is set. -/
structure ShaEngine where
  msg : List (BitVec 8) := []
  ends : Option (Option (List (BitVec 8))) := none
deriving DecidableEq, Repr

/-- What an ML-DSA operation that runs will end with (R433). -/
structure MldJob where
  err : Bool := false
  valid : Option Bool := none
  dst : Nat := 0
  bytes : List (BitVec 8) := []
deriving DecidableEq, Repr

/-- The one-time-programmable memory (R425); the fused SVN as the number of bits blown. -/
structure Otp where
  seed : BitVec 256 := 0
  prov : Bool := false
  hash : Map (BitVec 512) := []
  keyv : BitVec 4 := 0
  keyrev : BitVec 4 := 0
  svnf : Nat := 0
  lock : Bool := false
deriving DecidableEq, Repr

/-- A boot that waits for its zero-fills or its march tests (R416, R429): whether slot B is being tried, the
first 0x4000 bytes of its image, the next ENABLE entry, and the planes whose tests such entries started. -/
structure BootRun where
  slotB : Bool
  head : List (BitVec 8)
  entry : Nat := 0
  planes : List Nat := []
deriving DecidableEq, Repr

/-- What leaves the part or answers a master, in order: the log of its outputs. -/
inductive OutMsg where
  | answer (m : Master) (addr : Nat) (status : Nat) (data : Nat)
  | memWrite (addr : Nat) (data : Nat) (len : Nat) (ep relaxed noSnoop : Bool)
  | msix (addr : Nat) (data : Word32)
  | completion (tag : Nat) (status : Nat) (data : List (BitVec 8)) (ep : Bool)
  | doe (object : List (BitVec 8))
  | frame (port : Nat) (bytes : List (BitVec 8)) (badFcs : Bool)
  | cxpControl (rx : Nat) (len : Nat) (words : List Word32)
  | cxpTrigger (rx : Nat)
  | ptpSync (port : Nat) (time : Nat)
  | sgmiiAck (port : Nat) (word : BitVec 16)
  | avsWrite (mv : Nat)
  | avsRead
  | avsStatus
  | aedade (kind : Nat) (payload : List Nat)
  | pad (pin : Nat) (level : Option Bool)
  | dramRaw (ch : Nat) (rank : Bool) (sub : Bool) (cmd : Word32)
deriving DecidableEq, Repr

end Sys2Proof.Machine
end

