-- ==== Sys2Proof/Machine/CoreTypes.lean ====
section
/-! DEFINITION. What the task scheduler and the control cores hold, beside their registers. -/

namespace Sys2Proof.Machine

/-- The states of a task record (R223). -/
inductive TaskState where
  | free | idle | ready | running | quar
deriving DecidableEq, Repr

/-- The code of a task state. -/
def TaskState.code : TaskState → Nat
  | .free => 0 | .idle => 1 | .ready => 2 | .running => 3 | .quar => 4

/-- A task state from its code. -/
def taskStateOf (n : Nat) : TaskState := [.free, .idle, .ready, .running].getD n .quar

/-- A task record (R224, R238). `bad` says that its storage word reads poisoned (R240). -/
structure Task where
  st : TaskState := .free
  prio : Nat := 0
  cls : Nat := 0
  pin : Bool := false
  arg : Word32 := 0
  wake : Nat := 0
  taker : Nat := 0
  dly : Bool := false
  rerun : Bool := false
  cxp : Bool := false
  dcnt : Nat := 0
  bad : Bool := false
deriving DecidableEq, Repr

/-- The ready list of a level: entries oldest first, how many of them are on chip, the ring places of those in
DRAM, in their order, and the place after the last one taken (R237, R238). -/
structure Level where
  ids : List Nat := []
  on : Nat := 0
  slots : List Nat := []
  tl : Nat := 0
deriving DecidableEq, Repr

/-- A delay entry: wake time, task, the order in which its command was applied, and whether the wake time had
passed then (R235, R236). -/
structure DelayEnt where
  wake : Nat
  id : Nat
  seq : Nat
  past : Bool := false
deriving DecidableEq, Repr

/-- What a taker is given: a task with its argument, or no task, and its CXL (R227, R229). -/
structure Given where
  task : Option Nat
  arg : Word32 := 0
  cxl : Bool := false
deriving DecidableEq, Repr

/-- The task scheduler (R222 to R241): records on chip, ready lists, delay entries in order of wake
time, how many of them are on chip, the place of the first one in the delay list, waiting takers in order of arrival with their masks, the task each taker holds, the report each
is due, requests (false) and withdrawals (true) on their way, and tasks on their way to takers. -/
structure Sched where
  tasks : Map (Option Task) := []
  lvls : Map Level := []
  dly : List DelayEnt := []
  dlyOn : Nat := 0
  dlyHd : Nat := 0
  waiting : List (Nat × BitVec 16) := []
  holds : Map (Option Nat) := []
  report : Map Bool := []
  way : List (Nat × Bool) := []
  given : Map (Option Given) := []
  spillErr : Bool := false
deriving DecidableEq, Repr

/-- The states of a core (R268). -/
inductive CoreState where
  | off | run | take | wfi | fatal
deriving DecidableEq, Repr

/-- The banked CSRs of one bank (R252, R266). -/
structure Bank where
  mepc : Word32 := 0
  mcause : Word32 := 0
  mtval : Word32 := 0
  bstat : Word32 := 0x1F00#32
  fpsa : Word32 := 0
  lsm : Word32 := 0
deriving DecidableEq, Repr

/-- A trap entry or a return that waits for the bank-7 trap in front of it (R258). -/
inductive Held where
  | entry (cause tval epc : Word32) (level : Nat) (interrupt user : Bool)
  | ret
deriving DecidableEq, Repr

/-- A core: registers by 32 × bank + number, banked CSRs, FP registers, status, windows, depth, what
is held for bank 7, the pending sources with their levels (R271), and the core addresses of stores whose
error response is still to come (R251), the word reserved by LR, and the puppeteer's own XTZCFG and XSTERR. -/
structure Core where
  st : CoreState := .off
  pc : Word32 := 0
  x : Map Word32 := []
  banks : Map Bank := []
  f : Map Word32 := []
  fcsr : Word32 := 0
  mie : Bool := false
  fs : BitVec 2 := 0
  user : Bool := false
  mtvec : Word32 := 0
  mscratch : Word32 := 0
  depth : Nat := 0
  lowres : Nat := 1
  held : Option Held := none
  bankwin : Nat := 0
  xwin0 : Nat := 0
  xwin1 : Nat := 0
  xschref : Word32 := 0
  tkarg : Word32 := 0
  takeRd : Nat := 0
  leaving : Bool := false
  pend : Map (Option Nat) := []
  stores : List Word32 := []
  resv : Option Nat := none
  xtzcfg : Word32 := 0
  sterr : Word32 := 0
deriving DecidableEq, Repr

end Sys2Proof.Machine
end

