-- ==== Sys2Proof/Machine/RegionTypes.lean ====
section
/-! DEFINITION. What a region, a derailleur and a stream queue hold, beside their registers. -/

namespace Sys2Proof.Machine

/-- An accumulator (R56): V, GOV and AP. -/
structure Acc where
  v : BitVec 48 := 0
  gov : BitVec 2 := 0
  ap : Bool := false
deriving DecidableEq, Repr

/-- The search state of an FX cell (R61). -/
structure FxSearch where
  sv : Sample := 0
  si : Sample := 0
  sn : Sample := 0
  sf : Bool := false
  sp : Bool := false
deriving DecidableEq, Repr

/-- An FX cell: outputs, registers r0 to r7, accumulators, search state (R19, R23, R56, R61). -/
structure FxCell where
  o0 : Chan := {}
  o1 : Chan := {}
  regs : Map Chan := []
  acc0 : Acc := {}
  acc1 : Acc := {}
  srch : FxSearch := {}
deriving DecidableEq, Repr

/-- An FP register: binary32 with one E and one P (R23). -/
structure FpVal where
  v : Word32 := 0
  e : Bool := false
  p : Bool := false
deriving DecidableEq, Repr

/-- The search state of an FP cell, with the closed index FI and its poison FIP (R62). -/
structure FpSearch where
  sv : Word32 := 0
  si : Sample := 0
  sn : Sample := 0
  sf : Bool := false
  sp : Bool := false
  fi : Sample := 0
  fip : Bool := false
deriving DecidableEq, Repr

/-- An FP cell: outputs O0 (high) and O1 (low), registers f0 to f3, search state. -/
structure FpCell where
  o0 : Chan := {}
  o1 : Chan := {}
  regs : Map FpVal := []
  srch : FpSearch := {}
deriving DecidableEq, Repr

/-- An address-generator channel: active BASE, LEN, STRIDE and the pointer (R124). -/
structure AguChan where
  base : Nat := 0
  len : Nat := 0
  stride : Int := 0
  p : Nat := 0
deriving DecidableEq, Repr

/-- What an operation in flight writes when it lands (R41, R45). -/
inductive Effect where
  | fx (o0 o1 : Option Chan) (reg : Option (Nat × Chan))
  | acc (i : Nat) (u : Int) (clr : Bool) (p : Bool)
  | fp (o : Option (Chan × Chan)) (reg : Option (Nat × FpVal)) (closed : Option (Sample × Bool))
deriving DecidableEq, Repr

/-- An operation in flight: cell 16t + p, unstalled cycles left, what it writes, and its flag
output with the poison of the result where its context had a nonzero FLG (R38). -/
structure Flight where
  cell : Nat
  left : Nat
  eff : Effect
  flag : Option (Bool × Bool) := none
deriving DecidableEq, Repr

/-- A fabric read in flight: cell c, channel 0 to 2, storage word and slot, cycles left, whether
it lost its bank (R118), its address operand's poison (R126), whether it was refused, and the
sample its read phase delivered. -/
structure MemRd where
  cell : Nat
  ch : Nat
  word : Nat := 0
  slot : Nat := 0
  left : Nat := 3
  lost : Bool := false
  apois : Bool := false
  refused : Bool := false
  data : Chan := {}
deriving DecidableEq, Repr

/-- A fabric write in flight: its chain (R115, R117) with the slots the chain wrote earlier and
their P, and whether the chain's read phase found the word uncorrectable. -/
structure MemWr where
  cell : Nat
  word : Nat
  slot : Nat
  data : Chan
  left : Nat := 4
  cid : Nat := 0
  merges : Bool := false
  chain : List (Nat × Bool) := []
  ue : Bool := false
deriving DecidableEq, Repr

/-- A port-1 write whose write phase is still due (R116): the storage word as the writer carries
it, the slots or bytes it covers, bank cycles left, and whether its read phase is still due. -/
structure P1Write where
  cell : Nat
  word : Nat
  slots : BitVec 12
  bytes : BitVec 32 := 0
  data : Line
  ue : Bool := false
  left : Nat := 1
  reads : Bool := false
deriving DecidableEq, Repr

/-- What a line-code entry reports (R326). -/
inductive LogKind where
  | ce | ue | ceScrub | ueScrub | ueDrop | flag | guard
deriving DecidableEq, Repr

/-- A visit of the plane scrubber under way on port 1 (R322): the word, bank cycles left to the rewrite, whether
a write phase to the word has come since its read phase, and what the read phase found: the kind to report, the
payload to rewrite, the syndrome. -/
structure ScrubFix where
  cell : Nat
  word : Nat
  left : Nat
  crossed : Bool := false
  found : Option (LogKind × Line × BitVec 19) := none
deriving DecidableEq, Repr

/-- A loop-stack entry (R78). -/
structure LoopEnt where
  start : Nat := 0
  stop : Nat := 0
  count : Nat := 0
  int : Bool := false
  frozen : Bool := false
deriving DecidableEq, Repr

/-- The state of the sequencer (R106). -/
inductive SeqState where
  | off | run | stall | wait | take | entry | halted
deriving DecidableEq, Repr

/-- A branch whose delay slot is still to run: where it goes, and whether it is a RETE (R82, R100). -/
structure DelaySlot where
  target : Nat
  rete : Bool := false
deriving DecidableEq, Repr

/-- One half of a region's configuration (R30, R72, R124, R166, R171). -/
structure Half where
  ctx : Map (BitVec 128) := []
  seq : Map (BitVec 48) := []
  vec : Map (BitVec 8) := []
  konst : Map (BitVec 32) := []
  agu : Map (BitVec 64) := []
  slotRec : Map (BitVec 64) := []
  portRec : Map Word32 := []
  queueRec : Map (BitVec 128) := []
  startPc : BitVec 8 := 0
  evtEn : BitVec 8 := 0
  taskMask : BitVec 16 := 0
  markQ : BitVec 8 := 0
deriving DecidableEq, Repr

/-- The states of a derailleur (R169). -/
inductive DrlState where
  | empty | busy | loaded | armed | migrating
deriving DecidableEq, Repr

/-- What a derailleur is busy with. -/
inductive DrlJob where
  | idle
  | preload (rec : Nat)
  | postShift
deriving DecidableEq, Repr

/-- A derailleur (R169, R188, R191). `home`: the grid place that its region serves for another. -/
structure Derailleur where
  st : DrlState := .empty
  job : DrlJob := .idle
  recAct : Nat := 0
  recInact : Nat := 0
  marked : List Nat := []
  marks : Bool := false
  subst : Bool := false
  subof : Bool := false
  peer : Nat := 0
  wasSt : DrlState := .empty
  migTo : Option Nat := none
  migFrom : Option Nat := none
  home : Option Nat := none
deriving DecidableEq, Repr

/-- An output queue port's record for the park push (R181). -/
structure PortOut where
  pushed : Bool := false
  lastE : Bool := false
  parkWait : Bool := false
deriving DecidableEq, Repr

/-- What a pin slot holds (R362 to R369): the level captured, the sample presented at its source,
the count, direction and latch of a quadrature slot, the compare value routed and loaded of a PWM
slot, the run bit of an SDCLK slot, the grid cycle at which the last frame of an SSICLK slot starts and
the frames it started (an SSIDAT slot: those it presented), the grid cycle up to which load points or
captures have been taken, whether the park sample drives, whether the generator does, and otherwise what
the output drives (nothing is high impedance), and the sample last routed to it (R473). -/
structure SlotState where
  level : Bool := false
  presented : Chan := {}
  count : Sample := 0
  dir : Bool := false
  zLatch : Sample := 0
  pwmRouted : Option Chan := none
  pwmLoaded : Chan := {}
  clkOn : Bool := false
  ssiFrom : Nat := 0
  frames : Nat := 0
  seen : Nat := 0
  parked : Bool := false
  gen : Bool := false
  drive : Option Bool := none
  routed : Chan := {}
deriving DecidableEq, Repr

/-- A level on its way through the input stage of a pin slot (R43): region cycles left and passed. -/
structure PinCapture where
  slot : Nat
  left : Nat
  age : Nat := 0
  level : Bool
deriving DecidableEq, Repr

/-- A sample in the output stage of a pin slot (R43): region cycles left, and whether it is the park
sample of kickstand state (R180). -/
structure PinStage where
  slot : Nat
  left : Nat := 8
  c : Chan
  park : Bool := false
deriving DecidableEq, Repr

/-- What one region holds beside its registers. `lastCycle`: the sequencer ends with the cycle in progress
(R93, R94); `trip`: its droop detector trips (R205); `p1Busy`: the bank cycles for which port 1 of a bank is
taken (R116). On their way, each with the region cycles until it is there (R27, R28): samples to border
inputs (`inWay`), credits (`credWay`), head samples of the queue ports (`visWay`); samples and pops to the
queue engine with the NoC time at which they set out (`portWay`, `popWay`). -/
structure Region where
  h : Bool := false
  a : Half := {}
  b : Half := {}
  st : SeqState := .off
  pc : Nat := 0
  hcause : Nat := 0
  haltPc : Nat := 0
  inh : Bool := false
  wto : Bool := false
  cxl : Bool := false
  evtRet : Nat := 0
  evtValid : Bool := false
  stack : List LoopEnt := []
  delay : Option DelaySlot := none
  runLeft : Nat := 0
  entryLeft : Nat := 0
  waited : Nat := 0
  withdrawing : Bool := false
  lastCycle : Bool := false
  trip : Bool := false
  fx : Map FxCell := []
  fp : Map FpCell := []
  agu : Map AguChan := []
  memOut : Map Chan := []
  spoke : Map Chan := []
  flags : Map (Bool × Bool) := []
  flights : List Flight := []
  rds : List MemRd := []
  wrs : List MemWr := []
  p1 : List P1Write := []
  p1Busy : Map Nat := []
  fixes : List ScrubFix := []
  nextCid : Nat := 0
  inWay : Map (List (Nat × Chan)) := []
  inFifo : Map (List Chan) := []
  credUsed : Map Nat := []
  credWay : Map (List Nat) := []
  lastOut : Map Chan := []
  portWay : Map (List (Nat × Chan)) := []
  visWay : Map (List Nat) := []
  portVis : Map Nat := []
  popWay : Map (List Nat) := []
  ports : Map PortOut := []
  pinWay : List PinCapture := []
  pinOut : List PinStage := []
  slots : Map SlotState := []
  drl : Derailleur := {}
  cycles : Nat := 0
deriving DecidableEq, Repr

/-- A sample held in a head or tail register, with its parity bit (R144). -/
structure QSamp where
  c : Chan := {}
  par : Bool := false
deriving DecidableEq, Repr

/-- What a stream queue holds beside its configuration registers (R136 to R152): the tail and head
registers, staging words, ring offsets and the samples the ring holds unread, simple-mode pointers,
the mark with what was popped since, the exact packet count, the error stop, when the timers last
restarted, levels, notices (HWN, LWN, TMOF, MLOST, PAR, MERR) and counts. -/
structure Queue where
  on : Bool := false
  tail : List QSamp := []
  head : List QSamp := []
  stage : List (List Chan) := []
  wr : Nat := 0
  rd : Nat := 0
  unread : Nat := 0
  wp : Nat := 0
  rp : Nat := 0
  mark : Option Nat := none
  marked : Nat := 0
  markPkts : Nat := 0
  mpend : Bool := false
  mlostf : Bool := false
  atBound : Bool := true
  pkts : Nat := 0
  merr : Bool := false
  tmr : Nat := 0
  mtmr : Nat := 0
  hl : Bool := false
  ll : Bool := false
  hcnt : Nat := 0
  lcnt : Nat := 0
  notice : BitVec 6 := 0
deriving DecidableEq, Repr

end Sys2Proof.Machine
end

