-- ==== Sys2Proof/Machine/State.lean ====
section
/-! DEFINITION. The state of the part, the reasons a step can stop, and the state after power-on reset. -/

namespace Sys2Proof.Machine

/-- Why a step stops with a fault. No command of this model faults: every happening the spec
describes has an effect, and safe in that nothing false can be proved from a stop. -/
inductive Fault where
  /-- Raised by no command. Safe. -/
  | none
deriving DecidableEq, Repr

/-- Why a command is refused by the model. -/
inductive Refusal where
  /-- Answered by Machine/Dispatch.lean alone, for a command without a meaning yet. Safe. -/
  | notModelled (mnemonic : String)
deriving DecidableEq, Repr

/-- The part: every register, memory, queue, counter, mode and pin the spec gives it, and the
commands that wait, first in, first out. `held` and `taken`: the samples that an endpoint of a queue other than
a region holds until its queue accepts them, and has taken from its queue, by endpoint code (R134, R142). -/
structure State where
  regs : Map Word32 := []
  latches : List (Master × Nat × Word32) := []
  mem : List Host.Cell := []
  codes : Map Code := []
  regions : Map Region := []
  queues : Map Queue := []
  held : Map (List Chan) := []
  taken : Map (List Chan) := []
  scrubs : Map Scrubber := []
  drams : Map Dram := []
  pads : Map Pad := []
  tsuDrive : Map (Option Bool) := []
  p1Wait : List (Master × Nat × Nat × Nat × P1Op) := []
  marches : Map March := []
  cadLate : List Nat := []
  lbIdx : Nat := 0
  lbSecond : Nat × Nat := (0, 0)
  lbHead : Option Nat := none
  sched : Sched := {}
  cores : Map Core := []
  bist : Option (Nat × Nat) := none
  noc : Noc := {}
  raised : List Nat := []
  tsuDone : List Nat := []
  cxps : Map CxpRx := []
  eths : Map EthPort := []
  host : HostLink := {}
  sha : ShaEngine := {}
  mld : Option MldJob := none
  otp : Otp := {}
  flash : Map (BitVec 8) := []
  boot : Option BootRun := none
  signals : Signals := {}
  mtime : MTime := {}
  avs : Avs := {}
  tandem : Tandem := {}
  fatal : Nat × Nat := (0, 0)
  out : List OutMsg := []
  now : Nat := 0
  fresh : Nat := 0
  pending : List Instr := []
deriving DecidableEq, Repr

/-- The machine right after power-on reset (R7): every register at its reset value, nothing stored, the puppeteer
running from its ROM (R269). -/
def State.reset : State := { cores := [(16, { st := .run })] }

end Sys2Proof.Machine
end

