-- ==== Sys2Proof/Machine/Regs.lean ====
section
/-! DEFINITION. The register file: offsets, reset values, access codes and event bits (R3 to R9). -/

namespace Sys2Proof.Machine

/-- Offsets from 0x42_0000_0000 (spec/00_scope.md). -/
def regionBase (r : Nat) : Nat := r * 0x10000
/-- The block of plane `p`. -/
def planeBase (p : Nat) : Nat := 0x400000 + p * 0x10000
/-- The block of DRAM channel `c` (R355). -/
def dramBase (c : Nat) : Nat := 0x600000 + c * 0x10000
/-- The event controller block (R199). -/
def evBase : Nat := 0x510000
/-- The NoC block (R301). -/
def nocBase : Nat := 0x520000
/-- The boot and security block (R200). -/
def bootBase : Nat := 0x900000

/-- The plane of region `r` (spec/00_scope.md). -/
def planeOf (r : Nat) : Nat := (r / 32) * 2 + (r % 8) / 4
/-- The index of region `r` within its plane (spec/05_mem_cells.md). -/
def planeIdx (r : Nat) : Nat := ((r / 8) % 4) * 4 + r % 4
/-- The region of index `q` in plane `p`. -/
def regionOf (p q : Nat) : Nat := ((p / 2) * 4 + q / 4) * 8 + (p % 2) * 4 + q % 4

/-- The governor block (R220). -/
def govBase : Nat := 0xE00000

/-- The value a register reads after power-on reset where it is not 0 (R11, R219, R220, R302, R435; the vector control of MSI-X by the PCI Express base specification). -/
def regReset (o : Nat) : Word32 :=
  if o < 0x400000 ∧ o % 0x10000 = 0x0204 then 127#32
  else if o = nocBase + 0x0004 then 2#32
  else if o = govBase + 0x0008 then 1#32
  else if 0x1000000 ≤ o ∧ o < 0x1008000 ∧ o % 16 = 12 then 1#32
  else if o = bootBase + 0x0010 then 0x7A108840#32
  else if o = bootBase + 0x0014 then 1#32
  else 0

/-- A register's latched value. -/
def State.rg (s : State) (o : Nat) : Word32 := mget (regReset o) s.regs o

/-- Sets a register's latched value. -/
def State.setRg (s : State) (o : Nat) (v : Word32) : State :=
  { s with regs := mset (regReset o) s.regs o v }

/-- A field of a register. -/
def State.rf (s : State) (o lo len : Nat) : Nat := fld (s.rg o) lo len

/-- Sets a field of a register. -/
def State.setRf (s : State) (o lo len x : Nat) : State := s.setRg o (setFld (s.rg o) lo len x)

/-- A bit of a register. -/
def State.rb (s : State) (o i : Nat) : Bool := (s.rg o).getLsbD i

/-- Sets a bit of a register. -/
def State.setRb (s : State) (o i : Nat) (b : Bool) : State := s.setRg o (setBit (s.rg o) i b)

/-- A 64-bit register pair, the low word at the lower offset (R4). -/
def State.rg64 (s : State) (o : Nat) : Nat := (s.rg o).toNat + (s.rg (o + 4)).toNat * 2 ^ 32

/-- Sets a 64-bit register pair. -/
def State.setRg64 (s : State) (o : Nat) (v : Nat) : State :=
  (s.setRg o (BitVec.ofNat 32 v)).setRg (o + 4) (BitVec.ofNat 32 (v / 2 ^ 32))

/-- Counts one in a 32-bit saturating counter. -/
def State.count (s : State) (o : Nat) : State := s.setRg o (satInc32 (s.rg o))

/-- Counts one in a 64-bit counter. -/
def State.count64 (s : State) (o : Nat) : State := s.setRg64 o (s.rg64 o + 1)

/-- Raises event source `n` (R270): it travels to the event controller. -/
def State.raise (s : State) (n : Nat) : State := { s with raised := s.raised ++ [n] }

/-- Raises `n` when `b` holds. -/
def State.raiseIf (s : State) (b : Bool) (n : Nat) : State := if b then s.raise n else s

/-- Sets sticky bit `k` of an event register and raises `src` when enable bit `en` is 1. -/
def State.event (s : State) (o k en src : Nat) : State :=
  let s := s.setRb o k true
  s.raiseIf (s.rb o en) src

/-- Whether the boot has ended well: BOOT_STATUS.STATE is 7 (R416, R435). -/
def State.booted (s : State) : Bool := s.rf bootBase 0 4 == 7

/-- Whether the fatal path has been entered: FTL_STAT.STATE is not 0 (R470, R476). -/
def State.dead (s : State) : Bool := s.rf 0xB00044 29 3 != 0

/-- The level of RUNNING (R416, R490). -/
def State.running (s : State) : Bool := s.booted && !s.dead

/-- How a register takes a write (R5): the bits that are set, those set only while EN is 0, those
that a 1 clears, and where the block's EN bit lies. -/
structure RegSpec where
  rw : Word32 := 0
  rwl : Word32 := 0
  w1c : Word32 := 0
  en : Nat := 0
  enBit : Nat := 0
deriving DecidableEq, Repr

/-- The value a register holds after a write of `v` (R5, R6, R9), `locked` while its block's EN is 1. -/
def regTakes (f : RegSpec) (locked : Bool) (old v : Word32) : Word32 :=
  let m := if locked then f.rw else f.rw ||| f.rwl
  ((old &&& ~~~ m) ||| (v &&& m)) &&& ~~~ (v &&& f.w1c)

/-- Writes the fields of a register as their access codes say. -/
def State.writeFields (s : State) (o : Nat) (f : RegSpec) (v : Word32) : State :=
  s.setRg o (regTakes f (f.rwl != 0 && s.rb f.en f.enBit) (s.rg o) v)

/-- Stores the lowest of the reason codes that apply, where any does (R8). -/
def lowestCode : List Nat → Option Nat
  | [] => none
  | c :: r => match lowestCode r with
    | none => some c
    | some d => some (min c d)

/-- The codes of a check as a list: `c` where `b` holds. -/
def codeIf (b : Bool) (c : Nat) : List Nat := if b then [c] else []

/-- The enable step of R8: with EN reading 0, the check's lowest code goes to REASON, or EN rises. -/
def State.enableCheck (s : State) (ctrl reason : Nat) (codes : List Nat) : State × Bool :=
  match lowestCode codes with
  | some c => (s.setRf reason 0 16 c, false)
  | none => (s.setRb ctrl 0 true, true)

end Sys2Proof.Machine
end

