-- ==== Sys2Proof/Machine/Memory.lean ====
section
/-! DEFINITION. Storage words at rest: bytes, written flags, the checker's reading, the line-code
logs and the merge of a narrow write (R111 to R117, R308 to R315, R326 to R328). -/

namespace Sys2Proof.Machine

/-- What a byte of memory that nothing has written reads as: 0 (a never-written word reads as
zero, R113, R250; log 3 for DRAM before its zero-fill). -/
def emptyByte : BitVec 8 := 0

/-- One byte at an internal address. -/
def readByte (m : List Host.Cell) (a : Nat) : BitVec 8 := mget emptyByte m a

/-- The `n` bytes from `a`, least significant first, as a number (R164). -/
def bytesAt (m : List Host.Cell) (a : Nat) : Nat → Nat
  | 0 => 0
  | n + 1 => bytesAt m a n + (readByte m (a + n)).toNat <<< (8 * n)

/-- The 32 payload bytes at `a` as a storage word. -/
def lineAt (m : List Host.Cell) (a : Nat) : Line := BitVec.ofNat 256 (bytesAt m a 32)

/-- Stores the low `n` bytes of `x` from `a` on. -/
def putBytes (m : List Host.Cell) (a x : Nat) : Nat → List Host.Cell
  | 0 => m
  | n + 1 => mset emptyByte (putBytes m a x n) (a + n) (BitVec.ofNat 8 (x >>> (8 * n)))

/-- The canonical form of memory. -/
def Memory.wf (m : List Host.Cell) : Bool := mapOk emptyByte m

/-- NoC address of word `w` of cell `c` of region `r` (R112). -/
def cellAddr (r c w : Nat) : Nat := 0x4000000000 + r * 0x100000 + c * 0x8000 + w * 0x20

/-- The guards of the stored word at `a`. -/
def State.code (s : State) (a : Nat) : Code := mget {} s.codes (a / 32)

/-- Stores a whole word with a fresh code, WF = 0b11 and, in DRAM, a fresh guard (R308, R311, R336). -/
def State.putLine (s : State) (a : Nat) (d : Line) : State :=
  { s with mem := putBytes s.mem (a / 32 * 32) d.toNat 32,
           codes := mset {} s.codes (a / 32) { wf := 3 } }

/-- Clears `n` words from `a` on: WF = 0b00 with d and C all zero (R309). -/
def State.clearLines (s : State) (a n : Nat) : State :=
  { s with mem := mclear (a / 32 * 32) (a / 32 * 32 + 32 * n) s.mem,
           codes := mclear (a / 32) (a / 32 + n) s.codes }

/-- What a checker delivers of one word. -/
structure WordRead where
  raw : Line
  data : Line
  ue : Bool := false
  ce : Bool := false
  flagBad : Bool := false
  guard : Bool := false
  syn : BitVec 19 := 0
deriving DecidableEq, Repr

/-- The checker on the stored word at `a` (R307, R308, R312); the address guard is examined by the
DRAM controller alone (R311). `raw` is the payload a read-modify-write merges into. -/
def State.examine (s : State) (a : Nat) : WordRead :=
  let c := s.code a
  let d := lineAt s.mem (a / 32 * 32)
  let g := c.ag != 0
  if c.wf = 0 then { raw := 0, data := 0, guard := g }
  else
    let syn := lineSyn c.err
    match lineCheck syn with
    | .none => { raw := d, data := d, flagBad := c.wf != 3, guard := g, syn := syn }
    | .ce ps => { raw := lineCorrect d ps, data := lineCorrect d ps, ce := true, guard := g, syn := syn }
    | .ue => { raw := d, data := linePoison d, ue := true, guard := g, syn := syn }

/-- The code of a log kind. -/
def LogKind.code : LogKind → Nat
  | .ce => 0 | .ue => 1 | .ceScrub => 2 | .ueScrub => 3 | .ueDrop => 4 | .flag => 5 | .guard => 6

/-- Writes an entry to the line-code log whose registers lie at `base`, counts it and sets its
event bit, whose sources start at `src0` (R326 to R328). -/
def State.logLine (s : State) (base src0 : Nat) (k : LogKind) (src addr : Nat) (syn : BitVec 19) : State :=
  let wp := s.rf (base + 0x1C) 0 4
  let e := base + 0x100 + 0x10 * wp
  let lost := s.rb (e + 8) 31
  let s := s.setRg e (BitVec.ofNat 32 s.now)
  let s := s.setRg (e + 4) (BitVec.ofNat 32 (addr / 32 * 32))
  let s := s.setRg (e + 8) (BitVec.ofNat 32 (2 ^ 31 + src * 2 ^ 12 + k.code * 2 ^ 8 + (addr / 2 ^ 32) % 256))
  let s := s.setRg (e + 0xC) (if k = .guard then 0 else syn.zeroExtend 32)
  let s := s.setRf (base + 0x1C) 0 4 ((wp + 1) % 16)
  let s := match k with
    | .ce | .ceScrub | .flag => (s.count (base + 0x14)).event (base + 0x24) 0 16 src0
    | .ue => (s.count (base + 0x18)).event (base + 0x24) 1 17 (src0 + 1)
    | .ueScrub | .ueDrop => (s.count (base + 0x18)).event (base + 0x24) 2 18 (src0 + 2)
    | .guard => s.event (base + 0x24) 2 18 (src0 + 2)
  if lost then
    (s.setRf (base + 0x1C) 8 8 (min 255 (s.rf (base + 0x1C) 8 8 + 1))).event (base + 0x24) 3 19 (src0 + 3)
  else s

/-- A report to the log of plane `p` (R312). -/
def State.logPlane (s : State) (p : Nat) (k : LogKind) (src addr : Nat) (syn : BitVec 19) : State :=
  s.logLine (planeBase p + 0xD000) (1024 + 64 * p + 3) k src addr syn

/-- A report to the log of DRAM channel `c` (R312). -/
def State.logChannel (s : State) (c : Nat) (k : LogKind) (src addr : Nat) (syn : BitVec 19) : State :=
  s.logLine (dramBase c + 0x8000) (1344 + 16 * c) k src addr syn

/-- A read phase of a MEM cell on port 0 or 1: what it delivers, and its report (R113, R312). -/
def State.cellRead (s : State) (r c w port : Nat) : State × WordRead :=
  let a := cellAddr r c w
  let x := s.examine a
  let s := if x.ce then s.logPlane (planeOf r) .ce port a x.syn
    else if x.ue then s.logPlane (planeOf r) .ue port a x.syn else s
  (s, x)

/-- The poison bit of group `g` after a write phase (R117): the writer's P of each covered slot, and
for an uncovered slot the group's bit as it stood, or 1 where the read phase found the word
uncorrectable. `own` gives P where the slot is covered. -/
def groupAfter (old : Bool) (ue : Bool) (own : Nat → Option Bool) (g : Nat) : Bool :=
  [3 * g, 3 * g + 1, 3 * g + 2].any (fun k => match own k with
    | some p => p
    | none => old || ue)

/-- The word after a write phase over the slots for which `own` gives a sample, each slot of `chain`
counting as covered with the P of the chain's last write to it, the oldest write first (R117, R315). -/
def mergeSlots (old : Line) (ue : Bool) (own : Nat → Option Chan) (chain : List (Nat × Bool)) : Line :=
  let w := (List.range 12).foldl (fun w k => match own k with
    | some c => lineSetSlot w k c
    | none => w) old
  let cov := fun k => match own k with
    | some c => some c.p
    | none => (chain.reverse.find? (fun e => e.1 = k)).map (·.2)
  (List.range 4).foldl (fun w g => setBit w (252 + g) (groupAfter (old.getLsbD (252 + g)) ue cov g)) w

/-- The samples a flit or ship carries for the slots of a mask (R281): sample, E, and the P of the
slot's poison group. -/
def flitSlots (slots : BitVec 12) (d : Line) (k : Nat) : Option Chan :=
  if slots.getLsbD k then some (lineChan d k) else none

/-- A write of the bytes of a mask (R250, R281): the poison-group bits lie in byte 31 and are kept
unless it is written; all four are set where the word was found uncorrectable (R250). Where byte 31 is not
written, the groups that `d` carries are set as well: those of a poisoned TLP (R396), no others (`plainBytes`). -/
def mergeBytes (old : Line) (ue : Bool) (mask : BitVec 32) (d : Line) : Line :=
  let w := (List.range 32).foldl (fun w k =>
    if mask.getLsbD k then lineSetByte w k (lineByte d k) else w) old
  let w := w ||| setFld 0 252 4 (fld d 252 4)
  if ue then linePoison w else w

/-- The data of a byte write without groups of its own (R315). -/
def plainBytes (mask : BitVec 32) (d : Line) : Line := if mask.getLsbD 31 then d else setFld d 252 4 0

/-- The slots any of whose bits a byte mask writes. -/
def byteSlots (mask : BitVec 32) : BitVec 12 :=
  (List.range 12).foldl (fun m k =>
    if (setBits mask 32).any (fun b => 8 * b < 20 * k + 20 ∧ 20 * k < 8 * b + 8) then setBit m k true else m) 0

/-- A happening of a plane's MEM cells (R131): kind, cell, channel, storage word. -/
structure MemHap where
  kind : Nat
  cell : Nat
  ch : Nat
  word : Nat
deriving DecidableEq, Repr

/-- Which of two happenings MEM_LAST keeps (R132). -/
def MemHap.before (a b : MemHap) : Bool :=
  a.kind < b.kind || (a.kind = b.kind && (a.cell < b.cell || (a.cell = b.cell && a.ch ≤ b.ch)))

/-- The happening that MEM_LAST keeps of those of one bank cycle. -/
def firstHap : List MemHap → Option MemHap
  | [] => none
  | h :: r => match firstHap r with
    | none => some h
    | some g => if h.before g then some h else some g

/-- Counts and raises one happening (R119, R118, R126, R132). -/
def State.countHap (s : State) (p : Nat) (h : MemHap) : State :=
  let b := planeBase p
  let k := if h.kind ≤ 1 then h.kind else 2
  let s := s.count (b + 0xC808 + 4 * k)
  let s := s.setRb (b + 0xC804) k true
  s.raise (1024 + 64 * p + k)

/-- Records the happenings of one bank cycle of region `r` (R132). -/
def State.recordHaps (s : State) (r : Nat) (hs : List MemHap) : State :=
  let p := planeOf r
  let s := hs.foldl (fun s h => s.countHap p h) s
  match firstHap hs with
  | none => s
  | some h => s.setRg (planeBase p + 0xC814) (BitVec.ofNat 32
      (2 ^ 31 + h.kind * 2 ^ 28 + h.ch * 2 ^ 26 + planeIdx r * 2 ^ 22 + h.cell * 2 ^ 17 +
        (if h.kind = 2 ∨ 1023 < h.word then 0 else h.word)))

end Sys2Proof.Machine
end

