-- ==== Sys2Proof/Machine/Logbook.lean ====
section
/-! DEFINITION. The logbook: its place in memory, and the appending of an entry (R464 to R468). -/

namespace Sys2Proof.Machine

/-- The internal address of the logbook (spec/00_scope.md). -/
def logbookAddr : Nat := 0x4300000000
/-- The test block (R476). -/
def testBase : Nat := 0xB00000

/-- A message leaves the part, or answers a master. -/
def State.put (s : State) (m : OutMsg) : State := { s with out := s.out ++ [m] }

/-- Writes `n` bytes of a value into raw memory. -/
def State.pokeBytes (s : State) (a x n : Nat) : State := { s with mem := putBytes s.mem a x n }
/-- Reads `n` bytes of raw memory. -/
def State.peekBytes (s : State) (a n : Nat) : Nat := bytesAt s.mem a n

/-- Fields of given sizes in bytes, packed from the lowest byte up. -/
def packFields : List (Nat × Nat) → Nat
  | [] => 0
  | (v, n) :: rest => v % 256 ^ n + 256 ^ n * packFields rest

/-- Sets a TST_EVT bit and raises its source when enabled (R476, R478). -/
def State.testEvent (s : State) (k : Nat) : State := s.event (testBase + 0x10) k (16 + k) (1920 + k)

/-- Appends an entry to the ring, unless the second's limit is reached (R466, R467). -/
def State.lbAppend (s : State) (kind : Nat) (fields : List (Nat × Nat)) : State :=
  let sec := s.now / 1000000000
  let n := if s.lbSecond.1 = sec then s.lbSecond.2 else 0
  if 1000 ≤ n ∧ kind ≠ 0x00F0 then
    let s := { s with lbSecond := (sec, n + 1) }
    let s := s.count (testBase + 0x38)
    let c := logbookAddr + 0x1000 + 8 * 24
    let s := s.pokeBytes c (s.peekBytes c 8 + 1) 8
    if n = 1000 then s.testEvent 2 else s
  else
    let seq := (s.rg (testBase + 0x34)).toNat
    let boot := s.peekBytes (logbookAddr + 8) 2
    let a := logbookAddr + 0x10000 + 32 * s.lbIdx
    let s := s.pokeBytes a (packFields [(seq, 4), (s.now, 8), (boot, 2), (kind, 2), (packFields fields, 16)]) 32
    let s := s.setRg (testBase + 0x34) (BitVec.ofNat 32 (seq + 1))
    { s with lbIdx := (s.lbIdx + 1) % 194560, lbSecond := (sec, n + 1) }

/-- A line-code log entry of KIND UE_SCRUB, UE_DROP or GUARD, with its LINE_UE entry in the logbook (R323,
R465). -/
def State.logGrave (s : State) (base src0 : Nat) (k : LogKind) (src addr : Nat) (syn : BitVec 19) : State :=
  let e := base + 0x100 + 0x10 * s.rf (base + 0x1C) 0 4
  let s := s.logLine base src0 k src addr syn
  s.lbAppend 0x0010 ((List.range 4).map (fun j => ((s.rg (e + 4 * j)).toNat, 4)))

end Sys2Proof.Machine
end

