-- ==== Sys2Proof/Machine/Context.lean ====
section
/-! DEFINITION. Context words: fields, operand fields read, latencies, and the geometry of a region
(R15 to R44, R504). -/

namespace Sys2Proof.Machine

/-- The kinds of cell (R15). -/
inductive CellKind where
  | fx | fp | mem
deriving DecidableEq, Repr

/-- The kind of the cell at position `p` (R15). -/
def kindAt (p : Nat) : CellKind :=
  if p = 5 ∨ p = 10 then .mem else if p = 6 ∨ p = 9 then .fp else .fx

/-- The position of FX cell `f` (R15). -/
def fxPos (f : Nat) : Nat := [0, 1, 2, 3, 4, 7, 8, 11, 12, 13, 14, 15].getD f 0

/-- The tile across edge `e` of tile `t`, where it lies in the region (R15). -/
def tileAcross (t e : Nat) : Option Nat :=
  match e with
  | 0 => if t / 4 = 0 then none else some (t - 4)
  | 1 => if t % 4 = 3 then none else some (t + 1)
  | 2 => if t / 4 = 3 then none else some (t + 4)
  | _ => if t % 4 = 0 then none else some (t - 1)

/-- The border channel of edge `e`, channel `j` of tile `t` in the numbering of R86. -/
def borderIdx (t e j : Nat) : Nat := 16 * e + 4 * (if e % 2 = 0 then t % 4 else t / 4) + j

/-- The region across side `e`, on the 8 x 8 grid (R25). -/
def regionAcross (r e : Nat) : Option Nat :=
  match e with
  | 0 => if r / 8 = 0 then none else some (r - 8)
  | 1 => if r % 8 = 7 then none else some (r + 1)
  | 2 => if r / 8 = 7 then none else some (r + 8)
  | _ => if r % 8 = 0 then none else some (r - 1)

/-- A perimeter region has pin slots (R22). -/
def perimeter (r : Nat) : Bool := r / 8 == 0 || r / 8 == 7 || r % 8 == 0 || r % 8 == 7

/-- The tile of queue port `i` (R21). -/
def portTile (i : Nat) : Nat := [0, 2, 5, 7, 8, 10, 13, 15].getD i 0

/-- The queue port of tile `t`, where it has one (R21). -/
def tilePort (t : Nat) : Option Nat :=
  (List.range 8).find? (fun i => portTile i == t)

/-- The border input behind crossbar source `n` of tile `t`: 0 to 63 a spoke, 64 + i queue port i. -/
def borderIn (t n : Nat) : Option Nat :=
  if 38 ≤ n ∧ n ≤ 53 then
    match tileAcross t ((n - 38) / 4) with
    | some _ => none
    | none => some (borderIdx t ((n - 38) / 4) ((n - 38) % 4))
  else if n = 54 then (tilePort t).map (64 + ·) else none

/-- The number of a border in the numbering of WAIT's SEL (R86). -/
def selOfIn (i : Nat) : Nat := if i < 64 then 0x10 + i else i - 64
/-- The number of a border output in the numbering of WAIT's SEL (R86). -/
def selOfOut (o : Nat) : Nat := if o < 64 then 0x50 + o else 0x08 + (o - 64)

/-- An operand field that a context reads: selector, POP bit, and whether it is a pair lane. -/
structure Operand where
  sel : Nat
  pop : Bool
  pair : Bool := false
deriving DecidableEq, Repr

/-- Which of A, B and C an FX opcode uses (R52). -/
def fxUses (opc : Nat) : Bool × Bool × Bool :=
  if opc = 0x09 then (true, true, true)
  else if opc = 0x08 ∨ opc = 0x0F ∨ opc = 0x22 ∨ opc = 0x23 ∨ opc = 0x28 ∨ opc = 0x29 then (true, false, false)
  else if opc = 0x24 then (false, false, false)
  else (true, true, false)

/-- Which of A, B and C an FP opcode uses (R52). -/
def fpUses (opc : Nat) : Bool × Bool × Bool :=
  if 0x04 ≤ opc ∧ opc ≤ 0x06 then (true, true, true)
  else if opc = 0x12 then (false, false, false)
  else if (0x01 ≤ opc ∧ opc ≤ 0x03) ∨ opc = 0x08 ∨ opc = 0x09 ∨ opc = 0x0C ∨ opc = 0x0D then (true, true, false)
  else (true, false, false)

/-- FX opcodes that R34 names. -/
def fxOpcodes : List Nat :=
  [0x00, 0x01, 0x02, 0x03, 0x04, 0x05, 0x06, 0x07, 0x08, 0x09, 0x0A, 0x0B, 0x0C, 0x0D, 0x0E, 0x0F,
   0x10, 0x11, 0x12, 0x13, 0x18, 0x19, 0x1A, 0x20, 0x21, 0x22, 0x23, 0x24, 0x28, 0x29]

/-- FP opcodes that R36 names. -/
def fpOpcodes : List Nat :=
  [0x00, 0x01, 0x02, 0x03, 0x04, 0x05, 0x06, 0x08, 0x09, 0x0A, 0x0B, 0x0C, 0x0D, 0x10, 0x11, 0x12,
   0x18, 0x19, 0x1C, 0x1D, 0x1E]

/-- Latency of an FX opcode (R34, R41). -/
def fxLatency (opc : Nat) : Nat :=
  if 0x18 ≤ opc ∧ opc ≤ 0x21 then 3 else if opc = 0x24 then 2 else 1

/-- Latency of an FP opcode (R36, R41). -/
def fpLatency (opc : Nat) : Nat :=
  if opc = 0x01 ∨ opc = 0x02 ∨ opc = 0x03 ∨ opc = 0x1C ∨ opc = 0x1D then 4
  else if 0x04 ≤ opc ∧ opc ≤ 0x06 then 5
  else if opc = 0x0A ∨ opc = 0x0B ∨ opc = 0x12 ∨ opc = 0x1E then 1
  else if opc = 0x18 ∨ opc = 0x19 then 3
  else 2

/-- OPC field. -/
def cOpc (w : BitVec 128) : Nat := fld w 0 7
/-- Source of the spoke-output sink (R20). -/
def cRts (k : CellKind) (w : BitVec 128) : Nat := if k = .mem then fld w 80 6 else fld w 75 6
/-- Source of the auxiliary sink (R20). -/
def cRtx (k : CellKind) (w : BitVec 128) : Nat := if k = .mem then fld w 86 6 else fld w 81 6
/-- PRED of an FX or FP context. -/
def cPred (w : BitVec 128) : Nat := fld w 71 2
/-- EMODE of an FX or FP context. -/
def cEmode (w : BitVec 128) : Nat := fld w 73 2
/-- FLG of an FX or FP context. -/
def cFlg (w : BitVec 128) : Nat := fld w 69 2
/-- The control byte of MEM channel `ch`: 0 to 2 read, 3 write (R37). -/
def cChan (w : BitVec 128) (ch : Nat) : Nat := fld w (48 + 8 * ch) 8
/-- The address operand's selector of MEM channel `ch`. -/
def cSelX (w : BitVec 128) (ch : Nat) : Nat := fld w (14 + 7 * ch) 7

/-- The operand fields that a context reads (R504). -/
def operandsRead (k : CellKind) (w : BitVec 128) : List Operand :=
  let opc := cOpc w
  if opc = 0 then []
  else match k with
    | .mem =>
      (if opc = 1 ∧ (cChan w 3) % 2 = 1 then [{ sel := fld w 7 7, pop := bit w 42 }] else []) ++
      ((List.range 4).filter (fun ch => opc = 1 ∧ (cChan w ch) % 2 = 1 ∧
          ((cChan w ch) / 4 % 4 = 1 ∨ (cChan w ch) / 4 % 4 = 2))).map
        (fun ch => { sel := cSelX w ch, pop := bit w (43 + ch) })
    | _ =>
      let u := if k = .fx then fxUses opc else fpUses opc
      let pr := decide (k = .fp)
      (if u.1 ∨ cEmode w = 0 then
        [{ sel := fld w 7 7, pop := bit w 28, pair := pr && opc != 0x18 : Operand }] else []) ++
      (if u.2.1 ∨ cEmode w = 1 then [{ sel := fld w 14 7, pop := bit w 29, pair := pr }] else []) ++
      (if u.2.2 ∨ cPred w ≠ 0 then [{ sel := fld w 21 7, pop := bit w 30, pair := pr }] else [])

/-- The crossbar sources behind an operand: both channels of a pair lane (R18). -/
def Operand.sources (o : Operand) : List Nat :=
  if o.sel = 0 ∨ 0x3F < o.sel then [] else if o.pair then [o.sel, o.sel + 1] else [o.sel]

/-- The context words of slot `x` of a half, each with its cell 16t + p. -/
def Half.words (h : Half) (x : Nat) : List (Nat × BitVec 128) :=
  (h.ctx.filter (fun e => e.1 % 16 = x)).map (fun e => (e.1 / 16, e.2))

end Sys2Proof.Machine
end

