-- ==== Sys2Proof/Machine/Operands.lean ====
section
/-! DEFINITION. What a source presents: crossbar sources, queue ports, registers, immediates and pair
lanes, and where a border leads (R16 to R28, R191). -/

namespace Sys2Proof.Machine

/-- Region `r`. -/
def State.region (s : State) (r : Nat) : Region := mget {} s.regions r
/-- Replaces region `r`. -/
def State.setRegion (s : State) (r : Nat) (x : Region) : State :=
  { s with regions := mset {} s.regions r x }
/-- Changes region `r`. -/
def State.onRegion (s : State) (r : Nat) (f : Region → Region) : State := s.setRegion r (f (s.region r))

/-- Queue `q`. -/
def State.queue (s : State) (q : Nat) : Queue := mget {} s.queues q
/-- Replaces queue `q`. -/
def State.setQueue (s : State) (q : Nat) (x : Queue) : State :=
  { s with queues := mset {} s.queues q x }
/-- Changes queue `q`. -/
def State.onQueue (s : State) (q : Nat) (f : Queue → Queue) : State := s.setQueue q (f (s.queue q))

/-- The active half of a region (R30). -/
def Region.active (x : Region) : Half := if x.h then x.b else x.a
/-- The inactive half. -/
def Region.inactive (x : Region) : Half := if x.h then x.a else x.b
/-- Replaces the inactive half. -/
def Region.setInactive (x : Region) (y : Half) : Region := if x.h then { x with a := y } else { x with b := y }

/-- The base offset of queue `q`'s registers (R133, R156). -/
def queueBase (q : Nat) : Nat := planeBase (q / 128 % 4) + (q % 128) * 0x40

/-- The enabled queue whose endpoint field at bit `lo` of Q_ENDP holds `code` (R134, R135). -/
def State.queueOf (s : State) (lo code : Nat) : Option Nat :=
  (s.queues.find? (fun e => e.2.on && s.rf (queueBase e.1 + 8) lo 16 == code)).map (·.1)

/-- The grid place that region `r` serves: its own, or that of the one it substitutes for (R191). -/
def State.logical (s : State) (r : Nat) : Nat := (s.region r).drl.home.getD r
/-- The region that serves grid place `r` (R191). -/
def State.physical (s : State) (r : Nat) : Nat :=
  ((s.regions.find? (fun e => e.2.drl.home == some r)).map (·.1)).getD r
/-- Whether region `r` serves its grid place: one that another substitutes for does not (R191). -/
def State.serves (s : State) (r : Nat) : Bool := s.physical (s.logical r) == r

/-- The endpoint code of port `i` of region `r` (R134). -/
def rportCode (r i : Nat) : Nat := 0x1000 + 8 * r + i

/-- The enabled queue that region `r` reads through input port `i`. -/
def State.inQueue (s : State) (r i : Nat) : Option Nat :=
  if s.serves r then s.queueOf 16 (rportCode (s.logical r) i) else none
/-- The enabled queue that region `r` feeds through output port `i`. -/
def State.outQueue (s : State) (r i : Nat) : Option Nat :=
  if s.serves r then s.queueOf 0 (rportCode (s.logical r) i) else none

/-- The region and border channel at the far side of spoke `i` of region `r` (R24, R25, R191): none beside the
grid, and where either region no longer serves its place, or serves another. -/
def State.farSide (s : State) (r i : Nat) : Option (Nat × Nat) :=
  match (if s.serves r then regionAcross (s.logical r) (i / 16) else none) with
  | none => none
  | some n =>
    let m := s.physical n
    if s.logical m = n then some (m, ((i / 16 + 2) % 4) * 16 + i % 16) else none

/-- Whether the spokes between regions `r` and `m` are tunnelled: one of them does not stand at its place
(R192). -/
def State.tunnelled (s : State) (r m : Nat) : Bool := s.logical r != r || s.logical m != m

/-- How many cycles of its own the receiver of a sample or credit between `r` and `m` still begins (R27); one that
is still in a tunnel stands at 4 (R192). -/
def State.spokeLeft (s : State) (r m : Nat) : Nat := if s.tunnelled r m then 4 else 3

/-- A sample leaving a queue register, with P set where its parity fails (R144). -/
def QSamp.out (x : QSamp) : Chan :=
  let n := ones x.c.v 20 + b2n x.c.e + b2n x.c.p + b2n x.par
  if n % 2 = 0 then x.c else { x.c with p := true }

/-- Whether a register's sample fails its parity check. -/
def QSamp.bad (x : QSamp) : Bool := (ones x.c.v 20 + b2n x.c.e + b2n x.c.p + b2n x.par) % 2 == 1

/-- A sample entering a queue register (R144). -/
def QSamp.ofChan (c : Chan) : QSamp :=
  { c := c, par := (ones c.v 20 + b2n c.e + b2n c.p) % 2 == 1 }

/-- What input port `i` of region `r` presents, if anything (R28, R136). -/
def State.portHead (s : State) (r i : Nat) : Option Chan :=
  match s.inQueue r i with
  | none => none
  | some q =>
    if mget 0 (s.region r).portVis i = 0 then none
    else (((s.queue q).head.drop (mget [] (s.region r).popWay i).length).head?).map QSamp.out

/-- How many samples border input `i` of region `r` holds readable (R26, R86, R136). -/
def State.readable (s : State) (r i : Nat) : Nat :=
  if i < 64 then (mget [] (s.region r).inFifo i).length
  else match s.inQueue r (i - 64) with
    | none => 0
    | some _ => mget 0 (s.region r).portVis (i - 64)

/-- How many credits or places border output `o` of region `r` has (R26, R86, R136, R181). -/
def State.space (s : State) (r o : Nat) : Nat :=
  if o < 64 then 8 - mget 0 (s.region r).credUsed o
  else match s.outQueue r (o - 64) with
    | none => 0
    | some _ =>
      if (mget {} (s.region r).ports (o - 64)).parkWait then 0
      else 16 - mget 0 (s.region r).credUsed o

/-- Samples and credits on their way move on as a region cycle of theirs begins, and arrive in the third one
(R27): `left` cycles are still to begin. What is still in a tunnel stands (R192). -/
def Region.borderTick (x : Region) : Region :=
  let x := ((x.inWay.map (·.1)).eraseDups).foldl (fun (x : Region) i =>
    let l := (mget [] x.inWay i).map (fun a => (if a.1 = 4 then 4 else a.1 - 1, a.2))
    { x with inWay := mset [] x.inWay i (l.filter (fun a => 0 < a.1)),
             inFifo := mupd [] x.inFifo i (· ++ (l.filter (fun a => a.1 = 0)).map (·.2)) }) x
  ((x.credWay.map (·.1)).eraseDups).foldl (fun (x : Region) o =>
    let l := (mget [] x.credWay o).map (fun a => if a = 4 then 4 else a - 1)
    { x with credWay := mset [] x.credWay o (l.filter (0 < ·)),
             credUsed := mupd 0 x.credUsed o (· - (l.filter (· = 0)).length) }) x

/-- The region cycles until each head sample at input port `i`, not yet readable, is: 3 where the engine has
made it available since the last cycle began (R28, R136). -/
def State.portLefts (s : State) (r i : Nat) : List Nat :=
  match s.inQueue r i with
  | none => []
  | some q =>
    let x := s.region r
    let l := mget [] x.visWay i
    let n := (s.queue q).head.length - (mget [] x.popWay i).length - mget 0 x.portVis i
    (l ++ List.replicate (n - l.length) 3).take n

/-- A region cycle of `r` begins at its border (R27, R28). -/
def State.borderTick (s : State) (r : Nat) : State :=
  let vis := (List.range 8).map (fun i => (i, (s.portLefts r i).map (· - 1)))
  s.onRegion r (fun x => vis.foldl (fun (x : Region) e =>
    { x with visWay := mset [] x.visWay e.1 (e.2.filter (0 < ·)),
             portVis := mupd 0 x.portVis e.1 (· + (e.2.filter (· = 0)).length) }) x.borderTick)

/-- A tile constant of the image (R19, R166). -/
def konstChan (v : Word32) : Chan :=
  { v := BitVec.ofNat 20 (fld v 0 20), e := v.getLsbD 20, p := v.getLsbD 21 }

/-- What border input `i` presents to its readers. -/
def State.borderHead (s : State) (r i : Nat) : Chan :=
  if i < 64 then (mget [] (s.region r).inFifo i).headD {} else (s.portHead r (i - 64)).getD {}

/-- What crossbar source `n` of tile `t` presents (R19). -/
def State.source (s : State) (r t n : Nat) : Chan :=
  let x := s.region r
  if n = 0 then {}
  else if n ≤ 12 then (mget {} x.fx (16 * t + fxPos (n - 1))).o0
  else if n ≤ 24 then (mget {} x.fx (16 * t + fxPos (n - 13))).o1
  else if n = 25 then konstChan (mget 0 x.active.konst (2 * t))
  else if n = 26 then (mget {} x.fp (16 * t + 6)).o0
  else if n = 27 then (mget {} x.fp (16 * t + 6)).o1
  else if n = 28 then (mget {} x.fp (16 * t + 9)).o0
  else if n = 29 then (mget {} x.fp (16 * t + 9)).o1
  else if n ≤ 32 then mget {} x.memOut (3 * (2 * t) + (n - 30))
  else if n = 33 then konstChan (mget 0 x.active.konst (2 * t + 1))
  else if n ≤ 36 then mget {} x.memOut (3 * (2 * t + 1) + (n - 34))
  else if 38 ≤ n ∧ n ≤ 53 then
    match tileAcross t ((n - 38) / 4) with
    | some u => mget {} x.spoke (16 * u + 4 * (((n - 38) / 4 + 2) % 4) + (n - 38) % 4)
    | none => s.borderHead r (borderIdx t ((n - 38) / 4) ((n - 38) % 4))
  else if n = 54 then
    match tilePort t with
    | some i => s.borderHead r (64 + i)
    | none => {}
  else if 56 ≤ n ∧ n ≤ 59 then (mget {} x.slots (4 * t + (n - 56))).presented
  else {}

/-- An FX or MEM operand (R23). -/
def State.fxOperand (s : State) (r cell : Nat) (w : BitVec 128) (sel : Nat) : Chan :=
  if sel ≤ 0x3F then s.source r (cell / 16) sel
  else if sel ≤ 0x47 then mget {} (mget {} (s.region r).fx cell).regs (sel - 0x40)
  else if sel = 0x48 then { v := BitVec.ofNat 20 (fld w 32 20) }
  else {}

/-- A pair lane put together (R17). -/
def pairOf (hi lo : Chan) : FpVal :=
  { v := BitVec.ofNat 32 (hi.v.toNat * 2 ^ 12 + lo.v.toNat / 2 ^ 8), e := hi.e || lo.e, p := hi.p || lo.p }

/-- A binary32 value taken apart (R17). -/
def FpVal.split (x : FpVal) : Chan × Chan :=
  ({ v := BitVec.ofNat 20 (fld x.v 12 20), e := x.e, p := x.p },
   { v := BitVec.ofNat 20 (fld x.v 0 12 * 2 ^ 8), e := x.e, p := x.p })

/-- An FP operand as a pair lane, a register or the immediate (R18, R23). -/
def State.fpOperand (s : State) (r cell : Nat) (w : BitVec 128) (sel : Nat) : FpVal :=
  if sel = 0 then {}
  else if sel ≤ 0x3F then pairOf (s.source r (cell / 16) sel) (s.source r (cell / 16) (sel + 1))
  else if sel ≤ 0x43 then mget {} (mget {} (s.region r).fp cell).regs (sel - 0x40)
  else if sel = 0x48 then { v := BitVec.ofNat 32 (fld w 32 32) }
  else {}

/-- Operand A of CVTFX: a single sample (R36). -/
def State.fpSample (s : State) (r cell : Nat) (w : BitVec 128) (sel : Nat) : Chan :=
  if sel ≤ 0x3F then s.source r (cell / 16) sel else (s.fpOperand r cell w sel).split.1

end Sys2Proof.Machine
end

