-- ==== Sys2Proof/Machine/MemCells.lean ====
section
/-! DEFINITION. MEM cells: address generators, port-0 accesses and phases, port 1, ownership
(R111 to R128). -/

namespace Sys2Proof.Machine

/-- BASE of a configuration record (R124). -/
def recBase (v : BitVec 64) : Nat := fld v 0 14
/-- LEN of a configuration record. -/
def recLen (v : BitVec 64) : Nat := fld v 16 14
/-- STRIDE of a configuration record. -/
def recStride (v : BitVec 64) : Int := sx 14 (fld v 32 14)

/-- An offset brought into a window (R125): `base + (d mod len)`. -/
def windowAt (base len : Nat) (d : Int) : Nat := base + (d % (len : Int)).toNat

/-- The staged configuration becomes active and the pointer folds (R127). -/
def AguChan.fold (x : AguChan) (v : BitVec 64) : AguChan :=
  { base := recBase v, len := recLen v, stride := recStride v,
    p := windowAt (recBase v) (recLen v) ((x.p : Int) - x.base) }

/-- The staged configuration becomes active and the pointer is set to BASE (R127). -/
def AguChan.restart (v : BitVec 64) : AguChan :=
  { base := recBase v, len := recLen v, stride := recStride v, p := recBase v }

/-- RLD (R125, R127). -/
def AguChan.reload (x : AguChan) (v : BitVec 64) : AguChan :=
  if bit v 48 then AguChan.restart v else x.fold v

/-- STEP (R125). -/
def AguChan.step (x : AguChan) : AguChan :=
  { x with p := windowAt x.base x.len ((x.p : Int) - x.base + x.stride) }

/-- The address of an access (R125). -/
def AguChan.addr (x : AguChan) (am : Nat) (d : Sample) : Nat :=
  match am with
  | 0 => x.p
  | 1 => windowAt x.base x.len ((x.p : Int) - x.base + d.toInt)
  | _ => d.toNat

/-- The channels with a record or an active configuration. -/
def Region.aguKeys (x : Region) : List Nat :=
  (x.active.agu.map (·.1)) ++ (x.agu.map (·.1)).filter (fun k => !(x.active.agu.any (fun e => e.1 == k)))

/-- Every channel takes its staged configuration by `f` (R127). -/
def Region.reloadAll (x : Region) (f : AguChan → BitVec 64 → AguChan) : Region :=
  { x with agu := x.aguKeys.foldl (fun m k => mset {} m k (f (mget {} x.agu k) (mget 0 x.active.agu k))) x.agu }

/-- Loop start: every pointer folds (R127). -/
def Region.loopStart (x : Region) : Region := x.reloadAll AguChan.fold

/-- Region enable: every pointer is set to BASE (R127). -/
def Region.aguEnable (x : Region) : Region := x.reloadAll (fun _ v => AguChan.restart v)

/-- What one enabled channel does in a cycle: the pointer state after it, the address, the kind of
access fault if refused (R126), and whether the address operand carried P. -/
structure ChanAct where
  agu : AguChan
  addr : Nat
  fault : Option Nat := none
  apois : Bool := false
deriving DecidableEq, Repr

/-- One channel's act under control byte `ctl` with address operand `d` (R125, R126). -/
def chanAct (x : AguChan) (v : BitVec 64) (ctl : Nat) (write : Bool) (d : Chan) : ChanAct :=
  let x := if ctl / 16 % 2 = 1 then x.reload v else x
  let am := ctl / 4 % 4
  let dp := am != 0 && d.p
  let passed := am == 2 && 12287 < d.v.toNat
  { agu := if ctl / 2 % 2 = 1 then x.step else x,
    addr := x.addr am d.v,
    fault := if passed then some (if dp then 3 else 2) else if write && dp then some 3 else none,
    apois := dp }

/-- MEM-cell index c of a cell 16t + p (R112). -/
def memIdx (cell : Nat) : Nat := 2 * (cell / 16) + (if cell % 16 = 10 then 1 else 0)

/-- The fabric write in flight that a new write to the same word merges from (R115). -/
def priorWrite (ws : List MemWr) (c w : Nat) : Option MemWr :=
  match ws.find? (fun x => x.cell = c ∧ x.word = w ∧ x.left = 3) with
  | some x => some x
  | none => ws.find? (fun x => x.cell = c ∧ x.word = w ∧ x.left = 2)

/-- The words that the banks serve of those wanted, in order of precedence: the first named of each
bank (R118). -/
def bankServes (want : List Nat) (w : Nat) : Bool :=
  match want.find? (fun x => x % 4 = w % 4) with
  | some x => x == w
  | none => true

/-- The accesses that the context word `w` of a MEM cell sets out, and the pointers after them. -/
def State.issueMem (s : State) (r cell : Nat) (w : BitVec 128) (x : Region) : Region × List MemHap :=
  if cOpc w ≠ 1 then (x, [])
  else
    let c := memIdx cell
    let chans := [3, 0, 1, 2].filter (fun ch => cChan w ch % 2 = 1)
    let acts := chans.map (fun ch =>
      (ch, chanAct (mget {} x.agu (4 * c + ch)) (mget 0 x.active.agu (4 * c + ch)) (cChan w ch) (ch = 3)
        (s.fxOperand r cell w (cSelX w ch))))
    let prior := fun (a : ChanAct) => priorWrite x.wrs c (a.addr / 12)
    let want := (acts.filter (fun a => a.2.fault.isNone && !(a.1 == 3 && (prior a.2).isSome))).map
      (fun a => a.2.addr / 12)
    let haps := acts.filterMap (fun a => a.2.fault.map (fun k =>
      ({ kind := k, cell := c, ch := a.1, word := a.2.addr / 12 } : MemHap)))
    let x := acts.foldl (fun x a => { x with agu := mset {} x.agu (4 * c + a.1) a.2.agu }) x
    let x := acts.foldl (fun (x : Region) a =>
      if a.1 = 3 then
        if a.2.fault.isSome then x
        else
          let d := s.fxOperand r cell w (fld w 7 7)
          let word := a.2.addr / 12
          let wr : MemWr := match prior a.2 with
            | some p => { cell := c, word := word, slot := a.2.addr % 12, data := d, cid := p.cid,
                          merges := true, chain := p.chain ++ [(p.slot, p.data.p)], ue := p.ue }
            | none => { cell := c, word := word, slot := a.2.addr % 12, data := d, cid := x.nextCid }
          { x with wrs := x.wrs ++ [wr], nextCid := x.nextCid + 1 }
      else
        let rd : MemRd := match a.2.fault with
          | some _ => { cell := c, ch := a.1, refused := true, data := { p := true } }
          | none =>
            let lost := !bankServes want (a.2.addr / 12)
            { cell := c, ch := a.1, word := a.2.addr / 12, slot := a.2.addr % 12, lost := lost,
              apois := a.2.apois, data := if lost then { p := true } else {} }
        { x with rds := x.rds ++ [rd] }) x
    (x, haps)

/-- The words whose port-0 read phase falls in this cycle, each once (R115, R118). -/
def Region.readPhases (x : Region) : List (Nat × Nat) :=
  (((x.rds.filter (fun a => a.left = 2 ∧ !a.refused ∧ !a.lost)).map (fun a => (a.cell, a.word))) ++
    ((x.wrs.filter (fun a => a.left = 3 ∧ !a.merges)).map (fun a => (a.cell, a.word)))).eraseDups

/-- One port-0 read phase: the checker's report, the samples it delivers, and the uncorrectable
mark of the chains it began (R113, R117). -/
def State.readPhase (s : State) (r : Nat) (cw : Nat × Nat) : State :=
  let (s, d) := s.cellRead r cw.1 cw.2 0
  s.onRegion r (fun x =>
    let began := (x.wrs.filter (fun a => a.left = 3 ∧ !a.merges ∧ (a.cell, a.word) = cw)).map (·.cid)
    { x with
      rds := x.rds.map (fun a =>
        if a.left = 2 ∧ !a.refused ∧ !a.lost ∧ (a.cell, a.word) = cw then
          { a with data := { lineChan d.data a.slot with p := (lineChan d.data a.slot).p || a.apois } }
        else a),
      wrs := x.wrs.map (fun a => if began.contains a.cid then { a with ue := d.ue } else a) })

/-- The slot and sample of a fabric write as a cover (R117). -/
def MemWr.own (a : MemWr) (k : Nat) : Option Chan := if k = a.slot then some a.data else none

/-- One port-0 write phase (R117). -/
def State.writePhase0 (s : State) (r : Nat) (a : MemWr) : State :=
  let addr := cellAddr r a.cell a.word
  s.putLine addr (mergeSlots (s.examine addr).raw a.ue a.own a.chain)

/-- The slots a port-1 write covers, for the collision rule (R119). -/
def P1Write.covers (a : P1Write) : BitVec 12 := a.slots ||| byteSlots a.bytes

/-- One port-1 write phase; a slot in `over` is covered by a port-0 write phase of the same bank
cycle, whose sample is stored instead (R119). -/
def State.writePhase1 (s : State) (r : Nat) (a : P1Write) (passed : List MemWr) : State :=
  let addr := cellAddr r a.cell a.word
  let old := (s.examine addr).raw
  if a.bytes = 0 then
    let own := fun k => if a.slots.getLsbD k then
        match passed.find? (fun o => o.slot = k) with
        | some o => some o.data
        | none => some (lineChan a.data k)
      else none
    s.putLine addr (mergeSlots old a.ue own [])
  else s.putLine addr (mergeBytes old a.ue a.bytes a.data)

/-- The write phases of one bank cycle on both ports, and the collisions among them (R119). -/
def State.writePhases (s : State) (r : Nat) (ws : List MemWr) (ps : List P1Write) : State × List MemHap :=
  let passed := fun (a : P1Write) => ws.filter (fun w => w.cell = a.cell ∧ w.word = a.word ∧ a.covers.getLsbD w.slot)
  let s := ps.foldl (fun s a => s.writePhase1 r a (passed a)) s
  let s := ws.foldl (fun s w => s.writePhase0 r w) s
  (s, (ps.filter (fun a => !(passed a).isEmpty)).map (fun a => { kind := 0, cell := a.cell, ch := 0, word := a.word }))

/-- Port 1 moves on by one bank cycle: the writes still due, and those whose write phase falls in it. -/
def Region.portOneTick (x : Region) : Region × List P1Write :=
  ({ x with p1 := (x.p1.filter (fun a => 1 < a.left)).map (fun a => { a with left := a.left - 1 }),
            p1Busy := x.p1Busy.foldl (fun m e => mset 0 m e.1 (e.2 - 1)) x.p1Busy },
   x.p1.filter (fun a => a.left ≤ 1))

/-- The read phases of the port-1 writes that start in this bank cycle (R116). -/
def State.portOneReads (s : State) (r : Nat) : State :=
  ((s.region r).p1.filter (fun a => a.reads && a.left == 3)).foldl (fun s a =>
    let (s, d) := s.cellRead r a.cell a.word 1
    s.onRegion r (fun x => { x with p1 := x.p1.map (fun b => if b = a then { b with ue := d.ue, reads := false } else b) })) s

/-- The line-code registers of scrubber `u`: 0 to 3 of the planes, 4 to 7 of the DRAM channels (R326). -/
def scrReg (u : Nat) : Nat := if u < 4 then planeBase u + 0xD000 else dramBase (u - 4) + 0x8000
/-- The first line-code source of scrubber `u` (R327). -/
def scrSource (u : Nat) : Nat := if u < 4 then 1027 + 64 * u else 1344 + 16 * (u - 4)

/-- A visit's log entry: those of uncorrectable words reach the logbook (R322, R323). -/
def State.scrubLog (s : State) (u : Nat) (k : LogKind) (a : Nat) (syn : BitVec 19) : State :=
  match k with
  | .ueScrub | .ueDrop | .guard => s.logGrave (scrReg u) (scrSource u) k 2 a syn
  | _ => s.logLine (scrReg u) (scrSource u) k 2 a syn

/-- What a scrub visit reports of a word and rewrites it with; none where it writes nothing (R322, R323). -/
def WordRead.scrubs (x : WordRead) : Option (LogKind × Line × BitVec 19) :=
  if x.ue then some (.ueScrub, x.data, x.syn)
  else if x.ce then some (.ceScrub, x.data, x.syn)
  else if x.flagBad then some (.flag, x.data, x.syn)
  else none

/-- The read phases of the scrub visits that start in this bank cycle: a visit that finds nothing is over
(R322). -/
def State.scrubReads (s : State) (r : Nat) : State :=
  s.onRegion r (fun x => { x with fixes := x.fixes.filterMap (fun f =>
    if f.left = 3 then
      match (s.examine (cellAddr r f.cell f.word)).scrubs with
      | some k => some { f with found := some k }
      | none => none
    else some f) })

/-- A scrub visit's rewrite, unless a write phase crossed it, and its report (R322, R323). -/
def State.scrubRewrite (s : State) (r : Nat) (f : ScrubFix) : State :=
  let a := cellAddr r f.cell f.word
  match f.found with
  | none => s
  | some (k, d, syn) =>
    let s := if f.crossed then s else s.putLine a d
    s.scrubLog (planeOf r) (if f.crossed && k == .ueScrub then .ueDrop else k) a syn

/-- The scrub visits after the write phases of a bank cycle, to the words `ws` (R322): those crossed are marked,
those due rewrite, the others come one cycle nearer. -/
def State.scrubPhases (s : State) (r : Nat) (ws : List (Nat × Nat)) : State :=
  let l := (s.region r).fixes.map (fun f => { f with crossed := f.crossed || (f.left ≤ 3 && ws.contains (f.cell, f.word)) })
  let s := s.onRegion r (fun x => { x with fixes := (l.filter (fun f => 1 < f.left)).map (fun f => { f with left := f.left - 1 }) })
  (l.filter (fun f => f.left ≤ 1)).foldl (fun s f => s.scrubRewrite r f) s

/-- A bank cycle of region `r` in which port 0 performs nothing (R114): port 1 moves on. -/
def State.portOneCycle (s : State) (r : Nat) : State :=
  let s := (s.portOneReads r).scrubReads r
  let x := (s.region r).portOneTick
  ((s.setRegion r x.1).writePhases r [] x.2).1.scrubPhases r (x.2.map (fun a => (a.cell, a.word)))

/-- Whether a partial write's write phase falls `u` bank cycles from now in the bank of a word. -/
def Region.partialAt (x : Region) (c w u : Nat) : Bool :=
  x.p1.any (fun a => a.cell == c && a.word % 4 == w % 4 && a.left == u + 1 && (a.slots != 0xFFF#12 || a.bytes != 0))

/-- The bank cycle, from now, in which port 1 starts a new access of a word's bank: one access a bank cycle,
and no full write where a partial write's write phase falls (R116). -/
def Region.portOneStart (x : Region) (c w : Nat) (full : Bool) : Nat :=
  let u := mget 0 x.p1Busy (4 * c + w % 4)
  if full && x.partialAt c w u then (if x.partialAt c w (u + 1) then u + 2 else u + 1) else u

/-- Port 1 of a word's bank is taken up to, and in, bank cycle `u` from now. -/
def Region.portOneTake (x : Region) (c w u : Nat) : Region :=
  { x with p1Busy := mset 0 x.p1Busy (4 * c + w % 4) (u + 1) }

/-- A word as it stands once the port-1 writes of it that started earlier have been performed (R287). -/
def State.portOneAhead (s : State) (r c w : Nat) : WordRead :=
  ((((s.region r).p1.filter (fun a => a.cell == c && a.word == w)).foldl (fun s a =>
    s.writePhase1 r (if a.reads then { a with ue := (s.examine (cellAddr r c w)).ue } else a) []) s)).examine (cellAddr r c w)

/-- A port-1 read of a word (R116), behind the writes of it that started earlier (R287). -/
def State.portOneRead (s : State) (r c w : Nat) : State × WordRead :=
  let t := s.onRegion r (fun x => x.portOneTake c w (x.portOneStart c w false))
  if (s.region r).p1.any (fun a => a.cell == c && a.word == w) then (t, s.portOneAhead r c w) else t.cellRead r c w 1

/-- A port-1 write (R116): covering all 12 slots, its write phase falls in the bank cycle in which it starts;
otherwise its read phase does, and its write phase comes two bank cycles later. -/
def State.portOneWrite (s : State) (r c w : Nat) (slots : BitVec 12) (bytes : BitVec 32) (d : Line) : State :=
  if slots = 0 ∧ bytes = 0 then s
  else
    let full := decide (slots = 0xFFF#12)
    let u := (s.region r).portOneStart c w full
    let a : P1Write := { cell := c, word := w, slots := slots, bytes := if full then 0 else bytes, data := d,
                         left := if full then u + 1 else u + 3, reads := !full }
    s.onRegion r (fun x => { x.portOneTake c w u with p1 := x.p1 ++ [a] })

/-- The MEMCTL register of cell `c` of region `r` (R129). -/
def memctl (r c : Nat) : Nat := planeBase (planeOf r) + 0xC000 + 4 * (32 * planeIdx r + c)

/-- OWNER of a cell: 0 FABRIC, 1 NOC, 2 QUEUE (R120). -/
def State.owner (s : State) (r c : Nat) : Nat := s.rf (memctl r c) 0 2

/-- Whether bank `b` of a cell is under destructive test (R122). -/
def State.destructive (s : State) (r c b : Nat) : Bool := s.rb (memctl r c) (12 + b) && s.rb (memctl r c) 16

/-- Whether the owner state lets master `m` make an access on port 1 (R120, R122). -/
def State.portOneAllows (s : State) (m : Master) (r c w : Nat) (write : Bool) : Bool :=
  if s.destructive r c (w % 4) then false
  else
    let noc := s.rf (memctl r c) 2 2
    match s.owner r c, m with
    | 2, .engine p => p.val == planeOf r
    | 2, .puppeteer => !write
    | 2, .loader => !write
    | 2, _ => false
    | _, .puppeteer => true
    | _, .loader => true
    | _, .engine _ => false
    | _, _ => if write then noc == 2 else noc == 1 || noc == 2

end Sys2Proof.Machine
end

