-- ==== Sys2Proof/Machine/Pins.lean ====
section
/-! DEFINITION. Machine I/O pins: ownership, pads, slot functions, the input and output stages
(R43, R180, R182, R316, R359 to R372, R505). -/

namespace Sys2Proof.Machine

/-- The machine I/O block (R386). -/
def mioBase : Nat := 0x800000

/-- The regions that reach each bank, in the order of R359. -/
def bankRegions (b : Nat) : List Nat :=
  [[0, 15, 56], [1, 23, 57], [2, 31, 48, 58], [3, 39, 40, 59], [4, 47, 32, 60], [5, 55, 24, 61],
   [6, 16, 62], [7, 8, 63]].getD b []

/-- The bank that region `r` reaches and its index there (R359). -/
def regionBank (r : Nat) : Option (Nat × Nat) :=
  (List.range 8).findSome? (fun b => ((bankRegions b).findIdx? (· == r)).map (fun i => (b, i)))

/-- MIO_PINP of pin `p`. -/
def pinReg (p : Nat) : Nat := mioBase + 0x1000 + 4 * p

/-- OWN of pin `p` (R360). -/
def State.pinOwn (s : State) (p : Nat) : Nat := s.rf (pinReg p) 0 4

/-- The pin behind slot `k` of region `r`, where the region owns it (R359, R360). -/
def State.slotPin (s : State) (r k : Nat) : Option Nat :=
  match regionBank r with
  | none => none
  | some (b, i) => if s.pinOwn (64 * b + k) = 1 + i then some (64 * b + k) else none

/-- The region that owns pin `p`, where one does (R360). -/
def State.pinRegion (s : State) (p : Nat) : Option Nat :=
  let o := s.pinOwn p
  if 1 ≤ o ∧ o ≤ 4 then (bankRegions (p / 64))[o - 1]? else none

/-- The function word and park sample of slot `k` in a half (R166, R362). -/
def Half.slot (h : Half) (k : Nat) : BitVec 64 := mget 0 h.slotRec k
/-- FUNC. -/
def slotFunc (v : BitVec 64) : Nat := fld v 32 4
/-- FILT. -/
def slotFilt (v : BitVec 64) : Nat := fld v 36 3
/-- INV. -/
def slotInv (v : BitVec 64) : Bool := bit v 39
/-- Field of PARAM, numbered as in the function word (R362). -/
def slotParam (v : BitVec 64) (lo len : Nat) : Nat := fld v (32 + lo) len
/-- The functions that present an input (R362). -/
def isInputFunc (f : Nat) : Bool := [0x1, 0x5, 0x6, 0x7, 0x8, 0xA].contains f
/-- The functions that drive an output (R362). -/
def isOutputFunc (f : Nat) : Bool := [0x2, 0x3, 0x4, 0x9].contains f

/-- What an output slot drives for a sample's level and high-impedance bits. -/
def driveOf (level hiz : Bool) : Option Bool := if hiz then none else some level

/-- The region clock of `r` at machine time `t`, in eighths of a region cycle: 12 in a ns at 1.5 GHz, 10 at
1.25 GHz (R202, R363). -/
def State.gridEighths (s : State) (r : Nat) : Nat := (if s.rb (regionBase r + 0x200) 1 then 10 else 12) * s.now

/-- The grid number G of the region cycle in progress (R363). -/
def State.grid (s : State) (r : Nat) : Nat := s.gridEighths r / 8

/-- The level of a PWM slot's carrier at a position in eighths of a cycle: high from C before each centre to C
behind it (R366). -/
def pwmHigh (half c pos : Nat) : Bool :=
  let m := pos % (16 * half)
  decide (m < c) || decide (16 * half ≤ m + c)

/-- The level of an SSICLK slot `d` grid cycles after its frame's start (R369). -/
def ssiHigh (div n d : Nat) : Bool := decide (div * n ≤ d) || decide (div / 2 ≤ d % div)

/-- What the generator of slot `k` drives, its phase taken from the grid (R363 to R369). -/
def State.genLevel (s : State) (r : Nat) (v : BitVec 64) (y : SlotState) : Bool :=
  let g := s.grid r
  xor (slotInv v) (match slotFunc v with
    | 0x3 => pwmHigh (slotParam v 8 20) y.pwmLoaded.v.toNat (s.gridEighths r)
    | 0x4 => y.clkOn && decide (g % slotParam v 8 8 < (slotParam v 8 8 + 1) / 2)
    | _ => y.frames == 0 || decide (g < y.ssiFrom) || ssiHigh (slotParam v 8 8) (slotParam v 16 5 + 1) (g - y.ssiFrom))

/-- What slot `k` of region `r` drives. -/
def State.slotDrive (s : State) (r k : Nat) : Option Bool :=
  let x := s.region r
  let y := mget {} x.slots k
  if y.gen then some (s.genLevel r (x.active.slot k) y) else y.drive

/-- What the owner of pin `p` drives: a region's output stage, the software I/O block or the time-stamp unit,
while MIO_CTRL.EN is 1 (R360, R371). -/
def State.ownerDrive (s : State) (p : Nat) : Option Bool :=
  if (s.rb mioBase 0 && s.booted) = false then none
  else match s.pinRegion p with
    | some r => s.slotDrive r (p % 64)
    | none =>
      if s.pinOwn p = 8 then
        if s.rb (mioBase + 0x2040 + 4 * (p / 32)) (p % 32) then some (s.rb (mioBase + 0x2000 + 4 * (p / 32)) (p % 32))
        else none
      else if s.pinOwn p = 9 then mget none s.tsuDrive p
      else none

/-- What the part itself drives on pin `p`: the complement of the true side on the odd pin of an LVDS pair
(R361). -/
def State.padDrive (s : State) (p : Nat) : Option Bool :=
  if p % 2 = 1 ∧ s.rf (pinReg p) 4 2 = 1 then (s.ownerDrive (p - 1)).map (!·) else s.ownerDrive p

/-- The level at pad `p` (R505). -/
def State.padLevel (s : State) (p : Nat) : Bool :=
  match (mget {} s.pads p).ext, s.padDrive p with
  | some a, some b => if a = b then a else Config.padFight p s.fresh
  | some a, none => a
  | none, some b => b
  | none, none =>
    match s.rf (pinReg p) 8 2 with
    | 1 => true
    | 2 => false
    | 3 => (mget {} s.pads p).keep.getD (Config.padOpen p s.fresh)
    | _ => Config.padOpen p s.fresh

/-- The keeper of pad `p` takes the level now at the pad (R505). -/
def State.keepOne (s : State) (p : Nat) : State :=
  match (mget {} s.pads p).ext, s.padDrive p with
  | none, none => s
  | _, _ => { s with pads := mupd {} s.pads p (fun x => { x with keep := some (s.padLevel p) }) }

/-- The keepers of pad `p` and of its complement take the levels now at their pads (R361, R505). -/
def State.keepPad (s : State) (p : Nat) : State := (s.keepOne p).keepOne (p ||| 1)

/-- A QERR (R368). -/
def State.qerr (s : State) (r k : Nat) : State :=
  let p := (s.slotPin r k).getD 0
  let s := s.count (mioBase + 0x10)
  let s := s.setRg (mioBase + 0xC) (BitVec.ofNat 32 (2 ^ 31 + p))
  s.event (mioBase + 8) 0 16 1480

/-- The x4 step from (a, b) to (a', b'): +1 where A leads B, -1 where B leads A (R368). -/
def quadUp (a b a' b' : Bool) : Bool := if a = a' then b' != a' else a' != b

/-- The levels that fall due in one region cycle at quadrature slots `k`, `k + 1` and `k + 2`
(R368). -/
def State.quadTake (s : State) (r k : Nat) (due : List PinCapture) : State :=
  let x := s.region r
  let newOf := fun i : Nat => match due.find? (fun d => d.slot = k + i) with
    | some d => d.level
    | none => (mget {} x.slots (k + i)).level
  let a := (mget {} x.slots k).level
  let b := (mget {} x.slots (k + 1)).level
  let z := (mget {} x.slots (k + 2)).level
  let a' := newOf 0
  let b' := newOf 1
  let z' := newOf 2
  let bad := a != a' && b != b'
  let y := mget {} x.slots k
  let moved := !bad && (a != a' || b != b')
  let up := quadUp a b a' b'
  let cnt := if moved then (if up then y.count + 1 else y.count - 1) else y.count
  let dir := if moved then up else y.dir
  let hasZ := slotFunc (x.active.slot (k + 2)) == 0x8
  let y := { y with level := a', count := cnt, dir := dir, presented := { v := cnt } }
  let sl := mset {} x.slots k y
  let sl := mupd {} sl (k + 1) (fun q => { q with level := b', presented := { v := BitVec.ofNat 20 (b2n a' + 2 * b2n b' + 4 * b2n dir) } })
  let sl := if hasZ then mupd {} sl (k + 2) (fun q =>
      let zl := if z' && !z then cnt else q.zLatch
      { q with level := z', zLatch := zl, presented := { v := zl } }) else sl
  let s := s.setRegion r { x with slots := sl }
  if bad then s.qerr r k else s

/-- A level falls due at a slot that is no quadrature slot (R362, R367). -/
def State.levelTake (s : State) (r : Nat) (d : PinCapture) : State :=
  s.onRegion r (fun x => { x with slots := mupd {} x.slots d.slot (fun y =>
    { y with level := d.level, presented := { v := if d.level then 1 else 0 } }) })

/-- The first slot of the quadrature group that slot `k` belongs to (R368). -/
def quadGroup (h : Half) (k : Nat) : Option Nat :=
  match slotFunc (h.slot k) with
  | 0x6 => some k
  | 0x7 => some (k - 1)
  | 0x8 => some (k - 2)
  | _ => none

/-- The captures that fall due in one region cycle. -/
def State.takeCaptures (s : State) (r : Nat) (due : List PinCapture) : State :=
  let h := (s.region r).active
  let groups := (due.filterMap (fun d => quadGroup h d.slot)).eraseDups
  let s := groups.foldl (fun s k => s.quadTake r k due) s
  (due.filter (fun d => (quadGroup h d.slot).isNone)).foldl (fun s d => s.levelTake r d) s

/-- A PWM slot at grid cycle `g`: at a load point that has come since the last one, it takes the compare value
last routed; a poisoned one keeps the park sample `park` (R364, R366). -/
def SlotState.pwmTake (y : SlotState) (half g : Nat) (park : Option Bool) : SlotState :=
  if g / half ≤ y.seen / half then y
  else match y.pwmRouted with
    | none => { y with seen := g }
    | some c => { y with seen := g, pwmLoaded := c, gen := !c.p, parked := c.p, drive := if c.p then park else y.drive }

/-- A compare value reaches a PWM slot at grid cycle `g`: load points before it take the one routed before, a load
point at it takes this one (R366). -/
def SlotState.pwmArrives (y : SlotState) (half g : Nat) (park : Option Bool) (c : Chan) : SlotState :=
  let y := { y.pwmTake half (g - 1) park with pwmRouted := some c }
  { y.pwmTake half g park with seen := g }

/-- Whether an SSICLK slot is busy at grid cycle `g`: from its frame's start, 8 cycles before the pad falls,
until 16 × MONO cycles after the last rising edge (R369). -/
def SlotState.ssiBusy (y : SlotState) (v : BitVec 64) (g : Nat) : Bool :=
  y.frames != 0 &&
    decide (g < y.ssiFrom + slotParam v 16 5 * slotParam v 8 8 + slotParam v 8 8 / 2 + 16 * slotParam v 24 8)

/-- Who drives after a sample reached a generator: the generator, or for a poisoned one the park sample
(R364). -/
def PinStage.driven (g : PinStage) (y : SlotState) (park : Option Bool) : SlotState :=
  { y with gen := !g.c.p, parked := g.c.p, drive := if g.c.p then park else y.drive }

/-- A sample leaves the output stage of slot `k` (R43, R316, R362 to R369). -/
def State.stageOut (s : State) (r : Nat) (g : PinStage) : State :=
  let x := s.region r
  let v := x.active.slot g.slot
  let parkLevel := driveOf (bit v 0) (bit v 4)
  let lvl := driveOf (xor (g.c.v.getLsbD 0) (slotInv v)) (g.c.v.getLsbD 4)
  let now := s.grid r
  let f := fun y : SlotState =>
    if g.park then { y with drive := driveOf (g.c.v.getLsbD 0) (g.c.v.getLsbD 4), parked := true, gen := false, pwmRouted := none }
    else match slotFunc v with
      | 0x2 => { y with drive := if g.c.p then parkLevel else lvl, parked := false }
      | 0x3 => y.pwmArrives (slotParam v 8 20) now parkLevel g.c
      | 0x4 => { g.driven y parkLevel with
          clkOn := g.c.v.getLsbD 0
          seen := if g.c.v.getLsbD 0 && !y.clkOn then now else y.seen }
      | 0x9 => g.driven y parkLevel
      | _ => y
  let s := s.setRegion r { x with slots := mupd {} x.slots g.slot f }
  match s.slotPin r g.slot with
  | some p => s.keepPad p
  | none => s

/-- A sample routed to a pin-slot output enters the output stage; a start routed to an idle SSICLK
slot begins its frame: the pad falls 8 grid cycles later (R43, R369). -/
def Region.routePin (x : Region) (k : Nat) (c : Chan) (g : Nat) : Region :=
  let v := x.active.slot k
  { x with
    pinOut := x.pinOut ++ [{ slot := k, c := c }],
    slots := mupd {} x.slots k (fun y =>
      let starts := slotFunc v == 0x9 && c.v.getLsbD 0 && !c.p && !y.ssiBusy v g
      { y with routed := c, ssiFrom := if starts then g + 8 else y.ssiFrom, frames := if starts then y.frames + 1 else y.frames }) }

/-- The slots whose function drives an output, and their park samples (R362, R364). -/
def Half.parks (h : Half) : List (Nat × BitVec 20) :=
  (h.slotRec.filter (fun e => isOutputFunc (slotFunc e.2))).map (fun e => (e.1, BitVec.ofNat 20 (fld e.2 0 20)))

/-- The park samples of the active half enter the output stages of the slots, owned or not: what a pad
drives is read through its owner (R180, R360). -/
def State.parkPins (s : State) (r : Nat) : State :=
  s.onRegion r (fun x => { x with
    pinOut := x.pinOut ++ x.active.parks.map (fun e => { slot := e.1, c := { v := e.2 }, park := true }) })

/-- The output stages of a region that has long been in kickstand state hold the park samples of its
active half (R180, R360). -/
def State.parkedAll (s : State) (r : Nat) : State :=
  s.onRegion r (fun x => { x with
    slots := x.active.parks.foldl (fun m e => mupd {} m e.1 (fun y =>
      { y with drive := driveOf (e.2.getLsbD 0) (e.2.getLsbD 4), parked := true, gen := false, pwmRouted := none })) x.slots })

/-- The pins of a region whose clock stops: they drive the park samples, and nothing is left in their stages
(R215). -/
def State.pinsRest (s : State) (r : Nat) : State :=
  let s := (s.onRegion r (fun x => { x with pinOut := [], pinWay := [] })).parkedAll r
  (s.region r).active.parks.foldl (fun s e => match s.slotPin r e.1 with
    | some p => s.keepPad p
    | none => s) s

/-- The level that the input stage of slot `k` took last (R43). -/
def Region.lastCapture (x : Region) (k : Nat) : Bool :=
  match (x.pinWay.filter (fun a => a.slot == k)).getLast? with
  | some a => a.level
  | none => (mget {} x.slots k).level

/-- The functions that capture every level at their pads (R362, R365, R368). -/
def capturesLevels (f : Nat) : Bool := [0x1, 0x6, 0x7, 0x8].contains f

/-- An edge to `level` at a pin enters the input stage of the slot that owns it, where its function captures
levels (R43, R365, R368): a level not stable for FILT + 1 cycles is dropped. -/
def State.captureEdge (s : State) (p : Nat) (level late : Bool) : State :=
  match s.pinRegion p with
  | none => s
  | some r =>
    let k := p % 64
    let v := (s.region r).active.slot k
    let f := slotFunc v
    let n := (if f = 0x1 then 4 else 6) + slotFilt v + b2n late
    if capturesLevels f then
      let lvl := xor level (slotInv v)
      let stable := fun a : PinCapture => !(a.slot == k && slotFilt v != 0 && a.age ≤ slotFilt v)
      let new : PinCapture := { slot := k, left := n, level := lvl }
      s.onRegion r (fun x => { x with pinWay := x.pinWay.filter stable ++ [new] })
    else s

/-- The input stages of region `r` take the levels at their pads that came about without an edge of
PIN_EDGE: a pull, an enable, a change of owner (R43, R505). -/
def State.sampleInputs (s : State) (r : Nat) : State :=
  (s.region r).active.slotRec.foldl (fun s e =>
    match s.slotPin r e.1 with
    | none => s
    | some p =>
      let level := s.padLevel p
      if capturesLevels (slotFunc e.2) && (xor level (slotInv e.2)) != (s.region r).lastCapture e.1 then
        ({ s with fresh := s.fresh + 1 } : State).captureEdge p level (Config.edgeLate s.fresh)
      else s) s

/-- The pin stages move on by one region cycle, stalled or not (R43). -/
def State.pinTick (s : State) (r : Nat) : State :=
  let s := s.sampleInputs r
  let x := s.region r
  let due := x.pinWay.filter (fun a => a.left ≤ 1)
  let out := x.pinOut.filter (fun a => a.left ≤ 1)
  let s := s.setRegion r { x with
    pinWay := (x.pinWay.filter (fun a => 1 < a.left)).map (fun a => { a with left := a.left - 1, age := a.age + 1 }),
    pinOut := (x.pinOut.filter (fun a => 1 < a.left)).map (fun a => { a with left := a.left - 1 }),
    cycles := x.cycles + 1 }
  let s := s.takeCaptures r due
  out.foldl (fun s g => s.stageOut r g) s

/-- A step of machine time moves the grid: a load point or capture it passes over does not take place
(R363, log 41). -/
def State.gridMoved (s : State) : State :=
  let g := s.grid
  { s with regions := s.regions.map (fun e =>
      (e.1, { e.2 with slots := e.2.slots.foldl (fun m y => mset {} m y.1 { y.2 with seen := g e.1 }) e.2.slots })) }

end Sys2Proof.Machine
end

