-- ==== Sys2Proof/Machine/Checks.lean ====
section
/-! DEFINITION. The checks of a region's configuration: contexts, sequence, address generators, pin
slots, clock and ownership (R8, R50, R102, R128, R194, R203, R313, R370, R462). -/

namespace Sys2Proof.Machine

/-- Crossbar source numbers that R19 reserves. -/
def reservedSource (n : Nat) : Bool := n == 37 || n == 55 || 60 ≤ n

/-- A selector whose value R23 reserves for its kind of cell. -/
def reservedSel (k : CellKind) (n : Nat) : Bool :=
  if n ≤ 0x3F then reservedSource n
  else match k with
    | .fx => 0x48 < n
    | .fp => !(n ≤ 0x43 || n == 0x48)
    | .mem => true

/-- Every selector field of a context word. -/
def selFields (k : CellKind) (w : BitVec 128) : List Nat :=
  match k with
  | .mem => [fld w 7 7, fld w 14 7, fld w 21 7, fld w 28 7, fld w 35 7]
  | _ => [fld w 7 7, fld w 14 7, fld w 21 7]

/-- Whether a reserved field of a context word is nonzero (R33, R35, R37). -/
def reservedBits (k : CellKind) (w : BitVec 128) : Bool :=
  match k with
  | .fx => fld w 87 41 != 0 || bit w 31
  | .fp => fld w 93 35 != 0 || bit w 68 || bit w 31
  | .mem => fld w 92 36 != 0 || bit w 47 || (List.range 4).any (fun ch => cChan w ch / 32 != 0)

/-- Crossbar sources that a context uses: through operand fields read, or through its routes. -/
def usedSources (k : CellKind) (w : BitVec 128) : List Nat :=
  (operandsRead k w).flatMap Operand.sources ++ [cRts k w, cRtx k w].filter (· != 0)

/-- Whether region `r` (by its grid place) has no neighbour at side `e`. -/
def offGrid (r e : Nat) : Bool := (regionAcross r e).isNone

/-- The codes of R50 and the direction rule of R370 that one context word of region `r` meets. -/
def State.contextCodes (s : State) (r : Nat) (y : Half) (cell : Nat) (w : BitVec 128) : List Nat :=
  let t := cell / 16
  let p := cell % 16
  let k := kindAt p
  let opc := cOpc w
  let used := usedSources k w
  let g := s.logical r
  let badOpc := match k with
    | .fx => !fxOpcodes.contains opc
    | .fp => !fpOpcodes.contains opc
    | .mem => 1 < opc
  let badField := reservedBits k w || (selFields k w).any (reservedSel k) ||
    reservedSource (cRts k w) || reservedSource (cRtx k w) ||
    (k != .mem && cPred w == 3) || (k == .fx && fld w 61 2 == 3) ||
    (k == .mem && (List.range 4).any (fun ch => cChan w ch / 4 % 4 == 3)) || (5 ≤ p && cRtx k w != 0)
  let noPort := (tilePort t).isNone && (used.contains 54 || (p == 4 && cRtx k w != 0))
  let spokeOff := used.any (fun n => 38 ≤ n && n ≤ 53 && (tileAcross t ((n - 38) / 4)).isNone && offGrid g ((n - 38) / 4)) ||
    (cRts k w != 0 && (tileAcross t (p / 4)).isNone && offGrid g (p / 4))
  let pinsRead := (used.filter (fun n => 56 ≤ n ∧ n ≤ 59)).map (fun n => 4 * t + (n - 56))
  let pinsDriven := if p < 4 ∧ cRtx k w ≠ 0 then [4 * t + p] else []
  let noPin := (pinsRead ++ pinsDriven).any (fun i => (s.slotPin r i).isNone)
  let loop := p < 4 && 56 ≤ cRtx k w && cRtx k w ≤ 59
  let badPair := (operandsRead k w).any (fun o => o.pair && o.sel ≤ 0x3F && o.sel != 0 &&
    (o.sel % 2 == 1 || [o.sel, o.sel + 1].any (fun n => reservedSource n || n == 54)))
  let range := (k == .fx && 28 < fld w 54 6) || (k == .fp && 19 < fld w 87 5)
  let dead := k == .fx && 0x20 ≤ opc && opc ≤ 0x23 && (bit w 66 || bit w 67 || bit w 68 || cFlg w != 0)
  let dir := pinsDriven.any (fun i => !isOutputFunc (slotFunc (y.slot i))) ||
    pinsRead.any (fun i => !isInputFunc (slotFunc (y.slot i)))
  codeIf badOpc 0x0110 ++ codeIf badField 0x0111 ++ codeIf noPort 0x0112 ++ codeIf spokeOff 0x0113 ++
  codeIf noPin 0x0114 ++ codeIf loop 0x0115 ++ codeIf badPair 0x0116 ++ codeIf range 0x0117 ++
  codeIf dead 0x0118 ++ codeIf dir 0x0162

/-- Codes of R50 and R370 (direction) over a half. -/
def State.contextsCheck (s : State) (r : Nat) (y : Half) : List Nat :=
  y.ctx.flatMap (fun e => s.contextCodes r y (e.1 / 16) e.2)

/-- The bits an instruction may hold, by opcode (R75). -/
def seqMask (op : Nat) : Nat :=
  match op with
  | 0 => 0
  | 1 => 0x0F00_0000_FFFF
  | 2 => 0x0FC0_FF01_FFFF
  | 3 => 0x0FFF_FF07_0000
  | 4 => 0x0080_FFF0_FFFF
  | 5 => 0x0080_0000_0000
  | 6 => 0x0F00_FF00_0000
  | 7 => 0x0F00_0000_007F
  | 8 => 0x0F00_0000_0001
  | _ => 0

/-- Opcode of a sequence instruction (R74). -/
def iOp (v : BitVec 48) : Nat := fld v 44 4
/-- Context index. -/
def iCtx (v : BitVec 48) : Nat := fld v 40 4

/-- The REPEAT instructions of a half: address and END. -/
def Half.repeats (y : Half) : List (Nat × Nat) :=
  (y.seq.filter (fun e => iOp e.2 = 2)).map (fun e => (e.1, fld e.2 24 8))

/-- The instruction at an address (R72, R73). -/
def Half.instr (y : Half) (a : Nat) : BitVec 48 := mget 0 y.seq a

/-- The codes of R102 that one instruction meets in a half of a region at grid place `g`. -/
def seqCodes (g : Nat) (y : Half) (a : Nat) (v : BitVec 48) : List Nat :=
  let op := iOp v
  let reps := y.repeats
  let resv := 8 < op || (v.toNat % 2 ^ 44) &&& ((2 ^ 44 - 1) ^^^ seqMask op) != 0 ||
    (op == 2 && 65536 < fld v 0 17) ||
    (op == 3 && (0x1B ≤ fld v 32 5 || 4 < fld v 16 3 || (bit v 39 && fld v 24 8 != 0)))
  let badEnd := op == 2 && fld v 24 8 ≤ a
  let inBody := fun b : Nat => reps.filter (fun x => x.1 < b && b ≤ x.2)
  let nest := op == 2 && ((inBody a).any (fun x => x.2 < fld v 24 8) || 4 < (inBody a).length + 1)
  let delay := op == 3 && (a == 255 || iOp (y.instr (a + 1)) != 1 ||
    reps.any (fun x => x.2 == a || x.2 == a + 1))
  let shiftIn := op == 6 && !(inBody a).isEmpty
  let sel := fld v 24 8
  let waitSel := op == 4 && (0x90 ≤ sel || (0x10 ≤ sel &&
    (offGrid g ((if sel < 0x50 then sel - 0x10 else sel - 0x50) / 16) || 7 < fld v 20 4)))
  codeIf resv 0x0120 ++ codeIf badEnd 0x0121 ++ codeIf nest 0x0122 ++ codeIf delay 0x0123 ++
  codeIf shiftIn 0x0124 ++ codeIf waitSel 0x0125

/-- Codes of R102 over a half. -/
def State.seqCheck (s : State) (r : Nat) (y : Half) : List Nat :=
  y.seq.flatMap (fun e => seqCodes (s.logical r) y e.1 e.2)

/-- ENTRY_BAD of R194: the SHIFT instructions of `old` against the half `new` they enter. -/
def entryCheck (old new : Half) : List Nat :=
  codeIf ((old.seq.filter (fun e => iOp e.2 = 6)).any (fun e =>
    let n := fld e.2 24 8
    (n != 0 && iOp (new.instr (n - 1)) == 3) || (n == 255 && iOp (new.instr 255) != 0))) 0x0130

/-- The codes of R128 that one address-generator record meets. -/
def aguCodes (v : BitVec 64) : List Nat :=
  codeIf (recLen v == 0) 0x0201 ++
  codeIf (12287 < recBase v || 12288 < recBase v + recLen v) 0x0202 ++
  codeIf (fld v 49 15 != 0 || fld v 46 2 != 0 || fld v 30 2 != 0 || fld v 14 2 != 0) 0x0203

/-- The records of R128 of every cell in the FABRIC state. -/
def State.aguCheck (s : State) (r : Nat) (y : Half) : List Nat :=
  ((List.range 32).filter (fun c => s.owner r c = 0)).flatMap (fun c =>
    (List.range 4).flatMap (fun h => aguCodes (mget 0 y.agu (4 * c + h))))

/-- NOT_OWNER of R128: an ACCESS context enables a channel of a cell that is not FABRIC. -/
def State.ownerCheck (s : State) (r : Nat) (y : Half) : List Nat :=
  codeIf (y.ctx.any (fun e => kindAt ((e.1 / 16) % 16) == .mem && cOpc e.2 == 1 &&
    (List.range 4).any (fun ch => cChan e.2 ch % 2 == 1) && s.owner r (memIdx (e.1 / 16)) != 0)) 0x0204

/-- PARAM bits that a function uses (R362). -/
def paramMask (f : Nat) : Nat :=
  match f with
  | 0x3 => 0x0FFFFF00
  | 0x4 => 0x0000FF00
  | 0x5 => 0x000F3F00
  | 0x9 => 0xFF1FFF00
  | 0xA => 0x01FF3F00
  | _ => 0

/-- The codes of R370 that the record of slot `k` meets; `hz` is true at 1.5 GHz. -/
def slotCodes (y : Half) (k : Nat) (fast : Bool) : List Nat :=
  let v := y.slot k
  let f := slotFunc v
  let word := fld v 32 32
  let resv := 0xA < f || (word / 256 * 256) &&& (0xFFFFFF00 ^^^ (paramMask f &&& 0xFFFFFF00)) != 0 ||
    (slotFilt v != 0 && !isInputFunc f) || (fld v 0 20 &&& 0xFFFEE) != 0 || fld v 20 12 != 0
  let cs := slotFunc (y.slot (slotParam v 8 6))
  let pair := (f == 0x6 && (k % 2 == 1 || slotFunc (y.slot (k + 1)) != 0x7)) ||
    (f == 0x7 && (k == 0 || slotFunc (y.slot (k - 1)) != 0x6)) ||
    (f == 0x8 && (k < 2 || slotFunc (y.slot (k - 2)) != 0x6)) ||
    (f == 0x5 && cs != 0x4) || (f == 0xA && cs != 0x9)
  let div := slotParam v 8 8
  let range := (f == 0x4 && div < (if fast then 60 else 50)) ||
    (f == 0x9 && div < (if fast then 30 else 25)) || (f == 0x3 && slotParam v 8 20 == 0) ||
    (f == 0xA && slotParam (y.slot (slotParam v 8 6)) 16 5 + 1 < slotParam v 20 5 + 20)
  codeIf resv 0x0160 ++ codeIf pair 0x0161 ++ codeIf range 0x0163

/-- Codes of R370 over a half of region `r`. -/
def State.slotCheck (s : State) (r : Nat) (y : Half) : List Nat :=
  let fast := !s.rb (regionBase r + 0x200) 1
  (y.slotRec.flatMap (fun e => slotCodes y e.1 fast)) ++
  codeIf (y.slotRec.any (fun e => e.1 % 2 == 1 && slotFunc e.2 != 0 &&
    (match s.slotPin r e.1 with
      | some p => s.rf (pinReg p) 4 2 == 1
      | none => false))) 0x0161

/-- The rule of R166: the record of a slot with no pin owned by the region is 0. -/
def State.slotOwned (s : State) (r : Nat) (y : Half) : Bool :=
  y.slotRec.all (fun e => (s.slotPin r e.1).isSome)

/-- PSTATE of a region (R219): 0 ON, 1 DRAINING, 2 OFF, 3 WAKING. -/
def State.pstate (s : State) (r : Nat) : Nat := s.rf (regionBase r + 0x20C) 0 2

/-- REG_CTRL.EN of a region. -/
def State.regionEn (s : State) (r : Nat) : Bool := s.rb (regionBase r) 0

/-- Whether the region owns any pin (R203, R360). -/
def State.ownsPin (s : State) (r : Nat) : Bool := (List.range 64).any (fun k => (s.slotPin r k).isSome)

/-- Whether the march engine has borrowed a bank of the region (R462). -/
def State.borrowed (s : State) (r : Nat) : Bool := (List.range 32).any (fun c => s.rf (memctl r c) 12 4 != 0)

/-- Codes of the region's clock, power and test rules (R203, R313, R462). -/
def State.clockCheck (s : State) (r : Nat) : List Nat :=
  let c := regionBase r + 0x200
  let free := s.rb c 0
  codeIf (free && (115 < s.rf c 8 7 || 115 < s.rf c 16 7 || s.rf c 16 7 < s.rf c 8 7)) 0x0154 ++
  codeIf (free && s.ownsPin r) 0x0155 ++
  codeIf (s.pstate r != 0) 0x0156 ++
  codeIf (s.borrowed r) 0x0157 ++
  codeIf (s.bist == some (0, r)) 0x0158 ++
  codeIf (s.rb (planeBase (planeOf r) + 0xD020) (planeIdx r)) 0x020A

/-- The region's check at enable (R8, R50, R102, R128, R203, R370). -/
def State.regionCheck (s : State) (r : Nat) : List Nat :=
  let y := (s.region r).active
  s.contextsCheck r y ++ s.seqCheck r y ++ s.aguCheck r y ++ s.ownerCheck r y ++ s.slotCheck r y ++ s.clockCheck r

/-- Step 5 of a preload and the check after a shift, on the inactive half (R171, R178). -/
def State.halfCheck (s : State) (r : Nat) : List Nat :=
  let x := s.region r
  s.contextsCheck r x.inactive ++ s.seqCheck r x.inactive ++ s.aguCheck r x.inactive ++
  s.slotCheck r x.inactive ++ entryCheck x.active x.inactive ++
  codeIf (!s.slotOwned r x.inactive) 0x0138

end Sys2Proof.Machine
end

