-- ==== Sys2Proof/Machine/ArithFx.lean ====
section
/-! DEFINITION. FX arithmetic: results, accumulators and the running minimum and maximum (R51 to R61). -/

namespace Sys2Proof.Machine

/-- A signed value limited to 20 bits (R54). -/
def clamp20 (x : Int) : Sample :=
  if x < -0x80000 then 0x80000#20 else if 0x7FFFF < x then 0x7FFFF#20 else BitVec.ofInt 20 x

/-- The data bits of an ALU opcode (R54). -/
def fxAlu (opc : Nat) (a b c : Sample) : Sample :=
  let n := fld b 0 5
  match opc with
  | 0x01 => a + b
  | 0x02 => a - b
  | 0x03 => clamp20 (a.toInt + b.toInt)
  | 0x04 => clamp20 (a.toInt - b.toInt)
  | 0x05 => a &&& b
  | 0x06 => a ||| b
  | 0x07 => a ^^^ b
  | 0x08 => a
  | 0x09 => if c ≠ 0 then a else b
  | 0x0A => if a = b then 1 else 0
  | 0x0B => if a.toInt < b.toInt then 1 else 0
  | 0x0C => if a.toNat < b.toNat then 1 else 0
  | 0x0D => if b.toInt < a.toInt then b else a
  | 0x0E => if a.toInt < b.toInt then b else a
  | 0x0F => if a = 0x80000#20 then 0x7FFFF#20 else if a.toInt < 0 then -a else a
  | 0x10 => if n ≤ 19 then a <<< n else 0
  | 0x11 => if n ≤ 19 then a >>> n else 0
  | 0x12 => if n ≤ 19 then a.sshiftRight n else if a.msb then 0xFFFFF#20 else 0
  | 0x13 => a.rotateLeft (n % 20)
  | _ => 0

/-- Primary and secondary result of a multiplication (R55). -/
def fxMul (opc : Nat) (a b : Sample) : Sample × Sample :=
  let p := BitVec.ofInt 40 (a.toInt * b.toInt)
  let u := BitVec.ofNat 40 (a.toNat * b.toNat)
  let lo := fun x : BitVec 40 => BitVec.ofNat 20 (fld x 0 20)
  let hi := fun x : BitVec 40 => BitVec.ofNat 20 (fld x 20 20)
  match opc with
  | 0x18 => (lo p, hi p)
  | 0x19 => (hi p, lo p)
  | _ => (hi u, lo u)

/-- The value an accumulator opcode brings (R57). -/
def accValue (opc : Nat) (a b : Sample) : Int :=
  match opc with
  | 0x20 => a.toInt * b.toInt
  | 0x21 => -(a.toInt * b.toInt)
  | 0x22 => a.toInt
  | _ => -a.toInt

/-- An accumulator update (R57): with `clr` a load, otherwise the exact sum with its guard record. -/
def Acc.update (x : Acc) (u : Int) (clr p : Bool) : Acc :=
  if clr then { v := BitVec.ofInt 48 u, gov := 0, ap := p }
  else
    let t := x.v.toInt + u
    { v := BitVec.ofInt 48 t,
      gov := if 2 ^ 47 - 1 < t then 1 else if t < -2 ^ 47 then 2 else x.gov,
      ap := x.ap || p }

/-- The scale-out of an accumulator (R58): the sample and its poison. GOVACT 1 is CLAMP, 0 POISON. -/
def Acc.scaleOut (x : Acc) (shamt : Nat) (sat : Bool) (govact : Nat) : Sample × Bool :=
  let s := x.v.toInt >>> shamt
  let out := if x.gov ≠ 0 ∧ govact = 1 then (if x.gov = 1 then 0x7FFFF#20 else 0x80000#20)
    else if sat then clamp20 s else BitVec.ofInt 20 s
  (out, x.ap || (x.gov != 0 && govact == 0))

/-- A count of 20 bits that stops at its top (R61). -/
def satInc20 (n : Sample) : Sample := if n = 0xFFFFF#20 then n else n + 1

/-- One element of a search (R61): the state after it, and at a close the value, the index and the
poison gathered. `max` selects MAXSRCH. -/
def FxSearch.take (x : FxSearch) (max : Bool) (a : Sample) (e p : Bool) :
    FxSearch × Option (Sample × Sample × Bool) :=
  let better := if max then x.sv.toInt < a.toInt else a.toInt < x.sv.toInt
  let y := if !x.sf || better then { x with sv := a, si := x.sn, sf := true } else x
  let y := { y with sn := satInc20 y.sn, sp := y.sp || p }
  if e then ({ y with sn := 0, sf := false, sp := false }, some (y.sv, y.si, y.sp)) else (y, none)

/-- The flag output of an FX result (R33). -/
def fxFlag (flg : Nat) (v : Sample) : Bool :=
  match flg with
  | 1 => v == 0
  | 2 => v.getLsbD 19
  | 3 => v.getLsbD 0
  | _ => false

end Sys2Proof.Machine
end

