-- ==== Sys2Proof/Machine/ArithFp.lean ====
section
/-! DEFINITION. Binary32 arithmetic of the FP cells: exact, rounded toward zero, flushed (R62 to R71). -/

namespace Sys2Proof.Machine

/-- The canonical NaN (R63). -/
def fNaN : Word32 := 0x7FC00000#32

/-- Sign bit. -/
def fSign (x : Word32) : Bool := x.getLsbD 31
/-- Biased exponent. -/
def fExp (x : Word32) : Nat := fld x 23 8
/-- Fraction. -/
def fFrac (x : Word32) : Nat := fld x 0 23
/-- A NaN of either kind. -/
def fIsNaN (x : Word32) : Bool := fExp x == 255 && fFrac x != 0
/-- An infinity. -/
def fIsInf (x : Word32) : Bool := fExp x == 255 && fFrac x == 0
/-- Input flush (R63): a subnormal operand is zero of its sign. -/
def fFlush (x : Word32) : Word32 := if fExp x = 0 then x &&& 0x80000000#32 else x
/-- Either zero, after the flush. -/
def fIsZero (x : Word32) : Bool := fExp x == 0

/-- A sign, exponent field and fraction put together. -/
def fMake (s : Bool) (e f : Nat) : Word32 := BitVec.ofNat 32 (b2n s * 2 ^ 31 + e * 2 ^ 23 + f)

/-- The exact value `m * 2^e` with sign `s`, rounded toward zero, flushed and limited (R63). -/
def fPack (s : Bool) (m : Nat) (e : Int) : Word32 :=
  if m = 0 then fMake s 0 0
  else
    let n := Nat.log2 m
    let x := (n : Int) + e
    if x < -126 then fMake s 0 0
    else if 127 < x then fMake s 254 0x7FFFFF
    else
      let t := if 23 ≤ n then m >>> (n - 23) else m <<< (23 - n)
      fMake s (x + 127).toNat (t - 2 ^ 23)

/-- Integer significand of a normal value. -/
def fMant (x : Word32) : Nat := if fExp x = 0 then 0 else 2 ^ 23 + fFrac x
/-- Exponent of the integer significand. -/
def fScale (x : Word32) : Int := (fExp x : Int) - 150

/-- A finite value as a dyadic: sign, significand, exponent. -/
structure Dyadic where
  s : Bool
  m : Nat
  e : Int
deriving DecidableEq, Repr

/-- The dyadic of a flushed finite operand. -/
def fDyadic (x : Word32) : Dyadic := { s := fSign x, m := fMant x, e := fScale x }

/-- Exact sum of two dyadics, packed; an exact zero takes the sign of R63. -/
def fSum (a b : Dyadic) : Word32 :=
  if a.m = 0 ∧ b.m = 0 then fMake (a.s && b.s) 0 0
  else
    let e := if a.m = 0 then b.e else if b.m = 0 then a.e else min a.e b.e
    let x : Int := (a.m : Int) * 2 ^ (a.e - e).toNat
    let y : Int := (b.m : Int) * 2 ^ (b.e - e).toNat
    let t := (if a.s then -x else x) + (if b.s then -y else y)
    if t = 0 then fMake false 0 0 else fPack (t < 0) t.natAbs e

/-- Exact product of two dyadics. -/
def fProd (a b : Dyadic) : Dyadic := { s := xor a.s b.s, m := a.m * b.m, e := a.e + b.e }

/-- FADD; FSUB inverts the sign of B first (R64). -/
def fAdd (a b : Word32) : Word32 :=
  if fIsNaN a || fIsNaN b then fNaN
  else if fIsInf a then (if fIsInf b && fSign a != fSign b then fNaN else a)
  else if fIsInf b then b
  else fSum (fDyadic a) (fDyadic b)

/-- FMUL (R64). -/
def fMul (a b : Word32) : Word32 :=
  let s := xor (fSign a) (fSign b)
  if fIsNaN a || fIsNaN b then fNaN
  else if fIsInf a || fIsInf b then (if fIsZero a || fIsZero b then fNaN else fMake s 255 0)
  else
    let p := fProd (fDyadic a) (fDyadic b)
    fPack p.s p.m p.e

/-- Fused product of `a` and `b`, its sign inverted where `neg`, plus `c` (R64). -/
def fFused (neg : Bool) (a b c : Word32) : Word32 :=
  let s := xor (xor (fSign a) (fSign b)) neg
  if fIsNaN a || fIsNaN b || fIsNaN c then fNaN
  else if fIsInf a || fIsInf b then
    if fIsZero a || fIsZero b then fNaN
    else if fIsInf c && fSign c != s then fNaN else fMake s 255 0
  else if fIsInf c then c
  else
    let p := fProd (fDyadic a) (fDyadic b)
    fSum { p with s := s } (fDyadic c)

/-- The sign inverted. -/
def fNegate (x : Word32) : Word32 := x ^^^ 0x80000000#32

/-- A key that orders flushed values with -0 below +0. -/
def fKey (x : Word32) : Int :=
  if fSign x then -(fld x 0 31 : Int) - 1 else (fld x 0 31 : Int)

/-- FMIN or FMAX (R65). -/
def fMinMax (max : Bool) (a b : Word32) : Word32 :=
  if fIsNaN a && fIsNaN b then fNaN
  else if fIsNaN a then b
  else if fIsNaN b then a
  else if max then (if fKey a < fKey b then b else a) else (if fKey b < fKey a then b else a)

/-- A < B with -0 equal to +0, false for a NaN (R65). -/
def fLess (a b : Word32) : Bool :=
  !(fIsNaN a || fIsNaN b) && !(fIsZero a && fIsZero b) && decide (fKey a < fKey b)

/-- A = B with -0 equal to +0, false for a NaN (R65). -/
def fEqual (a b : Word32) : Bool :=
  !(fIsNaN a || fIsNaN b) && ((fIsZero a && fIsZero b) || a == b)

/-- FMOV, FABS and FNEG of a flushed operand (R66). -/
def fSignOp (opc : Nat) (a : Word32) : Word32 :=
  if fIsNaN a then fNaN
  else match opc with
    | 0x0A => a &&& 0x7FFFFFFF#32
    | 0x0B => fNegate a
    | _ => a

/-- CVTFX (R67). -/
def fFromFix (a : Sample) (q : Nat) : Word32 := fPack (a.toInt < 0) a.toInt.natAbs (-(q : Int))

/-- CVTXF (R68): the sample, and whether it is out of range. -/
def fToFix (v : Word32) (q : Nat) (sat : Bool) : Sample × Bool :=
  if fIsNaN v then (0, true)
  else if fIsInf v then (if sat then (if fSign v then 0x80000#20 else 0x7FFFF#20) else 0, true)
  else
    let e := fScale v + q
    let m := if e < 0 then fMant v >>> (-e).toNat else fMant v <<< e.toNat
    let t : Int := if fSign v then -(m : Int) else m
    if t < -0x80000 ∨ 0x7FFFF < t then (if sat then clamp20 t else BitVec.ofInt 20 t, true)
    else (BitVec.ofInt 20 t, false)

/-- FRCP (R69). -/
def fRcp (x : Word32) : Word32 :=
  if fIsNaN x then fNaN
  else if fIsZero x then fMake (fSign x) 255 0
  else if fIsInf x then fMake (fSign x) 0 0
  else
    let i := fFrac x >>> 15
    let q := 2 ^ 20 / (513 + 2 * i) - 1024
    let e : Int := -((fExp x : Int) - 127) - 1
    if e < -126 then fMake (fSign x) 0 0 else fMake (fSign x) (e + 127).toNat (q * 2 ^ 13)

/-- The integer square root, built bit by bit from `n` bits down (R70). -/
def isqrtBits (x : Nat) : Nat → Nat → Nat
  | 0, r => r
  | n + 1, r => isqrtBits x n (if (r + 2 ^ n) * (r + 2 ^ n) ≤ x then r + 2 ^ n else r)

/-- FRSQ (R70). -/
def fRsq (x : Word32) : Word32 :=
  if fIsNaN x then fNaN
  else if fIsZero x then fMake (fSign x) 255 0
  else if fSign x then fNaN
  else if fIsInf x then fMake false 0 0
  else
    let e : Int := (fExp x : Int) - 127
    let odd := (e % 2).toNat
    let k := e - odd
    let j := fFrac x >>> 16
    let w := (257 + 2 * j) <<< odd
    let q := isqrtBits (2 ^ 30 / w) 16 0 - 1024
    fMake false (-(k / 2) - 1 + 127).toNat (q * 2 ^ 13)

/-- One element of an FP search (R62); `a` is flushed. -/
def FpSearch.take (x : FpSearch) (max : Bool) (a : Word32) (e p : Bool) :
    FpSearch × Option (Word32 × Sample × Bool) :=
  let better := if max then decide (fKey x.sv < fKey a) else decide (fKey a < fKey x.sv)
  let y := if !fIsNaN a && (!x.sf || better) then { x with sv := a, si := x.sn, sf := true } else x
  let y := { y with sn := satInc20 y.sn, sp := y.sp || p }
  if e then
    ({ y with sn := 0, sf := false, sp := false },
      some (if y.sf then y.sv else fNaN, if y.sf then y.si else 0xFFFFF#20, y.sp))
  else (y, none)

/-- The flag output of a binary32 result (R71); `extra` is the unordered condition of FLG 3. -/
def fpFlag (flg : Nat) (v : Word32) (extra : Bool) : Bool :=
  match flg with
  | 1 => v == 0 || v == 0x80000000#32
  | 2 => v.getLsbD 31
  | 3 => fIsNaN v || extra
  | _ => false

/-- The flag output of a single-sample result (R71). -/
def fpFlag1 (flg : Nat) (v : Sample) (extra : Bool) : Bool :=
  match flg with
  | 1 => v == 0
  | 2 => v.getLsbD 19
  | 3 => extra
  | _ => false

end Sys2Proof.Machine
end

