-- ==== Sys2Proof/Machine/Flags.lean ====
section
/-! DEFINITION. Issue of one operation: condition, end mark, poison, tile flag and what it will write
(R38 to R41, R52 to R62, R71). -/

namespace Sys2Proof.Machine

/-- Whether a context issues under PRED, for operand C's sample `v` and poison `p` (R39). -/
def predHolds (pred : Nat) (v : Sample) (p : Bool) : Bool :=
  match pred with
  | 1 => v != 0 || p
  | 2 => v == 0 || p
  | _ => true

/-- E of a result (R53). -/
def emodeOf (m : Nat) (ea eb : Bool) : Bool :=
  match m with
  | 0 => ea
  | 1 => eb
  | 2 => false
  | _ => true

/-- P of an FX result from its operands (R52). -/
def fxPoison (opc : Nat) (a b c : Chan) : Bool :=
  if opc = 0x09 then c.p || (if c.v ≠ 0 then a.p else b.p)
  else
    let u := fxUses opc
    (u.1 && a.p) || (u.2.1 && b.p) || (u.2.2 && c.p)

/-- The destinations of an FX result (R33): primary `v`, secondary `w`. -/
def fxDest (w : BitVec 128) (v sec : Chan) : Effect :=
  .fx (if bit w 67 then some v else none) (if bit w 68 then some sec else none)
    (if bit w 66 then some (fld w 63 3, v) else none)

/-- The tile-flag contribution of an FX result (R38). -/
def fxContrib (w : BitVec 128) (v : Chan) : Option (Bool × Bool) :=
  if cFlg w = 0 then none else some (fxFlag (cFlg w) v.v, v.p)

/-- Issue of an FX cell: the cell's search state afterwards, and the operations that set out, in order. -/
def issueFx (w : BitVec 128) (cell : Nat) (x : FxCell) (a b c : Chan) : FxCell × List Flight :=
  let opc := cOpc w
  if opc = 0 ∨ predHolds (cPred w) c.v c.p = false then (x, [])
  else
    let forced := cPred w != 0 && c.p
    let p := fxPoison opc a b c || forced
    let e := emodeOf (cEmode w) a.e b.e
    let send := fun (v sec : Sample) (p : Bool) (l : Nat) =>
      ({ cell := cell, left := l, eff := fxDest w { v := v, e := e, p := p } { v := sec, e := e, p := p },
         flag := fxContrib w { v := v, e := e, p := p } } : Flight)
    if opc ≤ 0x13 then
      let v := fxAlu opc a.v b.v c.v
      (x, [send v v p 1])
    else if opc ≤ 0x1A then
      let v := fxMul opc a.v b.v
      (x, [send v.1 v.2 p 3])
    else if opc ≤ 0x23 then
      (x, [{ cell := cell, left := fxLatency opc,
             eff := .acc (fld w 52 1) (accValue opc a.v b.v) (bit w 53) p }])
    else if opc = 0x24 then
      let acc := if bit w 52 then x.acc1 else x.acc0
      let o := acc.scaleOut (fld w 54 6) (bit w 60) (fld w 61 2)
      (x, send o.1 o.1 (o.2 || forced) 2 ::
        (if bit w 53 then [{ cell := cell, left := 1, eff := .acc (fld w 52 1) 0 true forced }] else []))
    else
      let t := x.srch.take (opc = 0x29) a.v a.e p
      ({ x with srch := t.1 }, match t.2 with
        | none => []
        | some (v, i, pp) => [send v i pp 1])

/-- The destinations of a binary32 result (R35, R36). -/
def fpDest (w : BitVec 128) (v : FpVal) (closed : Option (Sample × Bool)) : Effect :=
  .fp (if bit w 67 then some v.split else none)
    (if bit w 66 then some (fld w 64 2, v) else none) closed

/-- Issue of an FP cell: `a`, `b`, `c` before the input flush, `a1` the single sample of CVTFX. -/
def issueFp (w : BitVec 128) (cell : Nat) (x : FpCell) (a b c : FpVal) (a1 : Chan) : FpCell × List Flight :=
  let opc := cOpc w
  if opc = 0 ∨ predHolds (cPred w) (BitVec.ofNat 20 (fld c.v 12 20)) c.p = false then (x, [])
  else
    let forced := cPred w != 0 && c.p
    let ae := if opc = 0x18 then a1.e else a.e
    let ap := if opc = 0x18 then a1.p else a.p
    let u := fpUses opc
    let p := (u.1 && ap) || (u.2.1 && b.p) || (u.2.2 && c.p) || forced
    let e := emodeOf (cEmode w) ae b.e
    let fa := fFlush a.v
    let fb := fFlush b.v
    let fc := fFlush c.v
    let nan := fIsNaN fa || fIsNaN fb
    let pairOut := fun (v : Word32) (p extra : Bool) (cl : Option (Sample × Bool)) =>
      ({ cell := cell, left := fpLatency opc, eff := fpDest w { v := v, e := e, p := p } cl,
         flag := if cFlg w = 0 then none else some (fpFlag (cFlg w) v extra, p) } : Flight)
    let oneOut := fun (v : Sample) (p extra : Bool) =>
      ({ cell := cell, left := fpLatency opc,
         eff := fpDest w { v := BitVec.ofNat 32 (v.toNat * 2 ^ 12), e := e, p := p } none,
         flag := if cFlg w = 0 then none else some (fpFlag1 (cFlg w) v extra, p) } : Flight)
    let one := fun t : Bool => if t then (1 : Sample) else 0
    match opc with
    | 0x01 => (x, [pairOut (fAdd fa fb) p false none])
    | 0x02 => (x, [pairOut (fAdd fa (if fIsNaN fb then fb else fNegate fb)) p false none])
    | 0x03 => (x, [pairOut (fMul fa fb) p false none])
    | 0x04 => (x, [pairOut (fFused false fa fb fc) p false none])
    | 0x05 => (x, [pairOut (fFused false fa fb (fNegate fc)) p false none])
    | 0x06 => (x, [pairOut (fFused true fa fb fc) p false none])
    | 0x08 => (x, [pairOut (fMinMax false fa fb) p nan none])
    | 0x09 => (x, [pairOut (fMinMax true fa fb) p nan none])
    | 0x0C => (x, [oneOut (one (fLess fa fb)) p nan])
    | 0x0D => (x, [oneOut (one (fEqual fa fb)) p nan])
    | 0x10 | 0x11 =>
      let t := x.srch.take (opc = 0x11) fa ae p
      ({ x with srch := t.1 }, match t.2 with
        | none => []
        | some (v, i, pp) => [pairOut v pp false (some (i, pp))])
    | 0x12 => (x, [oneOut x.srch.fi (x.srch.fip || forced) false])
    | 0x18 => (x, [pairOut (fFromFix a1.v (fld w 87 5)) p false none])
    | 0x19 =>
      let t := fToFix fa (fld w 87 5) (bit w 92)
      (x, [oneOut t.1 p t.2])
    | 0x1C => (x, [pairOut (fRcp fa) p false none])
    | 0x1D => (x, [pairOut (fRsq fa) p false none])
    | _ => (x, [pairOut (fSignOp opc fa) p false none])

/-- What a landing effect makes of an FX cell (R41, R42, R57, R59). -/
def Effect.landFx (f : Effect) (x : FxCell) : FxCell :=
  match f with
  | .fx o0 o1 reg =>
    { x with o0 := o0.getD x.o0, o1 := o1.getD x.o1,
             regs := match reg with
               | some (i, v) => mset {} x.regs i v
               | none => x.regs }
  | .acc i u clr p => if i = 0 then { x with acc0 := x.acc0.update u clr p } else { x with acc1 := x.acc1.update u clr p }
  | _ => x

/-- What a landing effect makes of an FP cell (R41, R62). -/
def Effect.landFp (f : Effect) (x : FpCell) : FpCell :=
  match f with
  | .fp o reg closed =>
    let x := match o with
      | some (hi, lo) => { x with o0 := hi, o1 := lo }
      | none => x
    let x := match reg with
      | some (i, v) => { x with regs := mset {} x.regs i v }
      | none => x
    match closed with
    | some (i, p) => { x with srch := { x.srch with fi := i, fip := p } }
    | none => x
  | _ => x

/-- One result landing in its region: destinations and tile flag (R38, R41). -/
def Region.land (x : Region) (f : Flight) : Region :=
  let x := match f.eff with
    | .fp .. => { x with fp := mupd {} x.fp f.cell f.eff.landFp }
    | _ => { x with fx := mupd {} x.fx f.cell f.eff.landFx }
  match f.flag with
  | none => x
  | some (v, p) => { x with flags := mupd (false, false) x.flags (f.cell / 16) (fun o => (o.1 || v, o.2 || p)) }

end Sys2Proof.Machine
end

