-- ==== Sys2Proof/Machine/Fabric.lean ====
section
/-! DEFINITION. One region cycle: stall decision, issue, routes, pops, landings, MEM phases, pin stages
(R24 to R49, R104, R110). -/

namespace Sys2Proof.Machine

/-- Border inputs that the contexts of a cycle need (R46), each with whether it is popped (R48). -/
def neededInputs (ws : List (Nat × BitVec 128)) : List (Nat × Bool) :=
  ws.flatMap (fun cw =>
    let t := cw.1 / 16
    let k := kindAt (cw.1 % 16)
    ((operandsRead k cw.2).flatMap (fun o => o.sources.filterMap (fun n => (borderIn t n).map (fun i => (i, o.pop))))) ++
    ([cRts k cw.2, cRtx k cw.2].filterMap (fun n => (borderIn t n).map (fun i => (i, false)))))

/-- Border outputs that the contexts of a cycle drive (R46): output, tile and source. -/
def drivenOutputs (ws : List (Nat × BitVec 128)) : List (Nat × Nat × Nat) :=
  ws.flatMap (fun cw =>
    let t := cw.1 / 16
    let p := cw.1 % 16
    let k := kindAt p
    (if cRts k cw.2 ≠ 0 ∧ (tileAcross t (p / 4)).isNone then
      [(borderIdx t (p / 4) (p % 4), t, cRts k cw.2)] else []) ++
    (if cRtx k cw.2 ≠ 0 ∧ p = 4 then
      match tilePort t with
      | some i => [(64 + i, t, cRtx k cw.2)]
      | none => []
    else []))

/-- Internal spokes that the contexts of a cycle drive (R24): register key, tile and source. -/
def drivenSpokes (ws : List (Nat × BitVec 128)) : List (Nat × Nat × Nat) :=
  ws.filterMap (fun cw =>
    let t := cw.1 / 16
    let p := cw.1 % 16
    let k := kindAt p
    if cRts k cw.2 ≠ 0 ∧ (tileAcross t (p / 4)).isSome then some (16 * t + p, t, cRts k cw.2) else none)

/-- Pin-slot outputs that the contexts of a cycle drive (R20): slot, tile and source. -/
def drivenPins (ws : List (Nat × BitVec 128)) : List (Nat × Nat × Nat) :=
  ws.filterMap (fun cw =>
    let t := cw.1 / 16
    let p := cw.1 % 16
    let k := kindAt p
    if cRtx k cw.2 ≠ 0 ∧ p < 4 then some (4 * t + p, t, cRtx k cw.2) else none)

/-- The borders that stall a cycle, in the numbering of R86 (R47). -/
def State.stalls (s : State) (r : Nat) (ws : List (Nat × BitVec 128)) : List Nat :=
  ((neededInputs ws).filterMap (fun i => if s.readable r i.1 = 0 then some (selOfIn i.1) else none)) ++
  ((drivenOutputs ws).filterMap (fun o => if s.space r o.1 = 0 then some (selOfOut o.1) else none))

/-- One cell's issue (R34 to R41). -/
def State.issueCell (s0 : State) (r : Nat) (acc : Region × List MemHap) (cw : Nat × BitVec 128) : Region × List MemHap :=
  let x := acc.1
  let w := cw.2
  match kindAt (cw.1 % 16) with
  | .mem =>
    let (x, h) := s0.issueMem r cw.1 w x
    (x, acc.2 ++ h)
  | .fx =>
    let o := s0.fxOperand r cw.1 w
    let (c, fl) := issueFx w cw.1 (mget {} x.fx cw.1) (o (fld w 7 7)) (o (fld w 14 7)) (o (fld w 21 7))
    ({ x with fx := mset {} x.fx cw.1 c, flights := x.flights ++ fl }, acc.2)
  | .fp =>
    let o := s0.fpOperand r cw.1 w
    let (c, fl) := issueFp w cw.1 (mget {} x.fp cw.1) (o (fld w 7 7)) (o (fld w 14 7)) (o (fld w 21 7))
      (s0.fpSample r cw.1 w (fld w 7 7))
    ({ x with fp := mset {} x.fp cw.1 c, flights := x.flights ++ fl }, acc.2)

/-- A sample pushed on border output `o` of region `r`: one credit spent, the sample on its way
(R26, R28). -/
def State.pushOut (s : State) (r o : Nat) (c : Chan) : State :=
  let s := s.onRegion r (fun x => { x with credUsed := mupd 0 x.credUsed o (· + 1), lastOut := mset {} x.lastOut o c })
  if o < 64 then
    match s.farSide r o with
    | none => s
    | some (n, i) =>
      let k := s.spokeLeft r n
      s.onRegion n (fun y => { y with inWay := mupd [] y.inWay i (· ++ [(k, c)]) })
  else
    let t := s.noc.ns
    s.onRegion r (fun x => { x with
    portWay := mupd [] x.portWay (o - 64) (· ++ [(t, c)]),
    ports := mupd {} x.ports (o - 64) (fun p => { p with pushed := true, lastE := c.e }) })

/-- A pop of border input `i` of region `r`: the sample leaves, its credit sets out (R26, R136). -/
def State.popIn (s : State) (r i : Nat) : State :=
  if i < 64 then
    let s := s.onRegion r (fun x => { x with inFifo := mupd [] x.inFifo i List.tail })
    match s.farSide r i with
    | none => s
    | some (n, o) =>
      let k := s.spokeLeft r n
      s.onRegion n (fun y => { y with credWay := mupd [] y.credWay o (· ++ [k]) })
  else
    let t := s.noc.ns
    s.onRegion r (fun x => { x with
      portVis := mupd 0 x.portVis (i - 64) (· - 1), popWay := mupd [] x.popWay (i - 64) (· ++ [t]) })

/-- Every flight one cycle nearer; those due land in issue order, and drive the flags of the next
cycle (R38, R41, R42). -/
def Region.landDue (x : Region) : Region :=
  let due := x.flights.filter (fun f => f.left ≤ 1)
  let x := { x with flights := (x.flights.filter (fun f => 1 < f.left)).map (fun f => { f with left := f.left - 1 }),
                    flags := [] }
  due.foldl Region.land x

/-- Fabric accesses one cycle nearer; read data due lands on its source (R37, R41). -/
def Region.landMem (x : Region) : Region :=
  let due := x.rds.filter (fun a => a.left ≤ 1)
  { x with
    memOut := due.foldl (fun m a => mset {} m (3 * a.cell + a.ch) a.data) x.memOut,
    rds := (x.rds.filter (fun a => 1 < a.left)).map (fun a => { a with left := a.left - 1 }),
    wrs := (x.wrs.filter (fun a => 1 < a.left)).map (fun a => { a with left := a.left - 1 }) }

/-- The port-0 and port-1 phases of an unstalled region cycle (R114 to R119). Port 0 performs none in a cell
that is not FABRIC (R120). -/
def State.memPhases (s : State) (r : Nat) (haps : List MemHap) : State :=
  let mine := fun c : Nat => s.owner r c == 0
  let x := s.region r
  let conf := (x.rds.filter (fun a => a.left = 2 ∧ a.lost ∧ mine a.cell)).map
    (fun a => ({ kind := 1, cell := a.cell, ch := a.ch, word := a.word } : MemHap))
  let s := (x.readPhases.filter (fun cw => mine cw.1)).foldl (fun s cw => s.readPhase r cw) s
  let s := (s.portOneReads r).scrubReads r
  let ws := (s.region r).wrs.filter (fun a => a.left = 1 ∧ mine a.cell)
  let x := (s.region r).portOneTick
  let (s, coll) := (s.setRegion r x.1).writePhases r ws x.2
  let s := s.scrubPhases r (ws.map (fun a => (a.cell, a.word)) ++ x.2.map (fun a => (a.cell, a.word)))
  s.recordHaps r (coll ++ conf ++ haps)

/-- An unstalled region cycle with the context words `ws`, or with nothing issued (R41 to R48). -/
def State.cycleRun (s : State) (r : Nat) (ws : List (Nat × BitVec 128)) : State :=
  let s0 := s
  let val := fun d : Nat × Nat × Nat => s0.source r d.2.1 d.2.2
  let (x, haps) := ws.foldl (fun acc cw => s0.issueCell r acc cw) (s.region r, [])
  let x := (drivenSpokes ws).foldl (fun x d => { x with spoke := mset {} x.spoke d.1 (val d) }) x
  let x := (drivenPins ws).foldl (fun x d => x.routePin d.1 (val d) (s0.grid r)) x
  let s := s.setRegion r x
  let s := (drivenOutputs ws).foldl (fun s d => s.pushOut r d.1 (val d)) s
  let pops := ((neededInputs ws).filter (fun i => i.2)).map (·.1)
  let s := pops.eraseDups.foldl (fun s i => s.popIn r i) s
  let s := s.memPhases r haps
  let s := s.onRegion r (fun x => x.landDue.landMem)
  let s := (s.pinTick r).setRb (regionBase r) 1 false
  if s.rb (regionBase r) 0 then s.count64 (regionBase r + 0x80) else s

/-- A stalled region cycle (R47, R103, R110). -/
def State.cycleStall (s : State) (r : Nat) (sels : List Nat) : State :=
  let s := s.portOneCycle r
  let s := s.pinTick r
  let s := s.count64 (regionBase r + 0x70)
  let s := s.count64 (regionBase r + 0x80)
  s.setRg (regionBase r + 0x78) (BitVec.ofNat 32 (2 ^ 8 + sels.foldl min 255))

/-- One region cycle with context index `x`: the state after it, and whether it stalled (R47). -/
def State.regionCycle (s : State) (r x : Nat) : State × Bool :=
  let s := s.borderTick r
  let ws := (s.region r).active.words x
  match s.stalls r ws with
  | [] => (s.cycleRun r ws, false)
  | sels => (s.cycleStall r sels, true)

/-- One region cycle that issues nothing: it never stalls (R74, R176). -/
def State.idleCycle (s : State) (r : Nat) : State := (s.borderTick r).cycleRun r []

end Sys2Proof.Machine
end

