-- ==== Sys2Proof/Machine/Packets.lean ====
section
/-! DEFINITION. Packets that have reached their port: what they cover, their order there, and those that wait at
a DRAM channel (R287, R300, R337, R338). -/

namespace Sys2Proof.Machine

/-- The storage words or registers that a request covers, first and last byte. -/
def Packet.span (p : Packet) : Nat × Nat :=
  let n := if p.op = 1 then 32 * p.rlen else if p.op = 2 then 32 * p.data.length else if p.op = 3 then 32 else if p.rsize = 3 then 8 else 4
  (p.addr, p.addr + n - 1)

/-- Whether a request that arrived earlier at the same port goes first: of one port to one word or register
(R287), and of any port to one word of a MEM cell or one burst of a DRAM channel (R300, R337). -/
def Moving.goesFirst (q p : Moving) : Bool :=
  let dram := p.pkt.dport == 0 && decide (64 ≤ p.at_) && decide (p.at_ < 68)
  let cell := p.pkt.dport == 0 && decide (p.at_ < 64)
  let u := if dram then 64 else 1
  q.arrived && !q.pkt.vn && q.at_ == p.at_ && (q.pkt.m == p.pkt.m || dram || cell) &&
    decide (q.pkt.span.1 / u ≤ p.pkt.span.2 / u) && decide (p.pkt.span.1 / u ≤ q.pkt.span.2 / u)

/-- Request `i` of opcode `op`, arrived, with no earlier request in front of it. -/
def State.requestAt (s : State) (i op : Nat) : Option Moving :=
  match s.noc.moving[i]? with
  | none => none
  | some p =>
    if p.arrived && !p.pkt.vn && p.pkt.op == op && !(s.noc.moving.take i).any (fun q => q.goesFirst p) then some p else none

/-- The bursts that a request covers. -/
def Packet.bursts (p : Packet) : Nat := p.span.2 / 64 + 1 - p.span.1 / 64

/-- The entries of a list while `f` of them sums to no more than `room`. -/
def takeRoom {α : Type} (f : α → Nat) : Nat → List α → List α
  | _, [] => []
  | room, a :: l => if f a ≤ room then a :: takeRoom f (room - f a) l else []

/-- The read queue of DRAM channel `c`: the reads that have reached it, by their numbers among the packets, oldest
first, as far as they fit into its 64 bursts (R338). -/
def State.readQueue (s : State) (c : Nat) : List (Nat × Moving) :=
  takeRoom (fun e => e.2.pkt.bursts) 64 ((List.range s.noc.moving.length).filterMap (fun i =>
    match s.requestAt i 1 with
    | some p => if p.at_ = 64 + c ∧ p.pkt.dport = 0 then some (i, p) else none
    | none => none))

end Sys2Proof.Machine
end

