-- ==== Sys2Proof/Machine/Dram.lean ====
section
/-! DEFINITION. A DRAM channel as its requests see it: mapping, write queue, guards, freeze, fill
(R334 to R352). -/

namespace Sys2Proof.Machine

/-- Channel `c`. -/
def State.dram (s : State) (c : Nat) : Dram := mget {} s.drams c
/-- Changes channel `c`. -/
def State.onDram (s : State) (c : Nat) (f : Dram → Dram) : State :=
  { s with drams := mset {} s.drams c (f (s.dram c)) }

/-- The channel and channel-local address of an internal DRAM address (R334). -/
def State.dramPlace (s : State) (a : Nat) : Nat × Nat :=
  if s.rb (dramBase 0 + 0xC) 0 then (a / 256 % 4, a / 1024 * 256 + a % 256) else (a / 2 ^ 36, a % 2 ^ 36)

/-- The internal address of channel-local address `l` of channel `c` (R334). -/
def State.dramAddr (s : State) (c l : Nat) : Nat :=
  if s.rb (dramBase 0 + 0xC) 0 then l / 256 * 1024 + c * 256 + l % 256 else c * 2 ^ 36 + l

/-- The edge router of the DRAM channel that holds `a` (R280). -/
def State.dramRouter (s : State) (a : Nat) : Nat := 64 + (s.dramPlace a).1

/-- Payload capacity by ORG and DENS, in GB (R332). -/
def orgGB (cfg : Word32) : Nat :=
  (if fld cfg 4 2 = 0 then 16 else if fld cfg 4 2 = 3 then 0 else 32) * (if bit cfg 6 then 2 else 1)

/-- CAP of a channel (R356). -/
def State.dramCap (s : State) (c : Nat) : Nat :=
  if s.rb (dramBase c) 0 && (s.dram c).st != .failed then orgGB (s.rg (dramBase c + 8)) else 0

/-- DDR_MAP.TOTAL (R356). -/
def State.dramTotal (s : State) : Nat :=
  if s.rb (dramBase 0 + 0xC) 0 then
    if (List.range 4).all (fun c => s.rb (dramBase c) 0) then 4 * s.dramCap 0 else 0
  else ((List.range 4).map s.dramCap).sum

/-- Whether a DRAM range lies within the configured capacity (R155). -/
def State.dramWithin (s : State) (a n : Nat) : Bool :=
  if n = 0 then true
  else if s.rb (dramBase 0 + 0xC) 0 then a + n ≤ s.dramTotal * 2 ^ 30
  else (List.range 4).all (fun c =>
    let hi := min (a + n) ((c + 1) * 2 ^ 36)
    hi ≤ max a (c * 2 ^ 36) || hi ≤ c * 2 ^ 36 + s.dramCap c * 2 ^ 30) && a + n ≤ 2 ^ 38

/-- Where a storage word lies in the components: with its burst index, DRAM column address and slot (R335). -/
structure DramLoc where
  sub : Nat
  rank : Nat
  bg : Nat
  bank : Nat
  row : Nat
  burst : Nat
  col : Nat
  slot : Nat
deriving DecidableEq, Repr

/-- The place of word `w` of a channel (R335). -/
def dramLoc (cfg : Word32) (w : Nat) : DramLoc :=
  let m := if fld cfg 4 2 = 2 then 4 else 3
  let k := if fld cfg 4 2 = 1 then 1 else 0
  let row := w / 2 ^ (10 + m + k)
  let burst := w / 4 % 8 + w / 2 ^ 8 % 2 ^ m * 8
  { burst := burst, col := 16 * burst, slot := w % 2,
    sub := w / 2 % 2, rank := if k = 1 then w / 2 ^ (10 + m) % 2 else 0,
    bg := (w / 32 % 8) ^^^ (row % 8), bank := (w / 2 ^ (8 + m) % 4) ^^^ (row / 8 % 4), row := row }

/-- The key of a bank among a channel's rows. -/
def DramLoc.key (l : DramLoc) : Nat := ((l.rank * 2 + l.sub) * 8 + l.bg) * 4 + l.bank

/-- The activations of a bank after one more: at the components' threshold, refresh management comes first
(R331). -/
def actsNext (n : Nat) : Nat := if 0 < Config.raaLimit ∧ Config.raaLimit ≤ n + 1 then n + 1 - Config.raaLimit else n + 1

/-- A column command: it opens its row unless that is open, and the row stays open unless IDLE is 0 (R331,
R339). -/
def State.dramTouch (s : State) (c l : Nat) : State :=
  let p := dramLoc (s.rg (dramBase c + 8)) (l / 32)
  let t := s.now
  let v := if s.rf (dramBase c + 0x14) 0 13 = 0 then none else some (p.row, t)
  s.onDram c (fun d =>
    let hit := (mget none d.rows p.key).map (·.1) == some p.row
    { d with rows := mset none d.rows p.key v, acts := if hit then d.acts else mupd 0 d.acts p.key actsNext })

/-- Sets a DDR_EVT bit and raises its source when enabled (R358). -/
def State.dramEvent (s : State) (c j : Nat) : State :=
  s.event (dramBase c + 0x24) j (16 + j) (1344 + 16 * c + 4 + j)

/-- MORE of the freeze record counts on (R347). -/
def State.freezeMore (s : State) (c : Nat) : State :=
  s.setRf (dramBase c + 0x30) 4 4 (min 15 (s.rf (dramBase c + 0x30) 4 4 + 1))

/-- A freeze cause on channel `c` at internal address `a` (R346, R347): on a frozen channel it is counted and
changes nothing else; a record whose V is set is kept (R348). -/
def State.freeze (s : State) (c cause a : Nat) : State :=
  let b := dramBase c
  if (s.dram c).st = .frozen then s.freezeMore c
  else
    let held := min 127 (s.dram c).wq.length
    let s := s.onDram c (fun d => { d with st := .frozen })
    let s := if s.rb (b + 0x30) 31 then s.freezeMore c
      else
        let p := dramLoc (s.rg (b + 8)) ((s.dramPlace a).2 / 32)
        let place := if 3 ≤ cause then p.rank * 2 ^ 9 + p.sub * 2 ^ 8 else 0
        let s := s.setRg (b + 0x30) (BitVec.ofNat 32 (2 ^ 31 + held * 2 ^ 16 + place + cause))
        let s := s.setRg (b + 0x34) (BitVec.ofNat 32 (a / 32 * 32))
        let s := s.setRg (b + 0x38) (BitVec.ofNat 32 (a / 2 ^ 32 % 256))
        s.setRg64 (b + 0x40) s.now
    let s := s.lbAppend 0x0011 [(c, 4), ((s.rg (b + 0x30)).toNat, 4), (a, 8)]
    s.dramEvent c 0

/-- What a request finds before it is taken: a status other than OK, if it is turned away (R334,
R347, R351). -/
def State.dramGate (s : State) (c l : Nat) (m : Master) (write : Bool) : Option Nat :=
  match (s.dram c).st with
  | .failed => some 8
  | .frozen =>
    if m = .puppeteer ∧ write = false then (if s.dramCap c * 2 ^ 30 ≤ l then some 3 else none) else some 8
  | _ => if s.dramCap c * 2 ^ 30 ≤ l then some 3 else none

/-- A request reaches the channel: a self-refresh ends, the idle time restarts (R344, R345). -/
def State.dramRequest (s : State) (c : Nat) : State :=
  let t := s.now
  s.onDram c (fun d =>
    let d := if d.st = .sref then { d with st := .run, rank0 := { d.rank0 with post := 0, pull := 0 },
                                           rank1 := { d.rank1 with post := 0, pull := 0 } } else d
    { d with idleFrom := t })

/-- Whether a channel-local word is still to be filled; a burst of the skip table counts as filled
(R352, R337). -/
def Dram.unfilled (d : Dram) (l : Nat) : Bool :=
  d.st == .fill && d.fillPos ≤ l / 32 && !d.skip.contains (l / 64)

/-- The words of one row that lie last in each bank (R335). -/
def rowEnds (cfg : Word32) (row : Nat) : List Nat :=
  let m := if fld cfg 4 2 = 2 then 4 else 3
  let k := if fld cfg 4 2 = 1 then 1 else 0
  (List.range (2 ^ (6 + k))).map (fun i =>
    i % 2 * 2 + 7 * 4 + i / 2 % 8 * 2 ^ 5 + (2 ^ m - 1) * 2 ^ 8 + i / 16 * 2 ^ (8 + m) + row * 2 ^ (10 + m + k))

/-- The column commands of a fill up to word `n`: those of its last burst, or of a longer fill those that leave
the last row of each bank open (R339, R352). -/
def State.fillTouches (s : State) (c n : Nat) : State :=
  let d := s.dram c
  if n ≤ d.fillPos + 2 then (if n = 0 ∨ d.skip.contains ((n - 1) / 2) then s else s.dramTouch c (32 * (n - 1)))
  else
    let cfg := s.rg (dramBase c + 8)
    let row := (dramLoc cfg (n - 1)).row
    let ws := (rowEnds cfg (row - 1) ++ rowEnds cfg row).filter (fun w => d.fillPos ≤ w && w < n && !d.skip.contains (w / 2))
    ws.foldl (fun s w => s.dramTouch c (32 * w)) s

/-- Writes the cleared word on every unfilled word of channel `c` below word `n` (R352). -/
def State.fillTo (s : State) (c n : Nat) : State :=
  let s := s.fillTouches c n
  let d := s.dram c
  let hit := fun a : Nat =>
    let p := s.dramPlace a
    a < 2 ^ 38 && p.1 == c && d.fillPos ≤ p.2 / 32 && p.2 / 32 < n && !d.skip.contains (p.2 / 64)
  { s with mem := s.mem.filter (fun e => !hit e.1),
           codes := s.codes.filter (fun e => !hit (32 * e.1)),
           drams := mset {} s.drams c { d with fillPos := max d.fillPos n,
                                                skip := d.skip.filter (fun b => n ≤ 2 * b) } }

/-- The payload a write leaves on a word: covered slots, written bytes, the rest merged (R117, R336). -/
def writeMerge (old : Line) (ue : Bool) (slots : BitVec 12) (bytes : BitVec 32) (d : Line) : Line :=
  if slots = 0xFFF#12 then d
  else if slots = 0 then mergeBytes old ue bytes d
  else mergeSlots old ue (flitSlots slots d) []

/-- Issues one write to the components (R336). A read-modify-write that meets a freeze cause is not
performed, and its write stays in the queue. -/
def State.dramIssueWrite (s : State) (c : Nat) (w : DramWrite) : State :=
  let drop := fun s : State => s.onDram c (fun d => { d with wq := d.wq.erase w })
  let l := (s.dramPlace w.addr).2
  if w.slots = 0xFFF#12 then ((drop s).dramTouch c l).putLine w.addr w.data
  else
    let s := s.dramTouch c l
    let x := s.examine w.addr
    if x.guard then (s.logGrave (dramBase c + 0x8000) (1344 + 16 * c) .guard 1 w.addr 0).freeze c 3 w.addr
    else
      let s := if x.ce then s.logChannel c .ce 1 w.addr x.syn else if x.ue then s.logChannel c .ue 1 w.addr x.syn else s
      if x.ue && s.rb (dramBase c) 1 then s.freeze c 4 w.addr
      else (drop s).putLine w.addr (writeMerge x.raw x.ue w.slots w.bytes w.data)

/-- The number of bursts in the write queue (R338). -/
def Dram.bursts (d : Dram) : Nat := ((d.wq.map (fun w => w.addr / 64)).eraseDups).length

/-- Writes take precedence from WHI bursts on until WLO (R338). -/
def State.drainMark (s : State) (c : Nat) : State :=
  let q := dramBase c + 0x18
  s.onDram c (fun d => { d with
    drain := if s.rf q 0 6 ≤ d.bursts then true else if d.bursts ≤ s.rf q 8 6 then false else d.drain })

/-- Issues the writes held for the burst of `a`, oldest first (R336, R337). -/
def State.drainBurst (s : State) (c a : Nat) : State :=
  let l := (s.dram c).wq.filter (fun w => w.addr / 64 = a / 64)
  if l = [] then s
  else (l.foldl (fun s w => if (s.dram c).st = .frozen then s else s.dramIssueWrite c w) s).drainMark c

/-- No request has waited or been in progress since now (R344). -/
def State.dramBusyNow (s : State) (c : Nat) : State :=
  let t := s.now
  s.onDram c (fun d => { d with idleFrom := t })

/-- Issues the burst of the oldest write held: every write held for that burst, as one burst write, unless the
channel is frozen (R336). -/
def State.dramIssueOldest (s : State) (c : Nat) : State :=
  match (s.dram c).st, (s.dram c).wq with
  | .frozen, _ => s
  | _, [] => s
  | _, w :: _ => (s.drainBurst c w.addr).dramBusyNow c

/-- Writes that take precedence are issued ahead of a read (R338). -/
def State.drainHigh (s : State) (c : Nat) : State :=
  iter (fun s => if (s.dram c).drain then s.dramIssueOldest c else s) 64 s

/-- A read has waited AGEMAX ns (R338). -/
def State.aged (s : State) (c : Nat) (p : Moving) : Bool := decide (p.since + s.rf (dramBase c + 0x18) 16 16 ≤ s.now)

/-- A read finds its row open (R338). -/
def State.rowHit (s : State) (c : Nat) (p : Moving) : Bool :=
  let k := dramLoc (s.rg (dramBase c + 8)) ((s.dramPlace p.pkt.addr).2 / 32)
  (mget none (s.dram c).rows k.key).map (·.1) == some k.row

/-- The read that channel `c` issues next, by its number among the packets (R338): the oldest of those that have
waited AGEMAX; while writes do not take precedence, the oldest row hit, or the oldest. -/
def State.readNext (s : State) (c : Nat) : Option Nat :=
  let l := s.readQueue c
  match l.find? (fun e => s.aged c e.2) with
  | some e => some e.1
  | none =>
    if (s.dram c).drain && (s.dram c).wq != [] then none
    else match l.find? (fun e => s.rowHit c e.2) with
      | some e => some e.1
      | none => l.head?.map (·.1)

/-- Whether the channel issues a write next (R338): writes take precedence, or no read waits. -/
def State.writeNext (s : State) (c : Nat) : Bool := (s.dram c).wq != [] && (s.readNext c).isNone

/-- What a request for storage is answered with: a status (R283) and, for a read, the word. -/
structure MemAns where
  status : Nat := 0
  x : WordRead := { raw := 0, data := 0 }
deriving DecidableEq, Repr

/-- A read of the DRAM word at `a` by master `m`. -/
def State.dramRead (s : State) (m : Master) (a : Nat) : State × MemAns :=
  let (c, l) := s.dramPlace a
  match s.dramGate c l m false with
  | some st => (s, { status := st })
  | none =>
    let s := s.dramRequest c
    if (s.dram c).unfilled l then (s, {})
    else
      let held := (s.dram c).st == .frozen
      let s := if held then s else (s.drainHigh c).drainBurst c a
      if !held && (s.dram c).st == .frozen then (s, { status := 8 })
      else
        let s := s.dramTouch c l
        let x := s.examine a
        if x.guard then
          let s := s.logGrave (dramBase c + 0x8000) (1344 + 16 * c) .guard 0 a 0
          (if held then s else s.freeze c 3 a, { status := 8 })
        else
          let s := if x.ce then s.logChannel c .ce 0 a x.syn else if x.ue then s.logChannel c .ue 0 a x.syn else s
          if x.ue && s.rb (dramBase c) 1 && !held then (s.freeze c 4 a, { status := 8 })
          else (s, { x := x })

/-- Whether a write by `m` meets a directory block, which the puppeteer alone may write (R165). -/
def State.dirGuard (s : State) (m : Master) (a : Nat) : Bool :=
  let d := (s.rg (bootBase + 0x1000)).toNat + s.rf (bootBase + 0x1004) 0 8 * 2 ^ 32 + 0x10000000
  m != .puppeteer && m != .loader && decide (d ≤ a) && decide (a < d + 64 * 0x2000)

/-- A write to the DRAM word at `a` by master `m`, of whole slots or of bytes. -/
def State.dramWrite (s : State) (m : Master) (a : Nat) (slots : BitVec 12) (bytes : BitVec 32) (d : Line) : State × Nat :=
  let (c, l) := s.dramPlace a
  match (if s.dirGuard m a then some 1 else s.dramGate c l m true) with
  | some st => (s, st)
  | none =>
    let s := s.dramRequest c
    if slots = 0 ∧ bytes = 0 then (s, 0)
    else
      let s := if (s.dram c).unfilled l && 4096 ≤ (s.dram c).skip.length then s.fillTo c (l / 64 * 2 + 2) else s
      if (s.dram c).unfilled l then
        let s := s.dramTouch c l
        let s := s.clearLines (s.dramAddr c (l / 64 * 64)) 2
        let s := s.putLine a (writeMerge 0 false slots bytes d)
        (s.onDram c (fun e => { e with skip := e.skip ++ [l / 64] }), 0)
      else
        let full := 64 ≤ (s.dram c).bursts && !(s.dram c).wq.any (fun w => w.addr / 64 == a / 64)
        let s := if full then s.dramIssueOldest c else s
        if (s.dram c).st = .frozen then (s, 8)
        else ((s.onDram c (fun e => { e with wq := e.wq ++ [{ addr := a, slots := slots, bytes := bytes, data := d }] })).drainMark c, 0)

/-- Whether the channel takes the `n` words from `a` on of a write packet now (R338, R352): it has room for their bursts, in
the skip table for those still to be filled. -/
def State.dramTakes (s : State) (m : Master) (a n : Nat) : Bool :=
  let (c, l) := s.dramPlace a
  if (s.dramGate c l m true).isSome then true
  else
    let bs := ((List.range n).map (fun k => a / 64 * 64 + 64 * k)).filter (fun b => b < a + 32 * n)
    let fill := bs.filter (fun b => (s.dram c).unfilled (s.dramPlace b).2)
    let wait := bs.filter (fun b => !fill.contains b && !(s.dram c).wq.any (fun w => w.addr / 64 == b / 64))
    decide ((s.dram c).bursts + wait.length ≤ 64) && decide ((s.dram c).skip.length + fill.length ≤ 4096)

end Sys2Proof.Machine
end

