-- ==== Sys2Proof/Machine/Routes.lean ====
section
/-! DEFINITION. The mesh of routers and its routing tables (R274, R289). -/

namespace Sys2Proof.Machine

/-- The mesh router or routers that edge router `e` is attached to (R274). -/
def edgeMesh (e : Nat) : List Nat :=
  [[24], [31], [32], [39], [1], [6], [57], [62], [59, 60], [3], [58], [4]].getD (e - 64) []

/-- The edge router attached to mesh router `t`. -/
def meshEdge (t : Nat) : Option Nat := ((List.range 12).map (· + 64)).find? (fun e => (edgeMesh e).contains t)

/-- Where a port leads. -/
inductive Hop where
  | local_
  | next (n : Nat)
  | none_
  | missing
deriving DecidableEq, Repr

/-- An optional neighbour as a hop. -/
def hopTo : Option Nat → Hop
  | some n => .next n
  | none => .missing

/-- Where port `k` of router `t` leads (R289). -/
def portHop (t k : Nat) : Hop :=
  if k = 0xF then .none_
  else if k = 4 then .local_
  else if t < 64 then
    match k with
    | 0 => if 8 ≤ t then .next (t - 8) else .missing
    | 1 => if t % 8 < 7 then .next (t + 1) else .missing
    | 2 => if t < 56 then .next (t + 8) else .missing
    | 3 => if 0 < t % 8 then .next (t - 1) else .missing
    | 5 => hopTo (meshEdge t)
    | _ => .missing
  else if k = 6 then hopTo (edgeMesh t)[0]?
  else if k = 7 then hopTo (edgeMesh t)[1]?
  else .missing

/-- Whether a port code is reserved for a router (R289). -/
def portReserved (t k : Nat) : Bool :=
  if t < 64 then !(k ≤ 5 || k == 0xF) else !(k == 4 || k == 6 || k == 0xF || (k == 7 && t == 72))

/-- The register of bank `b` of router `t` that holds the entry for `d` (R301). -/
def rtReg (b t d : Nat) : Nat := nocBase + 0x10000 + 0x4000 * b + 0x40 * t + 4 * (d / 8)

/-- The entry of bank `b` of router `t` for destination `d`. -/
def State.rtEntry (s : State) (b t d : Nat) : Nat := s.rf (rtReg b t d) (4 * (d % 8)) 4

/-- The routers of a walk from `t` to `d` by bank `b`, `t` first, with how it ends (R291). -/
def State.walk (s : State) (b d : Nat) : Nat → Nat → List Nat × Hop
  | 0, t => ([t], .next t)
  | f + 1, t =>
    match portHop t (s.rtEntry b t d) with
    | .next n => let w := s.walk b d f n; (t :: w.1, w.2)
    | h => ([t], h)

/-- NOC_STATUS.EPOCH. -/
def State.epoch (s : State) : Bool := s.rb (nocBase + 4) 8

/-- Whether router `t` is isolated (R294): a flip whose check included its mark has drained, and no later
flip has passed without the mark. -/
def State.isolated (s : State) (t : Nat) : Bool := s.noc.off.contains t

/-- What a packet from router `a` to router `d` meets (R289, R291, R294): nothing, NO_ROUTE at an entry of
NONE, or a way on which it is lost: a loop, a port its router lacks, an isolated router. -/
def State.way (s : State) (a d : Nat) : Option Nat :=
  if s.isolated a || s.isolated d then some 7
  else match s.walk (b2n s.epoch) d 24 a with
    | (l, .local_) => if l.getLast? = some d then none else some 7
    | (_, .none_) => some 6
    | _ => some 7

/-! Error responses and probes. -/

/-- Sets a NOC_EVT bit and raises its source when enabled (R304). -/
def State.nocEvent (s : State) (k : Nat) : State := s.event (nocBase + 0x74) k (16 + k) (1280 + k)

/-- The event bit of a response status, where it has one (R304). -/
def statusEvent (st : Nat) : Option Nat :=
  match st with
  | 2 => some 0
  | 3 => some 1
  | 6 => some 2
  | 4 => some 3
  | 7 => some 4
  | _ => none

/-- Counts a response with a nonzero status, generated at router `t` for a request from `src` to `dest`
(R283, R302). -/
def State.countStatus (s : State) (st t src dest : Nat) : State :=
  if st = 0 ∨ 8 < st then s
  else
    let s := s.count (nocBase + 0x20 + 4 * st)
    let s := s.setRg (nocBase + 0x70) (BitVec.ofNat 32 (2 ^ 31 + st * 2 ^ 23 + t % 128 * 2 ^ 16 + src % 128 * 2 ^ 7 + dest % 128))
    match statusEvent st with
    | some k => s.nocEvent k
    | none => s

/-- What a probe sees of a packet (R298, R299). -/
structure Seen where
  vn : Bool
  epoch : Bool
  op : Nat
  src : Nat
  dest : Nat
  addr : Nat
  len : Nat
  status : Nat
  tag : Nat

/-- The registers of probe `n` (R303). -/
def probeReg (n : Nat) : Nat := nocBase + 0x100 + 0x40 * n

/-- Whether probe `n` matches a packet at port `port` of router `t` (R298). -/
def State.probeMatches (s : State) (n t port : Nat) (k : Seen) : Bool :=
  let b := probeReg n
  let a := k.addr / 256
  s.rb b 31 && s.rf b 16 7 == t && s.rf b 8 4 == port &&
  (s.rf b 24 2 == 0 || s.rf b 24 2 == 1 + b2n k.vn) && (s.rf b 5 2 == 0 || s.rf b 5 2 == 1 + b2n k.epoch) &&
  s.rb (b + 4) (16 + k.op % 16) &&
  (!s.rb (b + 4) 15 || s.rf (b + 4) 8 7 == k.src) && (!s.rb (b + 4) 7 || s.rf (b + 4) 0 7 == k.dest) &&
  decide ((s.rg (b + 8)).toNat ≤ a) && decide (a ≤ (s.rg (b + 0xC)).toNat) && (!s.rb b 7 || k.status != 0)

/-- The trace record of a packet at probe `n` (R299). -/
def State.traceRecord (s : State) (n : Nat) (k : Seen) : BitVec 120 :=
  BitVec.ofNat 120 (s.now % 2 ^ 32 + k.addr / 32 % 2 ^ 35 * 2 ^ 32 + k.op % 16 * 2 ^ 67 + k.len % 16 * 2 ^ 71 +
    k.src % 128 * 2 ^ 75 + k.dest % 128 * 2 ^ 82 + k.status % 256 * 2 ^ 89 + b2n k.epoch * 2 ^ 97 + b2n k.vn * 2 ^ 98 +
    k.tag % 256 * 2 ^ 99 + n * 2 ^ 107)

/-- A record that the trace buffer does not take (R299, R304). -/
def State.traceLost (s : State) : State := (s.count (nocBase + 0xF4)).raise 1299

/-- A record into the trace buffer, which wraps or stops when full; false where it is dropped (R299). -/
def State.traceStore (s : State) (v : BitVec 120) : State × Bool :=
  let o := nocBase + 0xF0
  if s.rb o 30 then (s.traceLost, false)
  else
    let wp := s.rf o 0 11
    let s := { s with noc := { s.noc with trace := mset 0 s.noc.trace wp (v.zeroExtend 128) } }
    let s := s.setRf o 0 11 (wp + 1)
    (if wp = 2047 then
      if s.rb nocBase 3 then (s.setRb o 30 true).raise 1299 else s.setRb o 31 true
    else s, true)

/-- A record pushed whole through Q_DATA of queue `q`, E on the last sample; false where it has no room
(R298). -/
def State.pushRecord (s : State) (q : Nat) (v : BitVec 120) : State × Bool :=
  let x := mget {} s.queues q
  let b := planeBase (q / 128) + (q % 128) * 0x40
  if x.on && s.rf (b + 8) 0 16 == 0 && x.tail.length + 6 ≤ 16 && x.pkts < 65535 then
    let cs := (List.range 6).map (fun k => ({ v := BitVec.ofNat 20 (fld v (20 * k) 20), e := k == 5 } : Chan))
    let mk := fun c : Chan => ({ c := c, par := (ones c.v 20 + b2n c.e) % 2 == 1 } : QSamp)
    let t := if x.tail = [] ∧ x.unread = 0 ∧ x.head = [] then s.now else x.tmr
    ({ s with queues := mset {} s.queues q { x with tail := x.tail ++ cs.map mk, pkts := x.pkts + 1, tmr := t } }, true)
  else (s, false)

/-- A probe counts a packet that it matches (R298); `room` records more fit into the trace buffer in this NoC
cycle (R299). -/
def State.probeCount (s : State) (n : Nat) (k : Seen) (room : Nat) : State × Nat :=
  let b := probeReg n
  let s := (s.count64 (b + 0x18)).setRg64 (b + 0x20) (s.rg64 (b + 0x20) + k.len + 1)
  let s := s.raiseIf (s.rb b 27 && s.rg (b + 0x14) != 0 && s.rg (b + 0x18) == s.rg (b + 0x14)) (1291 + n)
  let kept := fun x : State × Bool => if x.2 then x.1 else x.1.count (b + 0x28)
  match s.rf b 28 2 with
  | 1 => (kept (if room = 0 then (s.traceLost, false) else s.traceStore (s.traceRecord n k)), room - 1)
  | 2 => (kept (s.pushRecord (s.rf (b + 0x10) 0 9) (s.traceRecord n k)), room)
  | _ => (s, room)

/-- Every probe at one port; the trace buffer takes at most 2 records in a NoC cycle (R299). -/
def State.probeAt (s : State) (t port : Nat) (k : Seen) : State :=
  ((List.range 8).foldl (fun (a : State × Nat) n => if a.1.probeMatches n t port k then a.1.probeCount n k a.2 else a) (s, 2)).1

/-- A packet that travels whole from router `a` to its destination: every probe on its way (R298). -/
def State.probeWay (s : State) (a : Nat) (k : Seen) : State :=
  if (List.range 8).any (fun n => s.rb (probeReg n) 31) then
    (s.walk (b2n k.epoch) k.dest 24 a).1.foldl (fun s t => s.probeAt t (s.rtEntry (b2n k.epoch) t k.dest) k) (s.probeAt a 0xE k)
  else s

/-- What the probes see of a request from router `a` to `d` and of a response to it, from router `at_` (R298). -/
def State.sees (s : State) (vn : Bool) (a d op addr len status : Nat) : Seen :=
  { vn := vn, epoch := s.epoch, op := op, src := a, dest := d, addr := addr, len := len, status := status, tag := 0 }

/-- The opcode of the response to a request (R278). -/
def responseOp (op : Nat) : Nat := if op = 1 then 8 else if op = 4 then 0xA else if op = 5 then 0xB else 9

/-- A response of status `status` leaves router `at_` for router `a`, which issued the request: it is counted
(R283), and where it meets no way back the issuing port times out (R285). -/
def State.answerBack (s : State) (direct : Bool) (at_ a d op addr len status : Nat) : State × Option Nat :=
  let s := s.countStatus status at_ a d
  let s := s.probeWay at_ (s.sees true a a (responseOp op) addr (if status = 0 ∧ (op = 1 ∨ op = 4) then len else 0) status)
  if !direct && (s.way at_ a).isSome then (s.countStatus 7 a a d, some 7) else (s, none)

/-- An access that travels and is answered within one command, from router `a` to router `d` (none where no
row of R280 matches), `f` its effect at the target: its probes, its status and what it answers (R278 to R289).
A request that finds no way is not performed; the issuing port times out. The boot loader's accesses are
`direct`: it writes the routing tables itself (R289, R416). -/
def State.whole {α : Type} (s : State) (direct : Bool) (a : Nat) (dest : Option Nat) (op addr len : Nat)
    (f : State → State × Nat × α) (none_ : α) : State × Nat × α :=
  let d := dest.getD a
  let s := s.probeWay a (s.sees false a d op addr (if op = 1 ∨ op = 4 then 0 else len) 0)
  let back := fun (x : State × Nat × α) (at_ : Nat) =>
    match x.1.answerBack direct at_ a d op addr len x.2.1 with
    | (t, some st) => (t, st, none_)
    | (t, none) => (t, x.2)
  if dest = none then back (s, 3, none_) a
  else match (if direct then none else s.way a d) with
    | none => back (f s) d
    | some 6 => back (s, 6, none_) (((s.walk (b2n s.epoch) d 24 a).1.getLast?).getD a)
    | some _ => (s.countStatus 7 a a d, 7, none_)

end Sys2Proof.Machine
end

