-- ==== Sys2Proof/Machine/Access.lean ====
section
/-! DEFINITION. Storage accesses: MEM cells over port 1 with the march engine's hand-back, and the
middles of the queue engines (R120, R122, R137). -/

namespace Sys2Proof.Machine

/-- The router behind which a master issues its requests (R274). -/
def masterRouter : Master → Nat
  | .host => 72
  | .puppeteer => 75
  | .core _ => 73
  | .sched => 73
  | .dma _ => 72
  | .engine p => [27, 28, 35, 36].getD p 27
  | .derailleur r => r
  | .tunnel r => r
  | .loader => 75
  | .cxp i => [68, 69, 70, 71].getD (i / 4) 70
  | .eth p => [68, 69, 70, 71].getD p 69

/-- The march test of plane `p`. -/
def State.march (s : State) (p : Nat) : March := mget {} s.marches p
/-- Changes the march test of plane `p`. -/
def State.onMarch (s : State) (p : Nat) (f : March → March) : State :=
  { s with marches := mset {} s.marches p (f (s.march p)) }

/-- MT_STAT of plane `p` (R477). -/
def mtStat (p : Nat) : Nat := planeBase p + 0xE004

/-- The bank cycles that a test of one bank takes: 2,560 for each background, or two passes of 3,324 (R456, R457). -/
def March.total (m : March) : Nat :=
  if m.dest then 2560 * (b2n (m.bg.testBit 0) + b2n (m.bg.testBit 1) + b2n (m.bg.testBit 2)) else 6648

/-- Where a destructive test stands at bank cycle `k`: the element M0 to M5 and its row (R456). -/
def destSpot (k : Nat) : Nat × Nat :=
  let k := k % 2560
  if k < 256 then (0, k)
  else if k < 2304 then ((k - 256) / 512 + 1, if k < 1280 then (k - 256) % 512 / 2 else 255 - (k - 256) % 512 / 2)
  else (5, k - 2304)

/-- The number of the element in which a preserving test stands at bank cycle `k`: 13 bank cycles each, 11 at the
first and the last row of a pass (R457). -/
def elementAt (k : Nat) : Nat :=
  k / 3324 * 256 + (if k % 3324 < 11 then 0 else min 255 ((k % 3324 - 11) / 13 + 1))

/-- The bank cycle at which element `n` of a preserving test begins. -/
def elementStart (n : Nat) : Nat := n / 256 * 3324 + (if n % 256 = 0 then 0 else 11 + 13 * (n % 256 - 1))

/-- Where a test stands at bank cycle `k`: the element of a destructive one, the pass of a preserving one, and the
row. -/
def March.spot (m : March) (k : Nat) : Nat × Nat :=
  let k := min k (m.total - 1)
  if m.dest then destSpot k
  else (elementAt k / 256, if elementAt k < 256 then elementAt k else 511 - elementAt k)

/-- The bank cycles of its test that the engine of plane `p` has done: one for each region cycle while it holds the
bank (R202, R456). -/
def State.marchCycles (s : State) (p : Nat) : Nat :=
  let m := s.march p
  if s.rf (mtStat p) 24 3 = 2 then
    m.done + (if s.rb (regionBase (regionOf p (m.cur / 128)) + 0x200) 1 then 10 else 12) * (s.now - m.since) / 8
  else m.done

/-- PASS, ELEMENT and ROW of MT_STAT in a word (R477). -/
def spotWord (dest : Bool) (at_ : Nat × Nat) (v : Word32) : Word32 :=
  setFld (setFld (setBit v 20 (!dest && at_.1 == 1)) 16 4 (if dest then at_.1 else 0)) 8 8 at_.2

/-- MT_STAT as it reads: while a test is in progress PASS, ELEMENT and ROW say where it stands (R477). -/
def State.mtStatRead (s : State) (p : Nat) : Word32 :=
  let m := s.march p
  let v := s.rg (mtStat p)
  if v.getLsbD 31 then spotWord m.dest (m.spot (s.marchCycles p)) v else v

/-- The march engine finishes its element, restores the word and hands bank `b` back (R122, R460). -/
def State.handBack (s : State) (r c b : Nat) : State :=
  let p := planeOf r
  let s := (s.setRb (memctl r c) (12 + b) false).setRb (memctl r c) 17 false
  let t := s.now
  let k := elementStart (elementAt (s.marchCycles p) + 1)
  (s.onMarch p (fun m => { m with since := t, done := k })).setRf (mtStat p) 24 3 3

/-- Whether the march engine has borrowed the bank of a word under a preserving test (R122). -/
def State.lent (s : State) (r c w : Nat) : Bool := s.rb (memctl r c) (12 + w % 4) && !s.rb (memctl r c) 16

/-- A read of a MEM-cell word over port 1, its bank claimed (R116, R120). -/
def State.cellGetNow (s : State) (m : Master) (r c w : Nat) : State × MemAns :=
  if s.portOneAllows m r c w false then
    let (s, x) := s.portOneRead r c w
    (s, { x := x })
  else (s, { status := 1 })

/-- A write of a MEM-cell word over port 1, its bank claimed (R116, R120). -/
def State.cellPutNow (s : State) (m : Master) (r c w : Nat) (slots : BitVec 12) (bytes : BitVec 32) (d : Line) : State × Nat :=
  if s.portOneAllows m r c w true then (s.portOneWrite r c w slots bytes d, 0) else (s, 1)

/-- Answers master `m` for region `r`, and counts a nonzero status (R283). -/
def State.answer (s : State) (m : Master) (a st t : Nat) (d : Nat) : State :=
  (s.countStatus st t (masterRouter m) t).put (.answer m a st d)

/-- What an access to port 1 does once it starts, and what it answers master `m` (R116). -/
def State.portOneDo (s : State) (m : Master) (r c w : Nat) (op : P1Op) : State :=
  let a := cellAddr r c w
  match op with
  | .read => let x := s.cellGetNow m r c w; x.1.answer m a x.2.status r x.2.x.data.toNat
  | .write slots d => let x := s.cellPutNow m r c w slots 0 d; x.1.answer m a x.2 r 0
  | .bytes k d => let x := s.cellPutNow m r c w 0 k d; x.1.answer m a x.2 r 0

/-- The quiet time of a preserving test of the bank begins again (R460). -/
def State.restartQuiet (s : State) (r c w : Nat) : State :=
  let p := planeOf r
  if (s.march p).cur = 128 * planeIdx r + 4 * c + w % 4 then
    let t := s.now
    s.onMarch p (fun m => { m with since := t })
  else s

/-- A preserving test hands the bank of a word back, and the quiet time begins again (R122, R460). -/
def State.claimOne (s : State) (r c w : Nat) : State :=
  (if s.lent r c w then s.handBack r c (w % 4) else s).restartQuiet r c w

/-- An owner access claims its bank. Accesses that wait for the cell are older: they claim theirs and proceed
first (R116, R122). -/
def State.claimBank (s : State) (r c w : Nat) : State :=
  let mine := fun e : Master × Nat × Nat × Nat × P1Op => e.2.1 == r && e.2.2.1 == c
  let l := s.p1Wait.filter mine
  let s := { s with p1Wait := s.p1Wait.filter (fun e => !mine e) }
  (l.foldl (fun s e => (s.claimOne r c e.2.2.2.1).portOneDo e.1 r c e.2.2.2.1 e.2.2.2.2) s).claimOne r c w

/-- A read of a MEM-cell word over port 1 (R116, R120, R122). -/
def State.cellGet (s : State) (m : Master) (r c w : Nat) : State × MemAns :=
  if s.portOneAllows m r c w false then (s.claimBank r c w).cellGetNow m r c w else (s, { status := 1 })

/-- A write of a MEM-cell word over port 1 (R116, R120, R122). -/
def State.cellPut (s : State) (m : Master) (r c w : Nat) (slots : BitVec 12) (bytes : BitVec 32) (d : Line) : State × Nat :=
  if s.portOneAllows m r c w true then (s.claimBank r c w).cellPutNow m r c w slots bytes d else (s, 1)

/-- The region, cell and word at a MEM-cell address (R112). -/
def cellOf (a : Nat) : Option (Nat × Nat × Nat) :=
  if 0x4000000000 ≤ a ∧ a < 0x4004000000 then
    some ((a - 0x4000000000) / 0x100000, a / 0x8000 % 32, a / 0x20 % 1024)
  else none

/-- The core whose local memory holds an address, 16 for the puppeteer (R249). -/
def localOf (a : Nat) : Option Nat :=
  if 0x4100000000 ≤ a ∧ a < 0x4100480000 then some (min 16 ((a - 0x4100000000) / 0x40000)) else none

/-- Local memories and the logbook: whether a NoC write of master `m` to `a` is allowed (R464). -/
def rawWritable (m : Master) (a : Nat) : Bool :=
  a < logbookAddr || (m == .puppeteer && logbookAddr + 0x1000 ≤ a && a < logbookAddr + 0x2000)

/-- A read of a local-memory word: a CE is written back and counted, that of the puppeteer in counter 6 of the
logbook (R250, R312, R329, R468). -/
def State.localGet (s : State) (n a : Nat) : State × MemAns :=
  let x := s.examine a
  let s := if x.ce then
      let s := s.putLine a x.data
      if n < 16 then s.count (0xC0001C + 0x100 * n)
      else s.pokeBytes (logbookAddr + 0x1030) (s.peekBytes (logbookAddr + 0x1030) 8 + 1) 8
    else s
  (s, { x := x })

/-- A write of a local-memory word, of whole slots or of bytes (R250). -/
def State.localPut (s : State) (a : Nat) (slots : BitVec 12) (bytes : BitVec 32) (d : Line) : State :=
  let x := s.examine a
  if slots = 0 ∧ bytes = 0 then s else s.putLine a (writeMerge x.raw x.ue slots bytes d)

/-- The router of a storage target; none where no row of R280 matches. -/
def State.targetRouter (s : State) (a : Nat) : Option Nat :=
  match cellOf a with
  | some (r, _, _) => some r
  | none =>
    if a < 2 ^ 38 then some (s.dramRouter a)
    else if (localOf a).isSome then some (if a < 0x4100400000 then 73 else 75)
    else if logbookAddr ≤ a ∧ a < logbookAddr + 0x800000 then some 75
    else none

/-- A storage-word read at its target (R278, R295). -/
def State.wordRead (s : State) (m : Master) (a : Nat) : State × MemAns :=
  match cellOf a with
  | some (r, c, w) =>
    if s.rf (regionBase r + 0x20C) 0 2 ≠ 0 then (s, { status := 4 }) else s.cellGet m r c w
  | none =>
    if a < 2 ^ 38 then s.dramRead m a
    else match localOf a with
      | some n => s.localGet n a
      | none =>
        if logbookAddr ≤ a ∧ a < logbookAddr + 0x800000 then
          let d := lineAt s.mem a
          (s, { x := { raw := d, data := d } })
        else (s, { status := 3 })

/-- A storage-word write at its target. -/
def State.wordWrite (s : State) (m : Master) (a : Nat) (slots : BitVec 12) (bytes : BitVec 32) (d : Line) : State × Nat :=
  match cellOf a with
  | some (r, c, w) =>
    if s.rf (regionBase r + 0x20C) 0 2 ≠ 0 then (s, 4) else s.cellPut m r c w slots bytes d
  | none =>
    if a < 2 ^ 38 then s.dramWrite m a slots bytes d
    else match localOf a with
      | some n =>
        let s := s.localPut a slots bytes d
        let other := m != if h : n < 16 then .core ⟨n, h⟩ else .puppeteer
        (if other then { s with cores := mupd {} s.cores n (fun c => { c with
          resv := if c.resv = some (a / 32) then none else c.resv }) } else s, 0)
      | none =>
        if logbookAddr ≤ a ∧ a < logbookAddr + 0x800000 then
          if rawWritable m a then
            (s.pokeBytes a (writeMerge (lineAt s.mem a) false slots bytes d).toNat 32, 0)
          else (s, 1)
        else (s, 3)

/-- A storage-word read by master `m`, whole: route, target, answer (R278, R283, R289). -/
def State.wordGet (s : State) (m : Master) (a : Nat) : State × MemAns :=
  let r := s.whole (m == .loader) (masterRouter m) (s.targetRouter a) 1 a 1 (fun s => let x := s.wordRead m a; (x.1, x.2.status, x.2)) {}
  (r.1, { r.2.2 with status := r.2.1 })

/-- A storage-word write by master `m`, whole. -/
def State.wordPut (s : State) (m : Master) (a : Nat) (slots : BitVec 12) (bytes : BitVec 32) (d : Line) : State × Nat :=
  let r := s.whole (m == .loader) (masterRouter m) (s.targetRouter a) (if slots = 0 then 3 else 2) a 1
    (fun s => let x := s.wordWrite m a slots bytes d; (x.1, x.2, ())) ()
  (r.1, r.2.1)

/-- A middle read by the queue engine of plane `p`: its own port to MEM cells, the network to DRAM
(R137, R138). -/
def State.midRead (s : State) (p : Fin 4) (a : Nat) : State × MemAns :=
  match cellOf a with
  | some (r, c, w) => s.cellGet (.engine p) r c w
  | none => s.wordGet (.engine p) a

/-- A middle write by the queue engine of plane `p`. -/
def State.midWrite (s : State) (p : Fin 4) (a : Nat) (slots : BitVec 12) (d : Line) : State × Nat :=
  match cellOf a with
  | some (r, c, w) => s.cellPut (.engine p) r c w slots 0 d
  | none => s.wordPut (.engine p) a slots 0 d

end Sys2Proof.Machine
end

