-- ==== Sys2Proof/Machine/Ops.lean ====
section
/-! DEFINITION. What ends every command: the watermark levels of the enabled queues are evaluated
(R148), and the commands that wait stay as they were. -/

namespace Sys2Proof.Machine

/-- Samples in the middle not yet in the head, staged ones included (R139, R141). -/
def Queue.middle (x : Queue) (simple : Bool) : Nat := if simple then x.wp - x.rp else x.unread

/-- OCC: accepted and not yet popped (R140). -/
def Queue.occ (x : Queue) (simple : Bool) : Nat := x.tail.length + x.middle simple + x.head.length

/-- HELD = OCC + MARKED (R140). -/
def Queue.held (x : Queue) (simple : Bool) : Nat := x.occ simple + x.marked

/-- HL as HELD and HWM give it (R148). -/
def highLevel (hwm held : Nat) : Bool := hwm != 0 && decide (hwm ≤ held)
/-- LL as HELD and LWM give it (R148). -/
def lowLevel (lwm held : Nat) : Bool := decide (held ≤ lwm)

/-- Q_CTRL.MODE of queue `q`. -/
def State.simple (s : State) (q : Nat) : Bool := s.rb (queueBase q) 1
/-- HL that queue `q` must show. -/
def State.wantHigh (s : State) (q : Nat) (x : Queue) : Bool :=
  highLevel (s.rf (queueBase q + 0x1C) 0 28) (x.held (s.simple q))
/-- LL that queue `q` must show. -/
def State.wantLow (s : State) (q : Nat) (x : Queue) : Bool :=
  lowLevel (s.rf (queueBase q + 0x20) 0 28) (x.held (s.simple q))

/-- A queue after the evaluation at the end of a NoC cycle: levels, notices and crossing counts (R148). -/
def Queue.leveled (x : Queue) (h l : Bool) : Queue :=
  { x with hl := h, ll := l,
           hcnt := if h && !x.hl then min 255 (x.hcnt + 1) else x.hcnt,
           lcnt := if l && !x.ll then min 255 (x.lcnt + 1) else x.lcnt,
           notice := setBit (setBit x.notice 0 (x.notice.getLsbD 0 || (h && !x.hl))) 1
             (x.notice.getLsbD 1 || (l && !x.ll)) }

/-- One entry of the queue map after the evaluation. -/
def State.levelEntry (s : State) (e : Nat × Queue) : Nat × Queue :=
  if e.2.on then (e.1, e.2.leveled (s.wantHigh e.1 e.2) (s.wantLow e.1 e.2)) else e

/-- Whether the evaluation raises the source of a queue (R161). -/
def State.levelRaises (s : State) (e : Nat × Queue) : Bool :=
  e.2.on && ((s.wantHigh e.1 e.2 && !e.2.hl && s.rb (queueBase e.1) 8) ||
    (s.wantLow e.1 e.2 && !e.2.ll && s.rb (queueBase e.1) 9))

/-- The evaluation of every enabled queue. -/
def State.settle (s : State) : State :=
  { s with queues := s.queues.map s.levelEntry,
           raised := s.raised ++ (s.queues.filter s.levelRaises).map (fun e => 512 + e.1),
           fresh := s.fresh + 1 }

/-- The sources raised at most once in a NoC or control cycle: queues, line-code logs, network, scheduler,
derailleurs (R161, R198, R247, R304, R327). -/
def oncePerCycle (n : Nat) : Bool :=
  (decide (512 ≤ n) && decide (n < 1024)) ||
  (decide (1024 ≤ n) && decide (n < 1280) && decide (3 ≤ (n - 1024) % 64) && decide ((n - 1024) % 64 < 7)) ||
  (decide (1280 ≤ n) && decide (n ≤ 1290)) || (decide (1344 ≤ n) && decide (n < 1408) && decide ((n - 1344) % 16 < 4)) ||
  (decide (1728 ≤ n) && decide (n < 1733)) || (decide (1856 ≤ n) && decide (n < 1860))

/-- The sources of one cycle, each of those only once. -/
def onceEach (l : List Nat) : List Nat :=
  l.foldl (fun acc n => if oncePerCycle n && acc.contains n then acc else acc ++ [n]) []

/-- The end of a command that leads from `s` to `t`: the levels are evaluated, and what it raised is raised as
in one cycle. -/
def State.cycleEnd (s t : State) : State :=
  let u := t.settle
  { u with raised := u.raised.take s.raised.length ++ onceEach (u.raised.drop s.raised.length) }

/-- What a command answers: its effect `t`, the levels evaluated, the waiting commands of `s`. -/
def finish (s t : State) : Host.Outcome State Fault Refusal :=
  .next { s.cycleEnd t with pending := s.pending }

/-- What a command answers whose engine stops in the fatal path: its effect, or none there (R470). -/
def live (s t : State) : Host.Outcome State Fault Refusal := if s.dead then finish s s else finish s t

/-- Sets notice `k` (HWN, LWN, TMOF, MLOST, PAR, MERR in order) of queue `q` and raises its source
when its NEN bit is 1 (R158, R161). -/
def State.notify (s : State) (q k : Nat) : State :=
  (s.onQueue q (fun x => { x with notice := setBit x.notice k true })).raiseIf (s.rb (queueBase q) (8 + k)) (512 + q)

end Sys2Proof.Machine
end

