-- ==== Sys2Proof/Machine/Queues.lean ====
section
/-! DEFINITION. The stream queues: pushes, ships, staging, pops, simple mode, marks, timeouts, errors and
the check at enable (R133 to R161). -/

namespace Sys2Proof.Machine

/-- The plane of queue `q` (R133). -/
def queuePlane (q : Nat) : Fin 4 := ⟨q / 128 % 4, Nat.mod_lt _ (by decide)⟩
/-- The producer endpoint code of queue `q` (R134). -/
def State.prod (s : State) (q : Nat) : Nat := s.rf (queueBase q + 8) 0 16
/-- The consumer endpoint code. -/
def State.cons (s : State) (q : Nat) : Nat := s.rf (queueBase q + 8) 16 16
/-- The kind of an endpoint code. -/
def endpKind (e : Nat) : Nat := e / 0x1000
/-- The index of an endpoint code. -/
def endpIndex (e : Nat) : Nat := e % 0x1000
/-- The region and port that serve an RPORT code, through a substitution (R134, R191). -/
def State.portOf (s : State) (e : Nat) : Option (Nat × Nat) :=
  if endpKind e = 1 then some (s.physical (endpIndex e / 8 % 64), endpIndex e % 8) else none

/-- MBASE. -/
def State.mbase (s : State) (q : Nat) : Nat := (s.rg (queueBase q + 0xC)).toNat + s.rf (queueBase q + 0x10) 0 8 * 2 ^ 32
/-- C = 12 × MWORDS, at least 1 (R137). -/
def State.ringCap (s : State) (q : Nat) : Nat := max 1 (12 * s.rf (queueBase q + 0x14) 0 24)
/-- The address of a ring offset (R136). -/
def State.ringAddr (s : State) (q o : Nat) : Nat := s.mbase q + o / 12 * 0x20

/-- Samples that hold their ring places (R139). -/
def Queue.placed (x : Queue) : Nat := x.unread + if x.mark.isSome then x.head.length + x.marked else 0
/-- Free places of the middle. -/
def State.ringFree (s : State) (q : Nat) : Nat := s.ringCap q - (s.queue q).placed
/-- Staged samples (R138). -/
def Queue.staged (x : Queue) : Nat := (x.stage.map List.length).sum

/-- A parity error at the tail (`hd` false) or the head (R144, R160). -/
def State.parityError (s : State) (q : Nat) (hd : Bool) : State :=
  let b := planeBase (q / 128)
  let s := (s.count (b + 0x2010)).notify q 4
  s.setRg (b + 0x2014) (BitVec.ofNat 32 (2 ^ 31 + b2n hd * 2 ^ 8 + q % 128))

/-- An error response to a middle access (R152). -/
def State.middleStop (s : State) (q : Nat) : State := (s.onQueue q (fun x => { x with merr := true })).notify q 5

/-- A producer's push (R142, R143, R146): the sample enters the tail where it may. -/
def State.accept (s : State) (q : Nat) (c : Chan) : Option State :=
  let x := s.queue q
  if x.on && x.tail.length < 16 && (!c.e || x.pkts < 65535) then
    let t := s.now
    some (s.setQueue q { x with
      tail := x.tail ++ [QSamp.ofChan c], pkts := x.pkts + b2n c.e,
      tmr := if x.occ (s.simple q) = 0 then t else x.tmr })
  else none

/-- The samples that a producer other than a region holds for its queue (R142). -/
def State.heldBy (s : State) (e : Nat) : List Chan := mget [] s.held e
/-- Such a producer holds further samples. -/
def State.hold (s : State) (e : Nat) (cs : List Chan) : State := { s with held := mupd [] s.held e (· ++ cs) }
/-- The samples that a consumer other than a region has taken. -/
def State.takenBy (s : State) (e : Nat) : List Chan := mget [] s.taken e
/-- Such a consumer is done with the first `n` of them. -/
def State.dropTaken (s : State) (e n : Nat) : State := { s with taken := mupd [] s.taken e (·.drop n) }

/-- Whether the engine sees now what a region sent at NoC time `t`: from the third NoC cycle, at two a ns (R28,
R136). -/
def State.engineSees (s : State) (t : Nat) : Bool := decide (t + 1 ≤ s.noc.ns)

/-- Whether the NoC lets queue `l`'s LINK push into queue `q` through: between planes it needs a way, and an
ordered port holds it while requests of the old epoch to that plane are outstanding (R293). -/
def State.linkOpen (s : State) (l q : Nat) : Bool :=
  let p := queuePlane l
  let a := masterRouter (.engine p)
  let d := masterRouter (.engine (queuePlane q))
  a == d || ((s.way a d).isNone && (s.way d a).isNone &&
    !s.noc.outstanding.any (fun o => o.m == .engine p && o.dest == d && o.epoch != s.epoch))

/-- The next sample that the producer of queue `q` offers completes its push (R142). -/
def State.producerPush (s : State) (q : Nat) : State :=
  match s.portOf (s.prod q) with
  | some (r, i) =>
    match mget [] (s.region r).portWay i with
    | [] => s
    | (n, c) :: rest => match (if s.engineSees n then s.accept q c else none) with
      | none => s
      | some t => t.onRegion r (fun x => { x with portWay := mset [] x.portWay i rest })
  | none =>
    let e := s.prod q
    match s.heldBy e with
    | [] => s
    | c :: rest => match (if endpKind e == 5 && !s.linkOpen (endpIndex e % 512) q then none else s.accept q c) with
      | none => s
      | some t => { t with held := mset [] t.held e rest }

/-- Frees `n` tail places: a region producer's credits set out (R136). -/
def State.tailFreed (s : State) (q n : Nat) : State :=
  match s.portOf (s.prod q) with
  | some (r, i) => s.onRegion r (fun x => { x with credWay := mupd [] x.credWay (64 + i) (· ++ List.replicate n 3) })
  | none => s

/-- The samples of a ship by ring word: word address and the slots with their samples (R137). -/
def shipWords (base cap : Nat) : Nat → List Chan → List (Nat × List (Nat × Chan))
  | _, [] => []
  | o, c :: cs =>
    let o := o % cap
    match shipWords base cap (o + 1) cs with
    | (a, l) :: rest =>
      if a = base + o / 12 * 0x20 ∧ (l.head?.map (·.1)) = some (o % 12 + 1) then (a, (o % 12, c) :: l) :: rest
      else (base + o / 12 * 0x20, [(o % 12, c)]) :: (a, l) :: rest
    | [] => [(base + o / 12 * 0x20, [(o % 12, c)])]

/-- The slots of a ship's word as a mask. -/
def shipMask (l : List (Nat × Chan)) : BitVec 12 := l.foldl (fun m e => setBit m e.1 true) 0

/-- A ship's word as its writer carries it: samples, E, and each group's P (R137, R315). -/
def shipLine (l : List (Nat × Chan)) : Line :=
  mergeSlots 0 false (fun k => (l.find? (fun e => e.1 = k)).map (·.2)) []

/-- The word at rest after every write still due (R138): what a later read delivers. -/
def State.peekLine (s : State) (a : Nat) : Line :=
  let x := s.examine a
  match cellOf a with
  | some (r, c, w) => (s.portOneAhead r c w).raw
  | none => (((s.dram (s.dramPlace a).1).wq.filter (fun w => w.addr == a)).foldl
      (fun (acc : Line × Bool) w => (writeMerge acc.1 acc.2 w.slots w.bytes w.data, false)) (x.raw, x.ue)).1

/-- Writes one word of a ship, and stages it where it is the oldest unread data of the middle and a
staging word is free (R138). The flag says whether the ship still goes on. -/
def State.shipOne (q : Nat) (acc : State × Bool) (w : Nat × List (Nat × Chan)) : State × Bool :=
  let (s, ok) := acc
  if !ok then acc
  else
    let (s, st) := s.midWrite (queuePlane q) w.1 (shipMask w.2) (shipLine w.2)
    if st ≠ 0 then (s.middleStop q, false)
    else
      let d := s.peekLine w.1
      let x := s.queue q
      let n := w.2.length
      let cap := s.ringCap q
      let x := if x.unread = x.staged ∧ x.stage.length < 8 then
          { x with stage := x.stage ++ [w.2.map (fun e => lineChan d e.1)], rd := (x.rd + n) % cap }
        else x
      (s.setQueue q { x with wr := (x.wr + n) % cap, unread := x.unread + n, tail := x.tail.drop n }, true)

/-- A ship of the oldest `n` samples of the tail (R137, R144). -/
def State.shipN (s : State) (q n : Nat) : State :=
  if n = 0 then s
  else
    let x := s.queue q
    let ts := x.tail.take n
    let s := if ts.any QSamp.bad then ts.foldl (fun s t => if t.bad then s.parityError q false else s) s else s
    let ws := shipWords (s.mbase q) (s.ringCap q) x.wr (ts.map QSamp.out)
    let before := x.tail.length
    let s := (ws.foldl (State.shipOne q) (s, true)).1
    s.tailFreed q (before - (s.queue q).tail.length)

/-- How many samples the next ship takes, if one is due (R137). -/
def State.shipDue (s : State) (q : Nat) : Nat :=
  let x := s.queue q
  let free := s.ringFree q
  if !x.on || s.simple q || x.merr then 0
  else
    let full := if 12 ≤ x.tail.length ∧ 12 ≤ free then 12 else 0
    let e := match x.tail.findIdx? (fun t => t.c.e) with
      | some i => if s.rb (queueBase q) 3 && i + 1 ≤ free then i + 1 else 0
      | none => 0
    max full e

/-- A flush: the whole tail ships, as far as the middle has room (R146, R147). -/
def State.flushTail (s : State) (q : Nat) : State :=
  let x := s.queue q
  if s.simple q || x.merr then s else s.shipN q (max (min x.tail.length (s.ringFree q)) (s.shipDue q))

/-- One middle read into staging (R138): the samples of the word at the read offset. -/
def State.middleRead (s : State) (q : Nat) : State :=
  let x := s.queue q
  let left := x.unread - x.staged
  if !x.on || s.simple q || x.merr || left = 0 || 8 ≤ x.stage.length then s
  else
    let cap := s.ringCap q
    let n := min left (min (12 - x.rd % 12) (cap - x.rd))
    let (s, a) := s.midRead (queuePlane q) (s.ringAddr q x.rd)
    if a.status ≠ 0 then s.middleStop q
    else
      let l := (List.range n).map (fun k => lineChan a.x.data (x.rd % 12 + k))
      s.onQueue q (fun x => { x with stage := x.stage ++ [l], rd := (x.rd + n) % cap })

/-- Takes up to `n` samples off the staging words, in order. -/
def takeStaged : Nat → List (List Chan) → List Chan × List (List Chan)
  | _, [] => ([], [])
  | n, l :: rest =>
    if l.length ≤ n then
      let (a, b) := takeStaged (n - l.length) rest
      (l ++ a, b)
    else if n = 0 then ([], l :: rest)
    else (l.take n, l.drop n :: rest)

/-- The head takes staged samples, up to 12 and to its free places (R138). -/
def State.headRefill (s : State) (q : Nat) : State :=
  let x := s.queue q
  if !x.on || s.simple q || x.merr then s
  else
    let (l, rest) := takeStaged (min 12 (16 - x.head.length)) x.stage
    s.setQueue q { x with stage := rest, unread := x.unread - l.length, head := x.head ++ l.map QSamp.ofChan }

/-- The word and slot of sample index `i` of a simple-mode buffer (R141, R111). -/
def State.simpleAt (s : State) (q i : Nat) : Nat × Nat :=
  let b := s.rf (queueBase q + 0x18) 0 14
  let k := s.rf (queueBase q + 0x18) 16 4
  let a := b + i % 2 ^ k
  (s.mbase q + a / 12 * 0x20, a % 12)

/-- Buffer to head, at most one sample (R141). -/
def State.simpleOut (s : State) (q : Nat) : State :=
  let x := s.queue q
  if x.merr || x.wp = x.rp || 16 ≤ x.head.length then s
  else
    let (a, k) := s.simpleAt q x.rp
    let (s, r) := s.midRead (queuePlane q) a
    if r.status ≠ 0 then s.middleStop q
    else s.onQueue q (fun x => { x with rp := x.rp + 1, head := x.head ++ [QSamp.ofChan (lineChan r.x.data k)] })

/-- Tail to buffer, at most one sample (R141). -/
def State.simpleIn (s : State) (q : Nat) : State :=
  let x := s.queue q
  match x.tail with
  | [] => s
  | t :: rest =>
    if x.merr || 2 ^ s.rf (queueBase q + 0x18) 16 4 ≤ x.wp - x.rp then s
    else
      let s := if t.bad then s.parityError q false else s
      let (a, k) := s.simpleAt q x.wp
      let (s, st) := s.midWrite (queuePlane q) a (setBit 0 k true) (shipLine [(k, t.out)])
      if st ≠ 0 then s.middleStop q
      else (s.onQueue q (fun x => { x with wp := x.wp + 1, tail := rest })).tailFreed q 1

/-- The moves of one NoC cycle in simple mode (R141, R153). -/
def State.simpleMove (s : State) (q : Nat) : State :=
  if (s.queue q).on && s.simple q then (s.simpleOut q).simpleIn q else s

/-- The ring offset of the consumer's read position (R149). -/
def State.readPos (s : State) (q : Nat) : Nat :=
  let x := s.queue q
  let cap := s.ringCap q
  (x.rd + 2 * cap - (x.staged + x.head.length) % cap) % cap

/-- A mark takes effect at the read position (R149). -/
def State.markNow (s : State) (q : Nat) : State :=
  let o := s.readPos q
  let t := s.now
  s.onQueue q (fun x => { x with mark := some o, marked := 0, markPkts := 0, mpend := false, mlostf := false, mtmr := t })

/-- The consumer pops the sample at the head (R136, R143, R144, R146, R149). -/
def State.popHead (s : State) (q : Nat) : Option (State × Chan) :=
  let x := s.queue q
  match x.head with
  | [] => none
  | h :: rest =>
    let t := s.now
    let s := if h.bad then s.parityError q true else s
    let c := h.out
    let m := b2n x.mark.isSome
    let s := s.onQueue q (fun x => { x with
      head := rest, pkts := x.pkts - b2n c.e, atBound := c.e, tmr := t,
      marked := x.marked + m, markPkts := x.markPkts + m * b2n c.e })
    some (if x.mpend && c.e then s.markNow q else s, c)

/-- Region `r`'s oldest pop on the way through port `i` is applied (R136). -/
def State.regionPop (s : State) (q r i : Nat) : State :=
  if mget [] (s.region r).popWay i = [] then s
  else match s.popHead q with
    | none => s
    | some (t, _) => t.onRegion r (fun x => { x with popWay := mupd [] x.popWay i List.tail })

/-- The samples that Q2H moves: as many as it has popped, up to LEN / 4 or the one with E (R402). -/
def q2hTake (d : Desc) (l : List Chan) : List Chan :=
  let l := l.take (d.len / 4)
  if d.stope then
    match l.findIdx? (·.e) with
    | some i => l.take (i + 1)
    | none => l
  else l

/-- Whether the popped samples complete a Q2H descriptor. -/
def q2hWhole (d : Desc) (l : List Chan) : Bool := l.length == d.len / 4 || (d.stope && (l.getLast?.map (·.e)).getD false)

/-- Whether consumer `e`, which is no region, register or queue, takes a sample: a DMA channel does for a Q2H
descriptor that wants more (R402). -/
def State.wants (s : State) (e : Nat) : Bool :=
  endpKind e != 4 || match mget none s.host.jobs (endpIndex e) with
    | some j => j.desc.op == 4 && !q2hWhole j.desc (q2hTake j.desc (s.takenBy e))
    | none => false

/-- A pop by the consumer of queue `q`: a region's pop lands once the engine sees it, or the MAC, DMA channel or
linked queue takes a sample (R134, R136). -/
def State.popNow (s : State) (q : Nat) : State :=
  let e := s.cons q
  match s.portOf e with
  | some (r, i) =>
    match mget [] (s.region r).popWay i with
    | t :: _ => if s.engineSees t then s.regionPop q r i else s
    | [] => s
  | none =>
    if endpKind e = 5 then
      let l := endpIndex e % 512
      let k := 0x5000 + q
      if 16 ≤ (s.queue l).tail.length + (s.heldBy k).length then s
      else match s.popHead q with
        | none => s
        | some (t, c) => t.hold k [c]
    else if endpKind e = 0 || !s.wants e then s
    else match s.popHead q with
      | none => s
      | some (t, c) => { t with taken := mupd [] t.taken e (· ++ [c]) }

/-- The unit of a timeout scale, in ns (R146). -/
def tickUnit (scale : Nat) : Nat := [100, 10000, 1000000, 1000000].getD scale 100

/-- The tick at which a timer of `n` units fires that last started at `t` (R146, R151). -/
def tickAt (t n unit : Nat) : Nat := (t + unit - 1) / unit * unit + n * unit

/-- When the queue timer next fires (R146). -/
def State.queueTick (s : State) (q : Nat) : Nat :=
  let b := queueBase q + 0x24
  tickAt (s.queue q).tmr (s.rf b 0 14) (tickUnit (s.rf b 14 2))

/-- Whether the queue timer fires (R146). -/
def State.queueDue (s : State) (q : Nat) : Bool :=
  (s.queue q).on && s.rf (queueBase q + 0x24) 0 14 != 0 && (s.queue q).occ (s.simple q) != 0 && decide (s.queueTick q ≤ s.now)

/-- The queue timer fires: the notice, the flush, the restart on its tick (R146). -/
def State.queueFire (s : State) (q : Nat) : State :=
  let due := s.queueTick q
  ((s.onQueue q (fun x => { x with tmr := due })).notify q 2).flushTail q

/-- The queue timeout (R146). -/
def State.queueTimeout (s : State) (q : Nat) : State := if s.queueDue q then s.queueFire q else s

/-- Whether the mark timer drops the mark (R151). -/
def State.markDue (s : State) (q : Nat) : Bool :=
  let b := queueBase q + 0x24
  (s.queue q).on && s.rf b 16 14 != 0 && (s.queue q).mark.isSome &&
    decide (tickAt (s.queue q).mtmr (s.rf b 16 14) (tickUnit (s.rf b 30 2)) ≤ s.now)

/-- The mark is dropped (R151). -/
def State.markDrop (s : State) (q : Nat) : State :=
  (s.onQueue q (fun x => { x with mark := none, mlostf := true, marked := 0, markPkts := 0 })).notify q 3

/-- The mark timeout (R151). -/
def State.markTimeout (s : State) (q : Nat) : State := if s.markDue q then s.markDrop q else s

/-- The timeouts of queue `q` that fell due before this NoC cycle (`slack` 1), or no later than in it, come before
what else it applies in it (R153): the mark's, then the queue's. -/
def State.timersFirst (s : State) (q slack : Nat) : State :=
  let due := { s with now := s.now - slack }
  let s := if due.markDue q then s.markDrop q else s
  if due.queueDue q then s.queueFire q else s

/-- SHIP (R137, R153): the ship that is due. -/
def State.shipNext (s : State) (q : Nat) : State :=
  let s := s.timersFirst q 0
  s.shipN q (s.shipDue q)

/-- CONSUMER_POP (R136, R153): a pop comes before the timeouts of its own NoC cycle. -/
def State.consumerPop (s : State) (q : Nat) : State := if (s.queue q).on then (s.timersFirst q 1).popNow q else s

/-- Writes a refusal code to Q_REASON. -/
def State.qRefuse (s : State) (q code : Nat) : State := s.setRf (queueBase q + 4) 0 16 code

/-- Q_CMD.FLUSH (R147). -/
def State.cmdFlush (s : State) (q : Nat) : State :=
  if (s.queue q).on then s.flushTail q else s.qRefuse q 0x0314

/-- Q_CMD.SETMARK (R149). -/
def State.cmdSetmark (s : State) (q : Nat) : State :=
  let x := s.queue q
  if !x.on then s.qRefuse q 0x0314
  else if s.simple q then s.qRefuse q 0x0313
  else if x.atBound then s.markNow q
  else s.onQueue q (fun x => { x with mpend := true })

/-- Q_CMD.RELEASE (R150). -/
def State.cmdRelease (s : State) (q : Nat) : State :=
  let x := s.queue q
  if !x.on then s.qRefuse q 0x0314
  else if s.simple q then s.qRefuse q 0x0313
  else if x.mark.isNone && !x.mpend then s.qRefuse q 0x0310
  else s.onQueue q (fun x => { x with mark := none, marked := 0, markPkts := 0, mpend := false })

/-- Whether the sequencer of a region is OFF or HALTED. -/
def State.seqIdle (s : State) (r : Nat) : Bool := (s.region r).st == .off || (s.region r).st == .halted

/-- Whether DMA channel `c` has a descriptor in progress (R413). -/
def State.dmaActive (s : State) (c : Nat) : Bool := s.rf (0x71001C + 0x40 * c) 0 3 == 2

/-- Whether the consumer of queue `q` keeps a REWIND out (R150). -/
def State.consumerActive (s : State) (q : Nat) : Bool :=
  let e := s.cons q
  match s.portOf e with
  | some (r, _) => !s.seqIdle r
  | none => (endpKind e == 4 && s.dmaActive (endpIndex e)) || (endpKind e == 5 && (s.queue (endpIndex e % 512)).on)

/-- Every pop still on its way from a halted region is applied (R150). -/
def State.popsLand (s : State) (q : Nat) : State :=
  match s.portOf (s.cons q) with
  | some (r, i) => iter (fun s => s.regionPop q r i) (mget [] (s.region r).popWay i).length s
  | none => s

/-- Q_CMD.REWIND (R150). -/
def State.cmdRewind (s : State) (q : Nat) : State :=
  let x := s.queue q
  if !x.on then s.qRefuse q 0x0314
  else if s.simple q then s.qRefuse q 0x0313
  else match x.mark with
    | none => s.qRefuse q (if x.mlostf then 0x0311 else 0x0310)
    | some _ =>
      if s.consumerActive q then s.qRefuse q 0x0312
      else
        let s := s.popsLand q
        let t := s.now
        let x := s.queue q
        let s := s.setQueue q { x with
          unread := x.unread + x.head.length + x.marked, head := [], stage := [],
          rd := x.mark.getD x.rd, pkts := x.pkts + x.markPkts, marked := 0, markPkts := 0, atBound := true,
          mtmr := t, tmr := if x.occ false = 0 then t else x.tmr }
        match s.portOf (s.cons q) with
        | some (r, i) => s.onRegion r (fun y => { y with portVis := mset 0 y.portVis i 0, visWay := mset [] y.visWay i [] })
        | none => s

/-- A read of Q_DATA by master `m` (R159): the word it delivers, or access refused. -/
def State.qDataGet (s : State) (q : Nat) : State × Nat × Word32 :=
  if s.cons q ≠ 0 then (s, 1, 0)
  else if !(s.queue q).on then (s, 0, 0)
  else match s.popHead q with
    | none => (s, 0, 0)
    | some (t, c) => (t, 0, BitVec.ofNat 32 (2 ^ 31 + b2n c.p * 2 ^ 21 + b2n c.e * 2 ^ 20 + c.v.toNat))

/-- A write of Q_DATA (R142, R159): the status it is answered with. -/
def State.qDataPut (s : State) (q : Nat) (v : Word32) : State × Nat :=
  if s.prod q ≠ 0 then (s, 1)
  else match s.accept q { v := BitVec.ofNat 20 (fld v 0 20), e := v.getLsbD 20, p := v.getLsbD 21 } with
    | none => (s, 1)
    | some t => (t, 0)

/-- Whether an endpoint code names an endpoint that can act in its role (R134, R374, R381). -/
def endpOk (e : Nat) (producer : Bool) : Bool :=
  let i := endpIndex e
  match endpKind e with
  | 0 => i == 0
  | 1 => true
  | 2 => producer && i < 16
  | 3 => (i < 32 && i % 8 < 4) || i == 32 || i == 33
  | 4 => i < 16
  | 5 => i < 512
  | _ => false

/-- The region, cell and storage words that the middle or buffer of a queue takes in a MEM cell. -/
def State.queueCell (s : State) (q : Nat) : Option (Nat × Nat × Nat × Nat) :=
  let b := queueBase q
  if s.rb b 1 then
    let lo := s.rf (b + 0x18) 0 14
    (cellOf (s.mbase q)).map (fun (r, c, _) => (r, c, lo / 12, (lo + 2 ^ s.rf (b + 0x18) 16 4 - 1) / 12))
  else if s.rb b 2 then
    (cellOf (s.mbase q)).map (fun (r, c, w) => (r, c, w, w + s.rf (b + 0x14) 0 24 - 1))
  else none

/-- Whether another enabled queue uses words `lo` to `hi` of a cell (R155). -/
def State.cellOverlap (s : State) (q r c lo hi : Nat) : Bool :=
  s.queues.any (fun e => e.2.on && e.1 != q && match s.queueCell e.1 with
    | some (r', c', lo', hi') => r' == r && c' == c && lo ≤ hi' && lo' ≤ hi
    | none => false)

/-- Whether an enabled queue uses a cell (R121). -/
def State.cellQueued (s : State) (r c : Nat) : Bool := s.cellOverlap 512 r c 0 1023

/-- The codes of R155 that queue `q` meets. -/
def State.queueCheck (s : State) (q : Nat) : List Nat :=
  let b := queueBase q
  let simple := s.rb b 1
  let mem := s.rb b 2
  let n := s.rf (b + 0x14) 0 24
  let base := s.mbase q
  let cell := cellOf base
  let k := s.rf (b + 0x18) 16 4
  let lo := s.rf (b + 0x18) 0 14
  let inPlane := match cell with
    | some (r, _, _) => planeOf r == q / 128
    | none => false
  let ends := [(s.prod q, true), (s.cons q, false)]
  codeIf (!simple && (n < 2 || (mem && 1024 < n) || (mem && match cell with
    | some (_, _, w) => 1024 < w + n
    | none => false))) 0x0301 ++
  codeIf (base % 32 != 0 || (if simple then !inPlane || (base / 0x20) % 1024 != 0 || decide (12288 < lo + 2 ^ k)
    else if mem then !inPlane else !(base < 2 ^ 38 && s.dramWithin base (32 * n)))) 0x0302 ++
  codeIf (match s.queueCell q with
    | some (r, c, _, _) => s.owner r c != 2
    | none => false) 0x0303 ++
  codeIf (match s.queueCell q with
    | some (r, c, l, h) => s.cellOverlap q r c l h
    | none => false) 0x0304 ++
  codeIf (ends.any (fun e => !endpOk e.1 e.2)) 0x0305 ++
  codeIf (ends.any (fun e => endpKind e.1 == 1 && (512 ≤ endpIndex e.1 || planeOf (endpIndex e.1 / 8) != q / 128))) 0x0306 ++
  codeIf (ends.any (fun e => endpKind e.1 != 0 && s.queues.any (fun f => f.2.on && f.1 != q &&
    (if e.2 then s.prod f.1 else s.cons f.1) == e.1))) 0x0307 ++
  codeIf ((endpKind (s.prod q) == 5 && s.cons (endpIndex (s.prod q) % 512) != 0x5000 + q) ||
    (endpKind (s.cons q) == 5 && s.prod (endpIndex (s.cons q) % 512) != 0x5000 + q)) 0x0308 ++
  codeIf (simple && (k < 4 || 13 < k || lo % 2 ^ k != 0 || 12288 < lo + 2 ^ k)) 0x0309 ++
  codeIf (s.rf (b + 0x1C) 0 28 != 0 && s.rf (b + 0x1C) 0 28 ≤ s.rf (b + 0x20) 0 28) 0x030A ++
  codeIf (s.rf (b + 0x24) 14 2 == 3 || s.rf (b + 0x24) 30 2 == 3) 0x030B

/-- The input port that a queue serves when it starts or stops presents nothing. -/
def State.headReset (s : State) (q : Nat) : State :=
  match s.portOf (s.cons q) with
  | some (r, i) => s.onRegion r (fun x => { x with
      portVis := mset 0 x.portVis i 0, visWay := mset [] x.visWay i [], popWay := mset [] x.popWay i [] })
  | none => s

/-- The output port that feeds a queue that starts has 16 credits, but for the samples it still holds (R136,
R142). -/
def State.tailReset (s : State) (q : Nat) : State :=
  match s.portOf (s.prod q) with
  | some (r, i) => s.onRegion r (fun x => { x with
      credUsed := mset 0 x.credUsed (64 + i) (mget [] x.portWay i).length, credWay := mset [] x.credWay (64 + i) [] })
  | none => s

/-- Q_CTRL as a register (R157). -/
def qCtrlSpec (q : Nat) : RegSpec := { rw := 0x3F08#32, rwl := 0x6#32, en := queueBase q }

/-- A write of Q_CTRL with EN = 1 (R155, R8). -/
def State.queueEnable (s : State) (q : Nat) (v : Word32) : State :=
  let b := queueBase q
  let was := s.rb b 0
  let s := s.writeFields b (qCtrlSpec q) v
  if was then s
  else
    let (s, ok) := s.enableCheck b (b + 4) (s.queueCheck q)
    if !ok then s
    else
      let s := (s.headReset q).tailReset q
      let x := s.queue q
      let y : Queue := { on := true, hcnt := x.hcnt, lcnt := x.lcnt, notice := x.notice }
      s.setQueue q { y with hl := s.wantHigh q y, ll := s.wantLow q y }

/-- A write of Q_CTRL with EN = 0 (R154, R9): contents and mark are discarded. -/
def State.queueDisable (s : State) (q : Nat) (v : Word32) : State :=
  let b := queueBase q
  let s := if (s.queue q).on then s.headReset q else s
  let s := s.setRb b 0 false
  let x := s.queue q
  let s := s.setQueue q { hcnt := x.hcnt, lcnt := x.lcnt, notice := x.notice }
  s.writeFields b (qCtrlSpec q) v

/-! The commands of the queues. -/

/-- PRODUCER_PUSH (R142). -/
def execProducerPush (q : Fin 512) (s : State) : Host.Outcome State Fault Refusal := live s ((s.timersFirst q 0).producerPush q)
/-- CONSUMER_POP (R136). -/
def execConsumerPop (q : Fin 512) (s : State) : Host.Outcome State Fault Refusal := live s (s.consumerPop q)
/-- SHIP (R137). -/
def execShip (q : Fin 512) (s : State) : Host.Outcome State Fault Refusal := live s (s.shipNext q)
/-- MIDDLE_READ (R138). -/
def execMiddleRead (q : Fin 512) (s : State) : Host.Outcome State Fault Refusal := live s ((s.timersFirst q 0).middleRead q)
/-- HEAD_REFILL (R138). -/
def execHeadRefill (q : Fin 512) (s : State) : Host.Outcome State Fault Refusal := live s ((s.timersFirst q 0).headRefill q)
/-- SIMPLE_MODE_MOVE (R141). -/
def execSimpleModeMove (q : Fin 512) (s : State) : Host.Outcome State Fault Refusal := live s ((s.timersFirst q 0).simpleMove q)
/-- QUEUE_TIMEOUT (R146). -/
def execQueueTimeout (q : Fin 512) (s : State) : Host.Outcome State Fault Refusal := live s (s.queueTimeout q)
/-- FLUSH (R147). -/
def execFlush (q : Fin 512) (s : State) : Host.Outcome State Fault Refusal := live s ((s.timersFirst q 0).cmdFlush q)
/-- SETMARK (R149). -/
def execSetmark (q : Fin 512) (s : State) : Host.Outcome State Fault Refusal := live s ((s.timersFirst q 0).cmdSetmark q)
/-- REWIND (R150). -/
def execRewind (q : Fin 512) (s : State) : Host.Outcome State Fault Refusal := live s ((s.timersFirst q 0).cmdRewind q)
/-- RELEASE (R150). -/
def execRelease (q : Fin 512) (s : State) : Host.Outcome State Fault Refusal := live s ((s.timersFirst q 0).cmdRelease q)
/-- MARK_TIMEOUT (R151). -/
def execMarkTimeout (q : Fin 512) (s : State) : Host.Outcome State Fault Refusal := live s (s.markTimeout q)
/-- MIDDLE_ERROR (R152): an error response to a middle access of an enabled queue. -/
def execMiddleError (q : Fin 512) (s : State) : Host.Outcome State Fault Refusal :=
  live s (if (s.queue q).on then s.middleStop q else s)
/-- The answer of queue `q`'s Q_DATA to master `m`, counted where it is refused (R159, R283). -/
def State.qDataAnswer (s : State) (m : Master) (q st d : Nat) : State :=
  let t := masterRouter (.engine (queuePlane q))
  (s.countStatus st t (masterRouter m) t).put (.answer m (0x4200000000 + queueBase q + 0x3C) st d)

/-- Q_DATA_READ (R153, R159). -/
def execQDataRead (m : Master) (q : Fin 512) (s : State) : Host.Outcome State Fault Refusal :=
  let r := (s.timersFirst q 1).qDataGet q
  finish s (r.1.qDataAnswer m q r.2.1 r.2.2.toNat)
/-- Q_DATA_WRITE (R153, R159). -/
def execQDataWrite (m : Master) (q : Fin 512) (v : Word32) (s : State) : Host.Outcome State Fault Refusal :=
  let r := (s.timersFirst q 0).qDataPut q v
  finish s (r.1.qDataAnswer m q r.2 0)
/-- QUEUE_ENABLE (R155): a write of Q_CTRL that sets EN. -/
def execQueueEnable (q : Fin 512) (v : Word32) (s : State) : Host.Outcome State Fault Refusal := live s (s.queueEnable q v)
/-- QUEUE_DISABLE (R154): a write of Q_CTRL that clears EN. -/
def execQueueDisable (q : Fin 512) (v : Word32) (s : State) : Host.Outcome State Fault Refusal := live s (s.queueDisable q v)

end Sys2Proof.Machine
end

