-- ==== Sys2Proof/Machine/Sched.lean ====
section
/-! DEFINITION. The task scheduler: records, commands, ready lists, delays, takers and dispatch
(R222 to R247). -/

namespace Sys2Proof.Machine

/-- The scheduler block (R244). -/
def schBase : Nat := 0x500000

/-- Changes the scheduler. -/
def State.onSched (s : State) (f : Sched → Sched) : State := { s with sched := f s.sched }

/-- Sets a SCH_EVT bit and raises its source when enabled (R246, R247). -/
def State.schEvent (s : State) (k : Nat) : State := s.event (schBase + 0x54) k (8 + k) (1728 + k)

/-- SCH_CTRL.EN. -/
def State.schOn (s : State) : Bool := s.rb schBase 0
/-- SPILLBASE (R238). -/
def State.spillBase (s : State) : Nat := (s.rg (schBase + 8)).toNat + s.rf (schBase + 0xC) 0 8 * 2 ^ 32
/-- Whether places in DRAM may be taken (R237, R241). -/
def State.spillOk (s : State) : Bool := s.rb schBase 2 && !s.sched.spillErr

/-! Records. -/

/-- The status word of a record (R246). -/
def Task.status (t : Task) (onchip : Bool) : Nat :=
  t.st.code * 2 ^ 29 + b2n t.dly * 2 ^ 28 + b2n t.rerun * 2 ^ 27 + b2n t.cxp * 2 ^ 26 + b2n t.pin * 2 ^ 25 +
  b2n onchip * 2 ^ 24 + t.taker % 128 * 2 ^ 16 + t.cls % 16 * 2 ^ 10 + t.prio % 64

/-- A record as it lies in the record table (R238). -/
def Task.line (t : Task) : Line :=
  BitVec.ofNat 256 (packFields [(t.status false, 4), (t.arg.toNat, 4), (t.wake, 8), (t.dcnt, 2)])

/-- A record read from the record table, poisoned where R240 says. -/
def taskOfLine (x : WordRead) : Task :=
  let d := x.data
  let v := BitVec.ofNat 32 (fld d 0 32)
  { st := taskStateOf (fld v 29 3), prio := fld v 0 6, cls := fld v 10 4, pin := bit v 25, taker := fld v 16 7,
    dly := bit v 28, rerun := bit v 27, cxp := bit v 26, arg := BitVec.ofNat 32 (fld d 32 32),
    wake := fld d 64 64, dcnt := fld d 128 16, bad := x.ue || fld d 252 3 != 0 }

/-- The address of a record in the record table. -/
def State.recAddr (s : State) (id : Nat) : Nat := s.spillBase + 0x20 * id

/-- A record as it stands, without an access (R246). -/
def State.taskPeek (s : State) (id : Nat) : Task :=
  match mget none s.sched.tasks id with
  | some t => t
  | none => if s.rb schBase 2 then taskOfLine (s.examine (s.recAddr id)) else {}

/-- Spilling stops (R241). -/
def State.spillStops (s : State) : State := (s.onSched (fun c => { c with spillErr := true })).schEvent 2

/-- Writes to the spill area; false where an error response stops spilling (R241). -/
def State.spillWrite (s : State) (a : Nat) (bytes : BitVec 32) (d : Line) : State × Bool :=
  let (s, st) := if bytes = 0xFFFFFFFF#32 then s.wordPut .sched a 0xFFF#12 0 d else s.wordPut .sched a 0 bytes d
  if st = 0 then (s, true) else (s.spillStops, false)

/-- Records on chip. -/
def Sched.onChip (c : Sched) : List (Nat × Task) := c.tasks.filterMap (fun e => e.2.map (fun t => (e.1, t)))

/-- The records that may leave the chip: unpinned ones, where spilling has stopped only those that the record table
holds as they are (R237, R241). -/
def State.victims (s : State) : List (Nat × Task) :=
  s.sched.onChip.filter (fun e => !e.2.pin && s.rb schBase 2 &&
    (!s.sched.spillErr || (s.examine (s.recAddr e.1)).data == e.2.line))

/-- Makes room for one record on chip: an unpinned record returns to the record table (R237). A record whose write
fails stays. -/
def State.makeRoom (s : State) : State × Bool :=
  if s.sched.onChip.length < 4096 then (s, true)
  else
    let l := s.victims
    match l[Config.cacheVictim s.fresh l.length % l.length]? with
    | none => (s, false)
    | some (id, t) =>
      let (s, ok) := if s.sched.spillErr then (s, true) else s.spillWrite (s.recAddr id) 0xFFFFFFFF#32 t.line
      let s := { s with fresh := s.fresh + 1 }
      (if ok then s.onSched (fun c => { c with tasks := mdel id c.tasks }) else s, ok)

/-- Stores a record on chip; false where no place can be had. -/
def State.putTask (s : State) (id : Nat) (t : Task) : State × Bool :=
  let set := fun s : State => s.onSched (fun c => { c with tasks := mset none c.tasks id (some t) })
  if (mget none s.sched.tasks id).isSome then (set s, true)
  else
    let (s, ok) := s.makeRoom
    (if ok then set s else s, ok)

/-- Stores a record that has a place. -/
def State.keepTask (s : State) (id : Nat) (t : Task) : State := (s.putTask id t).1

/-- A level without a task's ready entry. -/
def Level.without (l : Level) (id : Nat) : Level :=
  match l.ids.findIdx? (· == id) with
  | none => l
  | some i =>
    if i < l.on then { l with ids := l.ids.eraseIdx i, on := l.on - 1 }
    else { l with ids := l.ids.eraseIdx i, slots := l.slots.eraseIdx (i - l.on) }

/-- Removes a task's ready entry, wherever it stands (R230, R240). -/
def State.dropReady (s : State) (id : Nat) : State :=
  s.onSched (fun c => { c with lvls := c.lvls.map (fun e => (e.1, e.2.without id)) })

/-- The address of place `i` of the delay list (R238). -/
def State.delayAddr (s : State) (i : Nat) : Nat := s.spillBase + 0xA00000 + 16 * (i % 65536)

/-- Writes delay entries to the places from `i` on, sorted as they are (R237, R238); false once a write fails. -/
def State.delayWrite (s : State) (i : Nat) : List DelayEnt → State × Bool
  | [] => (s, true)
  | e :: rest =>
    let a := s.delayAddr i
    let (s, ok) := s.spillWrite (a / 32 * 32) (if a % 32 = 0 then 0x3FF#32 else 0x3FF0000#32)
      (BitVec.ofNat 256 (packFields [(e.wake, 8), (e.id, 2)] * 256 ^ (a % 32)))
    if ok then s.delayWrite (i + 1) rest else (s, false)

/-- Removes a task's delay entry; the delay list stays sorted and without a gap (R238). -/
def State.dropDelay (s : State) (id : Nat) : State :=
  match s.sched.dly.findIdx? (fun e => e.id == id) with
  | none => s
  | some i =>
    let c := s.sched
    let l := c.dly.eraseIdx i
    if i < c.dlyOn then s.onSched (fun c => { c with dly := l, dlyOn := c.dlyOn - 1 })
    else
      let s := s.onSched (fun c => { c with dly := l, dlyHd := if i = c.dlyOn then c.dlyHd + 1 else c.dlyHd })
      if i = c.dlyOn || c.spillErr then s else (s.delayWrite (c.dlyHd + (i - c.dlyOn)) (l.drop i)).1

/-- Quarantines a task (R240). -/
def State.quarantine (s : State) (id : Nat) (t : Task) : State :=
  let s := (s.dropReady id).dropDelay id
  let s := s.keepTask id { t with st := .quar, dly := false, bad := false }
  let n := min 4095 (s.rf (schBase + 0x58) 16 12 + 1)
  (s.setRg (schBase + 0x58) (BitVec.ofNat 32 (2 ^ 31 + n * 2 ^ 16 + id))).schEvent 0

/-- Reads a record: on chip, or from the record table; a poisoned one is quarantined (R239, R240). -/
def State.taskGet (s : State) (id : Nat) : State × Task :=
  match mget none s.sched.tasks id with
  | some t => if t.bad then (s.quarantine id t, { t with st := .quar, dly := false, bad := false }) else (s, t)
  | none =>
    if !s.rb schBase 2 then (s, {})
    else
      let (s, a) := s.wordGet .sched (s.recAddr id)
      if a.status ≠ 0 then (s.spillStops, {})
      else
        let t := taskOfLine a.x
        if t.bad then (s.quarantine id t, { t with st := .quar, dly := false, bad := false }) else (s, t)

/-! Ready lists and delays. -/

/-- On-chip ready entries beyond the levels' own 8 (R237). -/
def Sched.shared (c : Sched) : Nat := (c.lvls.map (fun e => e.2.on - 8)).sum
/-- On-chip ready entries. -/
def Sched.rdyOn (c : Sched) : Nat := (c.lvls.map (fun e => e.2.on)).sum

/-- The address of place `i` of a level's ring (R238). -/
def State.ringAt (s : State) (lvl i : Nat) : Nat := s.spillBase + 0x200000 + 0x20000 * lvl + 2 * (i % 65536)

/-- Writes an entry to place `i` of a level's ring (R238). -/
def State.ringWrite (s : State) (lvl i id : Nat) : State × Bool :=
  let a := s.ringAt lvl i
  let k := a % 32
  s.spillWrite (a / 32 * 32) (BitVec.ofNat 32 (3 * 2 ^ k)) (BitVec.ofNat 256 (id * 256 ^ k))

/-- The first place of a ring from `k` on that no entry holds. -/
def freePlace (l : List Nat) : Nat → Nat → Nat
  | 0, k => k % 65536
  | f + 1, k => if l.contains (k % 65536) then freePlace l f (k + 1) else k % 65536

/-- Replaces a level. -/
def State.setLevel (s : State) (lvl : Nat) (l : Level) : State :=
  s.onSched (fun c => { c with lvls := mset {} c.lvls lvl l })

/-- Whether a level may hold one more entry on chip: its reserve or the shared pool has room (R237). -/
def State.levelRoom (s : State) (lvl : Nat) : Bool :=
  decide ((mget {} s.sched.lvls lvl).on < 8) || decide (s.sched.shared < 1536)

/-- Places an entry at the tail of a level; false where it has no room (R237). -/
def State.pushReady (s : State) (id lvl : Nat) : State × Bool :=
  let l := mget {} s.sched.lvls lvl
  if l.on = l.ids.length ∧ s.levelRoom lvl then (s.setLevel lvl { l with ids := l.ids ++ [id], on := l.on + 1 }, true)
  else if s.spillOk then
    let k := freePlace l.slots (l.slots.length + 1) l.tl
    let (s, ok) := s.ringWrite lvl k id
    (if ok then s.setLevel lvl { l with ids := l.ids ++ [id], slots := l.slots ++ [k], tl := k + 1 } else s, ok)
  else (s, false)

/-- A spill entry is lost: it is counted (R241). -/
def State.entryLost (s : State) : State := (s.count (schBase + 0x60)).schEvent 2

/-- Reads a word of the spill area for an entry: false where the entry is to be discarded (R241). -/
def State.entryRead (s : State) (a : Nat) : State × Bool :=
  let (s, x) := s.wordGet .sched (a / 32 * 32)
  if x.status ≠ 0 then (s.spillStops, false) else (s, !x.x.ue)

/-- Reads the spilled ready entry `i` of a level; one found uncorrectable is discarded: its task is IDLE (R241). -/
def State.readyRead (s : State) (lvl i : Nat) : State × Bool :=
  let l := mget {} s.sched.lvls lvl
  let (s, ok) := s.entryRead (s.ringAt lvl (l.slots.getD (i - l.on) 0))
  if ok then (s, true)
  else
    let s := match l.ids[i]? with
      | some id => (s.setLevel lvl (l.without id)).keepTask id { (s.taskPeek id) with st := .idle }
      | none => s
    (s.entryLost, false)

/-- Reads the first entry of a level's ring back on chip (R237). -/
def State.refillOne (s : State) (lvl : Nat) : State :=
  let l := mget {} s.sched.lvls lvl
  if l.ids.length ≤ l.on then s
  else
    let (s, ok) := s.readyRead lvl l.on
    if ok then s.setLevel lvl { l with on := l.on + 1, slots := l.slots.tail } else s

/-- Refills a level that has fewer than 4 entries on chip, up to 8 at a time (R237). -/
def State.refillLevel (s : State) (lvl : Nat) : State :=
  let l := mget {} s.sched.lvls lvl
  if 4 ≤ l.on then s
  else iter (fun s => if s.levelRoom lvl then s.refillOne lvl else s) (min 8 (l.ids.length - l.on)) s

/-- Makes a task ready (R230): an IDLE task gets an entry, a READY one is merged, a RUNNING one reruns. -/
def State.makeReady (s : State) (id : Nat) (t : Task) : State × Bool :=
  match t.st with
  | .idle =>
    let (u, ok) := s.putTask id { t with st := .ready }
    if !ok then (u, false)
    else
      let (v, ok) := u.pushReady id t.prio
      if ok then (v, true) else (v.keepTask id t, false)
  | .running => s.putTask id { t with rerun := true }
  | _ => (s, true)

/-- A task made ready where no command waits for the outcome (R226, R235). -/
def State.readyOrFull (s : State) (id : Nat) (t : Task) : State :=
  let (s, ok) := s.makeReady id t
  if ok then s else s.schEvent 1

/-- The tick in ns (R235). -/
def State.schTick (s : State) : Nat := 100 * s.rf schBase 16 14
/-- The tick boundary at which a wake time expires (R235). -/
def State.expiry (s : State) (wake : Nat) : Nat :=
  let k := max 1 s.schTick
  (wake + k - 1) / k * k

/-- Inserts a delay entry in order of wake time. -/
def insertDelay (e : DelayEnt) : List DelayEnt → List DelayEnt
  | [] => [e]
  | d :: r => if d.wake ≤ e.wake then d :: insertDelay e r else e :: d :: r

/-- Places a delay entry; false where it has no room (R237). The on-chip entries are always the earliest: a
later one goes to DRAM, an earlier one moves the latest there. -/
def State.pushDelay (s : State) (id wake : Nat) : State × Bool :=
  let e : DelayEnt := { wake := wake, id := id, seq := s.fresh, past := decide (wake < s.now) }
  let s := { s with fresh := s.fresh + 1 }
  let c := s.sched
  let l := insertDelay e c.dly
  let i := (l.findIdx? (· == e)).getD 0
  let near := decide (i ≤ c.dlyOn)
  if near && c.dlyOn < 4096 then (s.onSched (fun c => { c with dly := l, dlyOn := c.dlyOn + 1 }), true)
  else if !s.spillOk then (s, false)
  else
    let first := max i c.dlyOn
    let (s, ok) := s.delayWrite (c.dlyHd + (first - c.dlyOn)) (l.drop first)
    (if ok then s.onSched (fun c => { c with dly := l }) else s, ok)

/-- Reads the spilled delay entry `i`; one found uncorrectable is discarded (R241). -/
def State.delayRead (s : State) (i : Nat) (e : DelayEnt) : State × Bool :=
  let (s, ok) := s.entryRead (s.delayAddr (s.sched.dlyHd + (i - s.sched.dlyOn)))
  if ok then (s, true) else (((s.dropDelay e.id).keepTask e.id { (s.taskPeek e.id) with dly := false }).entryLost, false)

/-- Reads delay entries back on chip while fewer than 3,072 remain there (R237, R241). -/
def State.refillDelay (s : State) : State :=
  if 3072 ≤ s.sched.dlyOn then s
  else iter (fun s => match s.sched.dly[s.sched.dlyOn]? with
    | none => s
    | some e =>
      let (s, ok) := s.delayRead s.sched.dlyOn e
      if ok then s.onSched (fun c => { c with dlyOn := c.dlyOn + 1, dlyHd := c.dlyHd + 1 }) else s)
    (min 8 (s.sched.dly.length - s.sched.dlyOn)) s

/-! Commands. -/

/-- What a scheduler command answers: the state, the refusal code (0 accepted) and CANCEL's outcome. -/
structure SchAns where
  s : State
  code : Nat := 0
  outcome : Nat := 0

/-- A command refused for want of room raises FULL (R237). -/
def SchAns.full (s : State) : SchAns := { s := s.schEvent 1, code := 0x0413 }

/-- Accepted where the task's record and entry found their places. -/
def SchAns.placed (x : State × Bool) : SchAns := if x.2 then { s := x.1 } else .full x.1

/-- A DELAY that is refused leaves the record, and the entry that it would have replaced, as they stood in `u` (R230). -/
def State.undoDelay (s u : State) (id : Nat) (t : Task) : State :=
  ({ s with sched := { u.sched with spillErr := s.sched.spillErr } } : State).keepTask id t

/-- The refusal that a record's state brings to most commands (R230). -/
def schRefusal (t : Task) : Option Nat :=
  match t.st with
  | .free => some 0x0410
  | .quar => some 0x0412
  | _ => none

/-- DEFINE (R230). -/
def State.schDefine (s : State) (id prio cls : Nat) (pin : Bool) (arg : Word32) : SchAns :=
  if !s.schOn then { s := s, code := 0x0415 }
  else
    let (s, t) := s.taskGet id
    if t.st = .ready ∨ t.st = .running ∨ (t.dly ∧ t.st ≠ .quar) then { s := s, code := 0x0411 }
    else if pin && !t.pin && 2048 ≤ (s.sched.onChip.filter (fun e => e.2.pin)).length then { s := s, code := 0x0414 }
    else .placed (s.putTask id { st := .idle, prio := prio, cls := cls, pin := pin, arg := arg, wake := t.wake, dcnt := t.dcnt })

/-- UNDEFINE (R230). -/
def State.schUndefine (s : State) (id : Nat) : SchAns :=
  if !s.schOn then { s := s, code := 0x0415 }
  else
    let (s, t) := s.taskGet id
    if (t.st = .idle ∧ !t.dly) ∨ t.st = .quar then
      .placed (s.putTask id {})
    else { s := s, code := 0x0411 }

/-- READY (R230). -/
def State.schReady (s : State) (id : Nat) : SchAns :=
  if !s.schOn then { s := s, code := 0x0415 }
  else
    let (s, t) := s.taskGet id
    match schRefusal t with
    | some c => { s := s, code := c }
    | none => .placed (s.makeReady id t)

/-- DELAY and DELAYABS, with the wake time they give (R230, R236). -/
def State.schDelay (s : State) (id wake : Nat) : SchAns :=
  if !s.schOn then { s := s, code := 0x0415 }
  else
    let (s, t) := s.taskGet id
    match schRefusal t with
    | some c => { s := s, code := c }
    | none =>
      let (u, ok) := s.putTask id { t with wake := wake, dly := true }
      if !ok then .full u
      else
        let (v, ok) := (u.dropDelay id).pushDelay id wake
        if ok then { s := v } else .full (v.undoDelay u id t)

/-- CANCEL (R230). -/
def State.schCancel (s : State) (id : Nat) : SchAns :=
  if !s.schOn then { s := s, code := 0x0415 }
  else
    let (s, t) := s.taskGet id
    match schRefusal t with
    | some c => { s := s, code := c }
    | none =>
      let had := t.st = .ready ∨ t.dly
      let s := (s.dropReady id).dropDelay id
      let t' := { t with dly := false, rerun := false, cxp := t.cxp || t.st == .running,
                         st := if t.st = .ready then .idle else t.st }
      { s := s.keepTask id t', outcome := if t.st = .running then 2 else if had then 1 else 0 }

/-- SETARG (R230). -/
def State.schSetarg (s : State) (id : Nat) (arg : Word32) : SchAns :=
  if !s.schOn then { s := s, code := 0x0415 }
  else
    let (s, t) := s.taskGet id
    match schRefusal t with
    | some c => { s := s, code := c }
    | none => .placed (s.putTask id { t with arg := arg })

/-- The result of a register command (R245). -/
def SchAns.toReg (a : SchAns) : State :=
  a.s.setRg (schBase + 0x18) (BitVec.ofNat 32 (2 ^ 31 + (if a.code = 0 then 0 else 2 ^ 30) + a.outcome * 2 ^ 16 + a.code))

/-- The result of an event-controller action (R231). -/
def SchAns.toEvent (a : SchAns) (id : Nat) : State :=
  if a.code = 0 then a.s
  else (a.s.setRg (schBase + 0x5C) (BitVec.ofNat 32 (2 ^ 31 + a.code * 2 ^ 16 + id))).schEvent 4

/-! Takers. -/

/-- Completes the task that taker `k` holds, and keeps its report (R226, R240). -/
def State.schComplete (s : State) (k : Nat) : State :=
  match mget none s.sched.holds k with
  | none => s
  | some id =>
    let s := s.onSched (fun c => { c with holds := mset none c.holds k none })
    let (s, t) := s.taskGet id
    if t.st = .quar then s.onSched (fun c => { c with report := mset false c.report k true })
    else
      let s := s.onSched (fun c => { c with report := mset false c.report k t.cxp })
      let u := { t with st := .idle, cxp := false, rerun := false, taker := 0 }
      let s := s.keepTask id u
      if t.rerun then s.readyOrFull id u else s

/-- The task that taker `k` holds is completed, and the CXL of that completion discarded (R228). -/
def State.schDiscard (s : State) (k : Nat) : State :=
  if (mget none s.sched.holds k).isNone then s
  else (s.schComplete k).onSched (fun c => { c with report := mset false c.report k false })

/-- The class mask of a taker as it stands (R225). -/
def State.takerMask (s : State) (k : Nat) : BitVec 16 :=
  if k < 16 then BitVec.ofNat 16 (s.rf (schBase + 0x100 + 4 * k) 0 16)
  else BitVec.ofNat 16 (s.rf (regionBase (k - 16) + 0x20) 0 16)

/-- Gives taker `k` an answer, which then travels to it. -/
def State.giveTaker (s : State) (k : Nat) (g : Given) : State :=
  s.onSched (fun c => { c with given := mset none c.given k (some g) })

/-- Removes the first message of taker `k` of one kind from those on their way. -/
def State.takeMsg (s : State) (k : Nat) (w : Bool) : Option State :=
  if s.sched.way.contains (k, w) then some (s.onSched (fun c => { c with way := c.way.erase (k, w) })) else none

/-- A TAKE request sets out, or a withdrawal (R226, R228). -/
def State.sendTake (s : State) (k : Nat) (w : Bool) : State :=
  s.onSched (fun c => { c with way := c.way ++ [(k, w)] })

/-- A TAKE request arrives (R226, R229). -/
def State.takeArrives (s : State) (k : Nat) : State :=
  match s.takeMsg k false with
  | none => s
  | some s =>
    if !s.schOn then (if k < 16 then s.giveTaker k { task := none } else s)
    else
      let s := s.schComplete k
      if k < 16 ∧ s.rb (schBase + 0x140) k then s.giveTaker k { task := none, cxl := mget false s.sched.report k }
      else
        let m := s.takerMask k
        s.onSched (fun c => { c with waiting := c.waiting ++ [(k, m)] })

/-- The earliest waiting taker that may take a class (R233). -/
def Sched.eligible (c : Sched) (cls : Nat) : Option Nat := (c.waiting.find? (fun w => w.2.getLsbD cls)).map (·.1)

/-- The choice of R233: level, entry and taker. -/
def State.schChoice (s : State) : Option (Nat × Nat × Nat) :=
  (List.range 64).findSome? (fun l => (mget {} s.sched.lvls l).ids.findSome? (fun id =>
    (s.sched.eligible (s.taskPeek id).cls).map (fun k => (l, id, k))))

/-- DISPATCH (R227, R233, R234). -/
def State.dispatch (s : State) : State :=
  if !s.schOn then s
  else match s.schChoice with
    | none => s
    | some (l, id, k) =>
      let lv := mget {} s.sched.lvls l
      let i := (lv.ids.findIdx? (· == id)).getD 0
      let (s, ok) := if i < lv.on then (s, true) else s.readyRead l i
      if !ok then s
      else
        let (s, t) := s.taskGet id
        if t.st ≠ .ready then s
        else
          let s := s.dropReady id
          let s := s.keepTask id { t with st := .running, taker := k, dcnt := min 65535 (t.dcnt + 1) }
          let s := s.onSched (fun c => { c with waiting := c.waiting.filter (fun w => w.1 != k), holds := mset none c.holds k (some id) })
          let s := s.count64 (schBase + 0x68)
          s.giveTaker k { task := some id, arg := t.arg, cxl := mget false s.sched.report k }

/-- One expiry (R235); a spilled entry is read first (R239, R241). -/
def State.expire (s : State) (e : DelayEnt) : State :=
  let late := decide (s.expiry e.wake + 1000 < s.now)
  let i := (s.sched.dly.findIdx? (· == e)).getD 0
  let (s, ok) := if i < s.sched.dlyOn then (s, true) else s.delayRead i e
  if !ok then s
  else
    let s := s.dropDelay e.id
    let (s, t) := s.taskGet e.id
    let t := { t with dly := false }
    let s := s.keepTask e.id t
    let s := if t.st = .quar ∨ t.st = .free then s else s.readyOrFull e.id t
    if late then (s.count (schBase + 0x64)).schEvent 3 else s

/-- The machine time at which a delay entry expires: its tick boundary, or its wake time where that had passed
when the command was applied (R235, R236). -/
def State.expiresAt (s : State) (e : DelayEnt) : Nat := if e.past then e.wake else s.expiry e.wake

/-- The entry that expires next, of those due (R235). -/
def State.nextExpiry (s : State) : Option DelayEnt :=
  let due := s.sched.dly.filter (fun e => s.expiresAt e ≤ s.now)
  due.foldl (fun b e => match b with
    | none => some e
    | some d =>
      if s.expiresAt e < s.expiresAt d ∨ (s.expiresAt e = s.expiresAt d ∧ e.seq < d.seq) then some e else b) none

/-- DELAY_EXPIRY: at most 8 entries in a control cycle (R235). -/
def State.delayExpiry (s : State) : State :=
  if !s.schOn then s
  else iter (fun s => match s.nextExpiry with
    | none => s
    | some e => s.expire e) 8 s

/-- A write of SCH_TKOFF (R228, R229). -/
def State.tkoffWrite (s : State) (v : Word32) : State :=
  let old := s.rf (schBase + 0x140) 0 16
  let s := s.setRf (schBase + 0x140) 0 16 (fld v 0 16)
  ((List.range 16).filter (fun k => v.getLsbD k && !(old.testBit k))).foldl (fun s k =>
    let waits := s.sched.waiting.any (fun w => w.1 == k)
    let s := s.onSched (fun c => { c with waiting := c.waiting.filter (fun w => w.1 != k) })
    if waits then s.giveTaker k { task := none, cxl := mget false s.sched.report k } else s.schDiscard k) s

/-- SCH_CTRL as a register (R245). -/
def schCtrlSpec : RegSpec := { rwl := 0x3FFF0004#32, en := schBase }

/-- The codes of R243. -/
def State.schCheck (s : State) : List Nat :=
  let tick := s.rf schBase 16 14
  codeIf (s.rb schBase 2 && (s.spillBase % 0x1000000 != 0 || !(s.spillBase < 2 ^ 38 && s.dramWithin s.spillBase 0x1000000))) 0x0401 ++
  codeIf (tick == 0 || 10000 < tick) 0x0402

/-- A write of SCH_CTRL (R243, R245); with EN newly 1, spilling starts again (R241). -/
def State.schCtrlWrite (s : State) (v : Word32) : State :=
  if v.getLsbD 0 then
    let was := s.schOn
    let s := s.writeFields schBase schCtrlSpec v
    if was then s
    else
      let (s, ok) := s.enableCheck schBase (schBase + 4) s.schCheck
      if ok then s.onSched (fun c => { c with spillErr := false }) else s
  else (s.setRb schBase 0 false).writeFields schBase schCtrlSpec v

/-! The commands of the scheduler. -/

/-- Writes the operand register of a register command (R245). -/
def State.cmdOpnd (s : State) (v : Word32) : State := s.setRg (schBase + 0x10) v

/-- DEFINE (R230). -/
def execDefine (id : Fin 65536) (prio : Fin 64) (cls : Fin 16) (pin : Bool) (arg : Word32) (s : State) :
    Host.Outcome State Fault Refusal := live s ((s.cmdOpnd arg).schDefine id prio cls pin arg).toReg
/-- UNDEFINE (R230). -/
def execUndefine (id : Fin 65536) (s : State) : Host.Outcome State Fault Refusal := live s (s.schUndefine id).toReg
/-- READY (R230). -/
def execReady (id : Fin 65536) (s : State) : Host.Outcome State Fault Refusal := live s (s.schReady id).toReg
/-- DELAY (R236): the wake time is the time of application plus the operand. -/
def execDelay (id : Fin 65536) (ns : Word32) (s : State) : Host.Outcome State Fault Refusal :=
  live s ((s.cmdOpnd ns).schDelay id (s.now + ns.toNat)).toReg
/-- DELAYABS (R230). -/
def execDelayabs (id : Fin 65536) (wake : BitVec 64) (s : State) : Host.Outcome State Fault Refusal :=
  live s ((s.setRg64 (schBase + 0x20) wake.toNat).schDelay id wake.toNat).toReg
/-- CANCEL (R230). -/
def execCancel (id : Fin 65536) (s : State) : Host.Outcome State Fault Refusal := live s (s.schCancel id).toReg
/-- SETARG (R230). -/
def execSetarg (id : Fin 65536) (arg : Word32) (s : State) : Host.Outcome State Fault Refusal :=
  live s ((s.cmdOpnd arg).schSetarg id arg).toReg
/-- TAKE_REQUEST (R226). -/
def execTakeRequest (k : Fin 80) (s : State) : Host.Outcome State Fault Refusal := live s (s.takeArrives k)
/-- DISPATCH (R233). -/
def execDispatch (s : State) : Host.Outcome State Fault Refusal := live s s.dispatch
/-- DELAY_EXPIRY (R235). -/
def execDelayExpiry (s : State) : Host.Outcome State Fault Refusal := live s s.delayExpiry
/-- SPILL_READ (R237, R239): entries of a level, or the delay entries where none is named, come back
on chip. -/
def execSpillRead (lvl : Option (Fin 64)) (s : State) : Host.Outcome State Fault Refusal :=
  live s (match lvl with
    | some l => s.refillLevel l
    | none => s.refillDelay)
/-- SPILL_ERROR (R241): an error response to a spill access. -/
def execSpillError (s : State) : Host.Outcome State Fault Refusal :=
  live s ((s.onSched (fun c => { c with spillErr := true })).schEvent 2)
/-- SCH_ENABLE (R243): a write of SCH_CTRL that sets EN. -/
def execSchEnable (v : Word32) (s : State) : Host.Outcome State Fault Refusal :=
  live s (s.schCtrlWrite (setBit v 0 true))
/-- SCH_TKOFF_WRITE (R229). -/
def execSchTkoffWrite (v : Word32) (s : State) : Host.Outcome State Fault Refusal := live s (s.tkoffWrite v)

end Sys2Proof.Machine
end

