-- ==== Sys2Proof/Machine/Sha3.lean ====
section
/-! DEFINITION. The FIPS 202 functions that the derailleurs and the security block use (R163, R171, R433), over
numbers: a message, a block and a state are the number whose byte 0 is the least significant. -/

namespace Sys2Proof.Machine

/-- A step of the shift register that gives the bits of the round constants. -/
def iotaShift (r : Nat) : Nat := if r < 128 then 2 * r else (2 * r) ^^^ 0x171

/-- The round constant that starts at shift-register content `r`, with the content behind it: its seven bits go
to places 0, 1, 3, 7, 15, 31 and 63. -/
def iotaConstant (r : Nat) : Nat × Nat :=
  (List.range 7).foldl (fun e j => (iotaShift e.1, e.2 + e.1 % 2 * 2 ^ (2 ^ j - 1))) (r, 0)

/-- The round constants. -/
def iotaConstants : List (BitVec 64) :=
  ((List.range 24).foldl (fun e _ => let c := iotaConstant e.1; (c.1, e.2 ++ [BitVec.ofNat 64 c.2])) (1, [])).2

/-- How far rho turns lane x + 5y: the walk from (1, 0) by (x, y) → (y, 2x + 3y) turns its stop t by the
(t + 1)th triangular number. -/
def rhoTurns : List Nat :=
  ((List.range 24).foldl (fun (e : (Nat × Nat) × List Nat) t =>
    ((e.1.2, (2 * e.1.1 + 3 * e.1.2) % 5), e.2.set (e.1.1 + 5 * e.1.2) ((t + 1) * (t + 2) / 2)))
    ((1, 0), List.replicate 25 0)).2

/-- One round on the 25 lanes, with round constant `c`. -/
def keccakRound (a : List (BitVec 64)) (c : BitVec 64) : List (BitVec 64) :=
  let cols := (List.range 5).map (fun x => (List.range 5).foldl (fun p y => p ^^^ a.getD (x + 5 * y) 0) 0)
  let col := fun x => cols.getD (x % 5) 0
  let turned := a.zipIdx.map (fun e =>
    (e.1 ^^^ col (e.2 + 4) ^^^ (col (e.2 + 1)).rotateLeft 1).rotateLeft (rhoTurns.getD e.2 0))
  let at_ := fun x y => turned.getD ((x + 3 * y) % 5 + 5 * (x % 5)) 0
  (List.range 25).map (fun i =>
    let x := i % 5
    let y := i / 5
    let v := at_ x y ^^^ (at_ (x + 2) y &&& ~~~ at_ (x + 1) y)
    if i = 0 then v ^^^ c else v)

/-- The permutation on a state of 1,600 bits. -/
def keccak (n : Nat) : Nat :=
  let a := (List.range 25).map (fun i => BitVec.ofNat 64 (n / 2 ^ (64 * i)))
  (iotaConstants.foldl keccakRound a).foldr (fun v acc => v.toNat + 2 ^ 64 * acc) 0

/-- A message as a number. -/
def messageNat (m : List (BitVec 8)) : Nat := m.foldr (fun b acc => b.toNat + 256 * acc) 0

/-- Takes in `k` blocks of `rate` bytes of the number `n`. -/
def takeIn (rate : Nat) : Nat → Nat → Nat → Nat
  | 0, _, a => a
  | k + 1, n, a => takeIn rate k (n / 256 ^ rate) (keccak (a ^^^ (n % 256 ^ rate)))

/-- Gives out `n` bytes of states, `rate` bytes of each, with `f` as fuel. -/
def giveOut (rate : Nat) : Nat → Nat → Nat → List (BitVec 8)
  | 0, _, _ => []
  | f + 1, n, a =>
    (List.range (min n rate)).map (fun k => BitVec.ofNat 8 (a / 256 ^ k)) ++ giveOut rate f (n - rate) (keccak a)

/-- The sponge of rate `rate` bytes with `n` bytes of output: behind the message its domain byte, and the top
bit of its last block. -/
def sponge (rate dom n : Nat) (m : List (BitVec 8)) : List (BitVec 8) :=
  let k := m.length / rate + 1
  giveOut rate (n / rate + 1) n
    (takeIn rate k (messageNat m + dom * 256 ^ m.length + 2 ^ (8 * rate * k - 1)) 0)

/-- SHA3-512. -/
def sha3Of512 (m : List (BitVec 8)) : List (BitVec 8) := sponge 72 0x06 64 m
/-- SHA3-256. -/
def sha3Of256 (m : List (BitVec 8)) : List (BitVec 8) := sponge 136 0x06 32 m
/-- SHAKE256 with `n` output bytes. -/
def shake256 (n : Nat) (m : List (BitVec 8)) : List (BitVec 8) := sponge 136 0x1F n m

end Sys2Proof.Machine
end

