-- ==== Sys2Proof/Machine/Derailleur.lean ====
section
/-! DEFINITION. The derailleur: library, preload, arming, the change of half, marks, migration, the
cadence table (R162 to R200). -/

namespace Sys2Proof.Machine

/-- Changes the derailleur of region `r`. -/
def State.onDrl (s : State) (r : Nat) (f : Derailleur → Derailleur) : State :=
  s.onRegion r (fun x => { x with drl := f x.drl })

/-- Sets a DRL_EVT bit and raises the plane's source when enabled (R197, R198). -/
def State.drlEvent (s : State) (r k : Nat) : State :=
  s.event (regionBase r + 0x110) k (8 + k) (1856 + planeOf r)

/-- Writes a code to DRL_REASON. -/
def State.drlReason (s : State) (r code : Nat) : State := s.setRf (regionBase r + 0x108) 0 16 code
/-- Writes a code to REG_REASON (R105). -/
def State.regReason (s : State) (r code : Nat) : State := s.setRf (regionBase r + 4) 0 16 code

/-! The recipe library. -/

/-- LIBBASE (R162, R200). -/
def State.libBase (s : State) : Nat := (s.rg (bootBase + 0x1000)).toNat + s.rf (bootBase + 0x1004) 0 8 * 2 ^ 32
/-- The section of recipe `n` for region `r`. -/
def State.sectionAddr (s : State) (n r : Nat) : Nat := s.libBase + n * 0x400000 + r * 0x10000
/-- The directory block of recipe `n`. -/
def State.dirAddr (s : State) (n : Nat) : Nat := s.libBase + 0x10000000 + n * 0x2000

/-- A derailleur's read of one word: none where it is uncorrectable or answered with an error (R164, R171). -/
def State.rawRead (s : State) (r : Fin 64) (a : Nat) : State × Option Line :=
  let (s, x) := s.wordGet (.derailleur r) a
  (s, if x.status ≠ 0 ∨ x.x.ue then none else some x.x.data)

/-- Reads `n` words from `a` on, and stops at the first that fails (R171). -/
def State.rawRange (s : State) (r : Fin 64) (a : Nat) : Nat → State × Option (List Line)
  | 0 => (s, some [])
  | n + 1 =>
    match s.rawRead r a with
    | (s, none) => (s, none)
    | (s, some d) =>
      match s.rawRange r (a + 32) n with
      | (s, none) => (s, none)
      | (s, some l) => (s, some (d :: l))

/-- A number of `n` bytes at offset `o` of raw words, least significant byte first (R163, R164). -/
def rawField (a : Array Line) (o : Nat) : Nat → Nat
  | 0 => 0
  | n + 1 => (lineByte (a.getD (o / 32) 0) (o % 32)).toNat + 256 * rawField a (o + 1) n

/-- The bytes of raw words, in address order. -/
def rawBytes (l : List Line) : List (BitVec 8) := l.flatMap (fun w => (List.range 32).map (lineByte w))

/-- A map of `n` entries from the values at its keys, the default 0 left out. -/
def mapFrom {w : Nat} (n : Nat) (f : Nat → BitVec w) : Map (BitVec w) :=
  (List.range n).filterMap (fun k => if f k = 0 then none else some (k, f k))

/-- The context-store places that a section's masks name, in order (R166). -/
def maskPlaces (a : Array Line) : List Nat :=
  (List.range 256).flatMap (fun x =>
    let m := rawField a (2 * x) 2
    ((List.range 16).filter (fun k => m.testBit k)).map (fun k => 16 * x + k))

/-- The half that a section describes (R166, R167). -/
def sectionHalf (a : Array Line) : Half :=
  { ctx := (maskPlaces a).zipIdx.filterMap (fun e =>
      let v := BitVec.ofNat 128 (if e.2 < 3840 then rawField a (0x1000 + 16 * e.2) 16 else 0)
      if v = 0 then none else some (e.1, v)),
    seq := mapFrom 256 (fun k => BitVec.ofNat 48 (rawField a (0x200 + 6 * k) 6)),
    vec := mapFrom 8 (fun k => BitVec.ofNat 8 (rawField a (0x800 + k) 1)),
    konst := mapFrom 32 (fun k => BitVec.ofNat 32 (rawField a (0x810 + 4 * k) 4)),
    agu := mapFrom 128 (fun k => BitVec.ofNat 64 (rawField a (0x900 + 8 * k) 8)),
    slotRec := mapFrom 64 (fun k => BitVec.ofNat 64 (rawField a (0xD00 + 8 * k) 8)),
    portRec := mapFrom 8 (fun k => BitVec.ofNat 32 (rawField a (0xF00 + 4 * k) 4)),
    queueRec := mapFrom 8 (fun k => BitVec.ofNat 128 (rawField a (0xF20 + 16 * k) 16)),
    startPc := BitVec.ofNat 8 (rawField a 0x808 1), evtEn := BitVec.ofNat 8 (rawField a 0x809 1),
    taskMask := BitVec.ofNat 16 (rawField a 0x80A 2), markQ := BitVec.ofNat 8 (rawField a 0x80C 1) }

/-- The bits a queue record may hold (R168). -/
def queueRecMask : BitVec 128 := 0x0000007F_0FFFFFFF_0FFFFFFF_000081FF#128

/-- Whether a half holds a reserved bit of a tile constant, a port's park record or a queue record (R194). -/
def Half.badBits (y : Half) : Bool :=
  y.konst.any (fun e => fld e.2 22 10 != 0) || y.portRec.any (fun e => fld e.2 21 10 != 0) ||
  y.queueRec.any (fun e => e.2 &&& ~~~ queueRecMask != 0)

/-- Whether the bytes of a section break the format rules of R194: reserved bytes, the number of mask bits. -/
def sectionBad (a : Array Line) : Bool :=
  let n := (maskPlaces a).length
  rawField a 0x80D 3 != 0 || rawField a 0x890 112 != 0 || rawField a 0xFA0 96 != 0 ||
  rawField a (0x1000 + 16 * min n 3840) (61440 - 16 * min n 3840) != 0 || 3840 < n

/-- Step 5 of R171: the checks on the inactive half of region `r`, which R178 runs again after a shift. -/
def State.stepFive (s : State) (r : Nat) : List Nat :=
  s.halfCheck r ++ codeIf (s.region r).inactive.badBits 0x0138

/-! Preload, arming and the change of half. -/

/-- The PRELOAD command (R170, R171). -/
def State.drlPreload (s : State) (r n : Nat) : State :=
  let d := (s.region r).drl
  if d.st = .empty ∨ d.st = .loaded then
    (s.onRegion r (fun x => x.setInactive {})).onDrl r (fun d => { d with st := .busy, job := .preload n, recInact := n })
  else (s.drlReason r 0x0133).drlEvent r 1

/-- How a preload ends (R171): the half read, with the code of the first step that failed. -/
def State.preloadRead (s : State) (r : Fin 64) (n : Nat) : State × Half × Option Nat :=
  match s.rawRange r (s.dirAddr n) 1 with
  | (s, none) => (s, {}, some 0x0137)
  | (s, some l) =>
    let a := l.toArray
    if rawField a 0 1 % 2 = 0 || !(rawField a 8 8).testBit r then (s, {}, some 0x0135)
    else match s.rawRange r (s.dirAddr n + 0x1000 + 0x40 * r) 2 with
      | (s, none) => (s, {}, some 0x0137)
      | (s, some dg) =>
        match s.rawRange r (s.sectionAddr n r) 2048 with
        | (s, none) => (s, {}, some 0x0137)
        | (s, some sec) =>
          let a := sec.toArray
          let y := sectionHalf a
          if sha3Of512 (rawBytes sec) != rawBytes dg then (s, y, some 0x0136)
          else
            let t := s.onRegion r (fun x => x.setInactive y)
            (s, y, lowestCode (t.stepFive r ++ codeIf (sectionBad a) 0x0138))

/-- PRELOAD_DONE (R171). -/
def State.preloadDone (s : State) (r : Fin 64) : State :=
  match (s.region r).drl.job with
  | .preload n =>
    let (s, y, code) := s.preloadRead r n
    let s := s.onRegion r (fun x => x.setInactive y)
    match code with
    | none => (s.onDrl r (fun d => { d with st := .loaded, job := .idle })).drlEvent r 0
    | some c => ((s.onDrl r (fun d => { d with st := .empty, job := .idle })).drlReason r c).drlEvent r 1
  | _ => s

/-- The codes that refuse an arming (R174). -/
def State.armCodes (s : State) (r n : Nat) : List Nat :=
  let x := s.region r
  codeIf (x.drl.st != .loaded && x.drl.st != .armed) 0x0131 ++ codeIf (x.drl.recInact != n) 0x0132 ++
  s.ownerCheck r x.inactive ++ s.aguCheck r x.inactive

/-- An arming with expected recipe `n` (R174). -/
def State.drlArm (s : State) (r n : Nat) : State :=
  let d := (s.region r).drl
  if d.st = .armed ∧ d.recInact = n then s
  else match lowestCode (s.armCodes r n) with
    | some c => (s.regReason r c).drlEvent r 2
    | none => s.onDrl r (fun d => { d with st := .armed })

/-- DISARM (R170). -/
def State.drlDisarm (s : State) (r : Nat) : State :=
  s.onDrl r (fun d => if d.st = .armed then { d with st := .loaded } else d)

/-- The park samples of the active half enter the output stages of the pins (R180). -/
def State.parkNow (s : State) (r : Nat) : State := s.parkPins r

/-- The changes of R177 but for queue records and marks; the loop stack, INH, FRZ and EVT_RET clear (R89). -/
def State.halfSwap (s : State) (r : Nat) : State :=
  let s := s.onRegion r (fun x => { x with
    h := !x.h, stack := [], inh := false, evtValid := false,
    drl := { x.drl with st := .busy, job := .postShift, recAct := x.drl.recInact, recInact := x.drl.recAct } })
  let y := (s.region r).active
  let b := regionBase r
  let s := s.setRf b 8 8 y.startPc.toNat
  let s := s.setRf (b + 0x10) 0 8 y.evtEn.toNat
  let s := s.setRf (b + 0x20) 0 16 y.taskMask.toNat
  let s := s.setRg64 (b + 0x118) s.now
  (s.drlEvent r 3).parkNow r

/-- A queue record written to its queue (R168). -/
def State.queueRecord (s : State) (v : BitVec 128) : State :=
  if bit v 15 then
    let b := queueBase (fld v 0 9)
    let s := s.setRf (b + 0x1C) 0 28 (fld v 32 28)
    let s := s.setRf (b + 0x20) 0 28 (fld v 64 28)
    let s := s.setRf b 8 6 (fld v 96 6)
    s.setRb b 3 (bit v 102)
  else s

/-- The queues that MARKQ of the active half names (R188). -/
def State.markQueues (s : State) (r : Nat) : List Nat :=
  (List.range 8).filterMap (fun i => if (s.region r).active.markQ.getLsbD i then s.inQueue r i else none)

/-- The change of half at a shift, with queue records and marks (R177, R188): a simple-mode queue refuses its
SETMARK and is not marked. -/
def State.shiftSwap (s : State) (r : Nat) : State :=
  let s := s.halfSwap r
  let s := (s.region r).active.queueRec.foldl (fun s e => s.queueRecord e.2) s
  let qs := (s.markQueues r).filter (fun q => !s.simple q)
  let s := (s.markQueues r).foldl (fun s q => (s.timersFirst q 0).cmdSetmark q) s
  s.onDrl r (fun d => { d with marked := qs, marks := !qs.isEmpty })

/-- SWAP on a region that is OFF or HALTED (R170, R179). -/
def State.drlSwap (s : State) (r n : Nat) : State :=
  let d := (s.region r).drl
  match lowestCode (codeIf (d.st != .loaded && d.st != .armed) 0x0131 ++ codeIf (d.recInact != n) 0x0132 ++
      codeIf (!s.seqIdle r) 0x0134) with
  | some c => (s.regReason r c).drlEvent r 1
  | none => s.halfSwap r

/-- COMMIT (R188). -/
def State.drlCommit (s : State) (r : Nat) : State :=
  let s := (s.region r).drl.marked.foldl (fun s q => (s.timersFirst q 0).cmdRelease q) s
  s.onDrl r (fun d => { d with marked := [], marks := false })

/-- The check after a shift (R178). -/
def State.postShift (s : State) (r : Nat) : State :=
  match (s.region r).drl.job with
  | .postShift =>
    match lowestCode (s.stepFive r) with
    | none => s.onDrl r (fun d => { d with st := .loaded, job := .idle })
    | some c => ((s.onDrl r (fun d => { d with st := .empty, job := .idle })).drlReason r c).drlEvent r 1
  | _ => s

/-- An arming lapses (R121, R174). -/
def State.armLapse (s : State) (r : Nat) : State := s.drlDisarm r

/-! Migration. -/

/-- Whether region `t` is a valid spare of the image (R200). -/
def State.isSpare (s : State) (t : Nat) : Bool :=
  (List.range 8).any (fun j =>
    let o := bootBase + 0x1008 + 4 * (j / 4)
    s.rb o (8 * (j % 4) + 7) && s.rf o (8 * (j % 4)) 6 == t)

/-- The codes that refuse MIGRATE from `r` to `t` (R189, R194). -/
def State.migCodes (s : State) (r t : Nat) : List Nat :=
  let d := (s.region r).drl
  let e := (s.region t).drl
  codeIf (d.st != .empty && d.st != .loaded) 0x0133 ++ codeIf (!s.seqIdle r) 0x0134 ++
  codeIf (!s.isSpare t && !(d.subof && d.peer == t)) 0x0140 ++
  codeIf (s.regionEn t || s.pstate t != 0 || e.subof || (e.st != .empty && e.st != .loaded)) 0x0141 ++
  codeIf (planeOf r != planeOf t) 0x0142 ++ codeIf (s.ownsPin r || s.ownsPin t) 0x0143 ++
  codeIf ((List.range 32).any (fun c => s.owner r c == 2)) 0x0144

/-- MIGRATE (R189). -/
def State.drlMigrate (s : State) (r t : Nat) : State :=
  match lowestCode (s.migCodes r t) with
  | some c => (s.drlReason r c).drlEvent r 1
  | none =>
    let s := s.onDrl r (fun d => { d with wasSt := d.st, st := .migrating, migTo := some t })
    s.onDrl t (fun d => { d with wasSt := d.st, st := .migrating, migFrom := some r })

/-- Copies one stored word of region `r` to the same place of region `t`, read over port 1 (R190, R312). -/
def State.copyWord (t : Nat) (s : State) (r k : Nat) : State :=
  let a := 32 * k
  let b := a - r * 0x100000 + t * 0x100000
  let w := (s.code a).wf
  let (s, x) := s.cellRead r (a / 0x8000 % 32) (k % 1024) 1
  let s := s.putLine b x.data
  { s with codes := mset {} s.codes (b / 32) { wf := w } }

/-- Copies every stored word of every MEM cell of `r` to `t`, with its written flag (R190). -/
def State.copyCells (s : State) (r t : Nat) : State :=
  let s := s.clearLines (cellAddr t 0 0) 0x8000
  let lo := cellAddr r 0 0 / 32
  let ks := (s.codes.filter (fun e => lo ≤ e.1 && e.1 < lo + 0x8000 && e.2.wf != 0)).map (·.1)
  ks.foldl (fun s k => s.copyWord t r k) s

/-- Region cycles enough for everything in flight to land. -/
def State.letLand (s : State) (r : Nat) : State := iter (fun s => s.idleCycle r) 32 s

/-- What region `t` holds after the copy (R190). -/
def migratedRegion (x y : Region) : Region :=
  { y with
    h := x.h, a := x.a, b := x.b, fx := x.fx, fp := x.fp, agu := x.agu, memOut := x.memOut,
    stack := [], inh := false, evtValid := false, delay := none,
    portWay := x.portWay, ports := x.ports, visWay := x.visWay, portVis := x.portVis, popWay := x.popWay,
    credUsed := (List.range 8).foldl (fun m i => mset 0 m (64 + i) (mget 0 x.credUsed (64 + i))) y.credUsed,
    credWay := (List.range 8).foldl (fun m i => mset [] m (64 + i) (mget [] x.credWay (64 + i))) y.credWay,
    drl := { y.drl with st := x.drl.wasSt, recAct := x.drl.recAct, recInact := x.drl.recInact, migFrom := none,
                        marked := x.drl.marked, marks := x.drl.marks } }

/-- What a region keeps once another serves its queue ports (R190, R191): nothing on the way through them. -/
def Region.portsGone (x : Region) : Region :=
  { x with portWay := [], ports := [], visWay := [], portVis := [], popWay := [],
           credUsed := x.credUsed.filter (fun e => e.1 < 64), credWay := x.credWay.filter (fun e => e.1 < 64) }

/-- EN of a region is cleared by a migration: a task it holds is completed (R190, R198, R228). -/
def State.migOff (s : State) (r : Nat) : State :=
  (if s.regionEn r then s.schDiscard (16 + r) else s).setRb (regionBase r) 0 false

/-- The registers of `r` that the copy writes into `t` (R190). -/
def State.copyRegs (s : State) (r t : Nat) : State :=
  let b := regionBase r
  let c := regionBase t
  let s := s.setRf c 8 8 (s.rf b 8 8)
  let s := ([0x10, 0x20, 0x10C] ++ (List.range 8).map (fun i => 0x30 + 4 * i)).foldl (fun (s : State) o => s.setRg (c + o) (s.rg (b + o))) s
  let s := (s.setRg (c + 0xC) 0).setRg64 (c + 0x70) 0
  let s := s.setRg64 (c + 0x80) 0
  (List.range 32).foldl (fun s k => s.setRg (memctl t k) (s.rg (memctl r k))) s

/-- Both regions OFF and EMPTY, no substitution (R198). -/
def State.migFail (s : State) (r t : Nat) : State :=
  [r, t].foldl (fun s k =>
    let s := s.onRegion k (fun x => { x with st := .off, drl := { x.drl with
      st := .empty, migTo := none, migFrom := none, subst := false, subof := false, home := none } })
    ((s.migOff k).drlReason k 0x0137).drlEvent k 5) s
  |>.lbAppend 0x0022 [(r, 4), (t, 4), (0x0137, 4)]

/-- Whether a destructive test holds a bank of the region (R475). -/
def State.testedBank (s : State) (r : Nat) : Bool :=
  (List.range 32).any (fun c => s.rf (memctl r c) 12 4 != 0 && s.rb (memctl r c) 16)

/-- MIGRATION_DONE (R190, R191). -/
def State.migDone (s : State) (r : Nat) : State :=
  match (s.region r).drl.migTo with
  | none => s
  | some t =>
    if s.testedBank r || s.testedBank t then s.migFail r t
    else
      let s := (s.letLand r).letLand t
      let s := (s.copyCells r t).copyRegs r t
      let d := (s.region r).drl
      let place := s.logical r
      let s := s.setRegion t (migratedRegion (s.region r) (s.region t))
      let s := s.onRegion r (fun x => { x.portsGone with st := .off, drl := { x.drl with st := x.drl.wasSt, migTo := none, home := none } })
      let s := s.migOff r
      let s := s.onDrl t (fun e => { e with home := if place = t then none else some place })
      let s := if d.subof && d.peer == t then (s.onDrl r (fun d => { d with subof := false, peer := 0 })).onDrl t (fun d => { d with subst := false, peer := 0 })
        else (s.onDrl r (fun d => { d with subst := true, peer := t })).onDrl t (fun d => { d with subof := true, peer := r })
      ((s.drlEvent r 4).drlEvent t 4).lbAppend 0x0022 [(r, 4), (t, 4), (s.rf (regionBase r + 0x108) 0 16, 4)]

/-! The cadence table. -/

/-- One action of a cadence entry on region `r` (R184). -/
def State.cadAct (s : State) (action n r : Nat) : State :=
  match action with
  | 1 => s.drlPreload r n
  | 2 => s.drlArm r n
  | 3 => s.drlDisarm r
  | _ => s

/-- Cadence entry `n`. -/
def cadReg (n : Nat) : Nat := evBase + 0x8000 + 0x20 * n

/-- Whether cadence entry `n` fires in the control cycle in progress (R183). -/
def State.cadDue (s : State) (n : Nat) : Bool :=
  s.rb (evBase + 0x9000) 0 && s.rb (cadReg n + 8) 31 && decide (s.rg64 (cadReg n) ≤ s.now)

/-- The firing of cadence entry `n` (R183, R184). -/
def State.cadOne (s : State) (n : Nat) : State :=
  let e := cadReg n
  let late := s.cadLate.contains n
  let s := { s with cadLate := s.cadLate.filter (· != n) }
  let s := (s.setRb (e + 8) 31 false).setRb (e + 8) 30 late
  let s := s.setRg (evBase + 0x9004) (BitVec.ofNat 32 (2 ^ 31 + b2n late * 2 ^ 30 + n))
  let act := s.rf (e + 8) 24 4
  let mask := s.rg64 (e + 0x10)
  if act = 4 then s.raise (2032 + s.rf (e + 8) 0 4)
  else ((List.range 64).filter (fun r => mask.testBit r)).foldl (fun s r => s.cadAct act (s.rf (e + 8) 16 6) r) s

/-- CADENCE_FIRE: entry `n` fires once its time has come, after the due entries below it (R185). -/
def State.cadFire (s : State) (n : Nat) : State :=
  if s.cadDue n then ((List.range (n + 1)).filter s.cadDue).foldl State.cadOne s else s

/-- Which entries of the cadence table will fire LATE after a write that set V or EN (R183): those with TIME
past. -/
def State.cadPast (s : State) (n : Nat) : Bool := s.rb (cadReg n + 8) 31 && decide (s.rg64 (cadReg n) < s.now)

/-- A write reached cadence entry `n`: LATE is due where it set V with TIME past (R183, R185). -/
def State.cadWritten (s : State) (n : Nat) (setsV : Bool) : State :=
  { s with cadLate := s.cadLate.filter (· != n) ++ if setsV && s.cadPast n then [n] else [] }

/-- CAD_CTRL.EN rose: every valid entry with TIME past is late (R183). -/
def State.cadRise (s : State) : State := { s with cadLate := (List.range 128).filter s.cadPast }

/-- The park push of output port `i` of region `r`, once its queue has space (R181). -/
def State.parkPush (s : State) (r i : Nat) : State :=
  let x := s.region r
  match s.outQueue r i with
  | none => s
  | some _ =>
    let t := s.noc.ns
    if (mget {} x.ports i).parkWait ∧ mget 0 x.credUsed (64 + i) < 16 then
      let v := mget 0 x.active.portRec i
      let c : Chan := { v := BitVec.ofNat 20 (fld v 0 20), e := true, p := v.getLsbD 20 }
      s.onRegion r (fun x => { x with
        portWay := mupd [] x.portWay i (· ++ [(t, c)]), credUsed := mupd 0 x.credUsed (64 + i) (· + 1),
        lastOut := mset {} x.lastOut (64 + i) c, ports := mset {} x.ports i { pushed := true, lastE := true } })
    else s

/-- Writes REC of DRL_CTRL, as the write that carries a command does (R196). -/
def State.drlRec (s : State) (r n : Nat) : State := s.setRf (regionBase r + 0x100) 16 6 n

/-! The commands of the derailleurs. -/

/-- PRELOAD (R171). -/
def execPreload (r rec : Fin 64) (s : State) : Host.Outcome State Fault Refusal := live s ((s.drlRec r rec).drlPreload r rec)
/-- PRELOAD_DONE (R171). -/
def execPreloadDone (r : Fin 64) (s : State) : Host.Outcome State Fault Refusal := live s (s.preloadDone r)
/-- ARM (R174). -/
def execArm (r rec : Fin 64) (s : State) : Host.Outcome State Fault Refusal := live s ((s.drlRec r rec).drlArm r rec)
/-- DISARM (R170). -/
def execDisarm (r : Fin 64) (s : State) : Host.Outcome State Fault Refusal := live s (s.drlDisarm r)
/-- SWAP (R179). -/
def execSwap (r rec : Fin 64) (s : State) : Host.Outcome State Fault Refusal := live s ((s.drlRec r rec).drlSwap r rec)
/-- COMMIT (R188). -/
def execCommit (r : Fin 64) (s : State) : Host.Outcome State Fault Refusal := live s (s.drlCommit r)
/-- MIGRATE (R189). -/
def execMigrate (r t : Fin 64) (s : State) : Host.Outcome State Fault Refusal :=
  live s ((s.setRf (regionBase r + 0x100) 24 6 t).drlMigrate r t)
/-- MIGRATION_DONE (R190). -/
def execMigrationDone (r : Fin 64) (s : State) : Host.Outcome State Fault Refusal := live s (s.migDone r)
/-- MIGRATION_FAILED (R198). -/
def execMigrationFailed (r : Fin 64) (s : State) : Host.Outcome State Fault Refusal :=
  live s (match (s.region r).drl.migTo with
    | none => s
    | some t => s.migFail r t)
/-- POST_SHIFT_CHECK (R178). -/
def execPostShiftCheck (r : Fin 64) (s : State) : Host.Outcome State Fault Refusal := live s (s.postShift r)
/-- PARK_PUSH (R181). -/
def execParkPush (r : Fin 64) (i : Fin 8) (s : State) : Host.Outcome State Fault Refusal := live s (s.parkPush r i)
/-- CADENCE_FIRE (R183). -/
def execCadenceFire (n : Fin 128) (s : State) : Host.Outcome State Fault Refusal := live s (s.cadFire n)

end Sys2Proof.Machine
end

