-- ==== Sys2Proof/Machine/RegionCmds.lean ====
section
/-! DEFINITION. What happens around a region: arrivals at its border, landings, MEM port 1, the owner of a
MEM cell (R26 to R29, R41, R114 to R122). -/

namespace Sys2Proof.Machine

/-- The least of a list of cycle counts. -/
def leastOf (l : List Nat) : Nat := l.foldl min (l.headD 0)

/-- Whether only the passing of time moves the region on: its sequencer is OFF or HALTED, and its clock
runs (R214). -/
def State.resting (s : State) (r : Nat) : Bool := s.seqIdle r && s.pstate r != 2

/-- Cycles of a region at rest. -/
def State.restingCycles (s : State) (r n : Nat) : State := if s.resting r then iter (fun s => s.idleCycle r) n s else s

/-- The first entry of a list that is still in a tunnel leaves it. -/
def leavesTunnel {α : Type} (left : α → Nat) (set : α → α) : List α → List α
  | [] => []
  | a :: l => if left a = 4 then set a :: l else a :: leavesTunnel left set l

/-- Whether the tunnel at border spoke `i` of region `r` holds what it carries: an ordered port, while requests of
the old epoch to that router are outstanding (R293). -/
def State.tunnelHolds (s : State) (r i : Nat) : Bool :=
  match s.farSide r i with
  | some (n, _) => s.noc.outstanding.any (fun o => o.m == .tunnel (Fin.ofNat 64 n) && o.dest == r && o.epoch != s.epoch)
  | none => false

/-- BORDER_SAMPLE_ARRIVAL (R27, R28, R192): the oldest sample in the tunnel to border input `i` reaches the region's
router; with none there, a region at rest passes the cycles until the next sample on its way to the input, or made
available at a queue port, is readable; in a region that runs they are the cycles of its instructions. -/
def State.borderArrival (s : State) (r i : Nat) : State :=
  let l := mget [] (s.region r).inWay i
  if i < 64 ∧ l.any (fun a => a.1 = 4) then
    if s.tunnelHolds r i then s
    else s.onRegion r (fun x => { x with inWay := mset [] x.inWay i (leavesTunnel (·.1) (fun a => (3, a.2)) l) })
  else s.restingCycles r (leastOf (if i < 64 then (mget [] (s.region r).inWay i).map (·.1) else s.portLefts r (i - 64)))

/-- CREDIT_RETURN (R26, R27, R136): the same for the next credit on its way back to border output `o`. -/
def State.creditArrives (s : State) (r o : Nat) : State :=
  let l := mget [] (s.region r).credWay o
  if l.contains 4 then
    if s.tunnelHolds r o then s
    else s.onRegion r (fun x => { x with credWay := mset [] x.credWay o (leavesTunnel id (fun _ => 3) l) })
  else s.restingCycles r (leastOf l)

/-- The cycles until the next result lands (R41, R42). -/
def State.untilLanding (s : State) (r : Nat) : Nat :=
  leastOf ((s.region r).flights.map (fun f => f.left) ++ (s.region r).rds.map (fun a => a.left))

/-- The cycles until the next write phase (R115, R116). -/
def State.untilWrite (s : State) (r : Nat) : Nat :=
  leastOf ((s.region r).wrs.map (fun f => f.left) ++ (s.region r).p1.map (fun a => a.left) ++ (s.region r).fixes.map (fun f => f.left))

/-- MEM_WRITE_PHASE: a region at rest passes the cycles until its next write phase (R115, R116). -/
def State.writePhaseDue (s : State) (r : Nat) : State := s.restingCycles r (s.untilWrite r)

/-- PORT1_ACCESS (R116, R120, R122, R295): an access to a bank under preserving test, or behind one that waits,
waits for the hand-back. -/
def State.portOneAccess (s : State) (m : Master) (r c w : Nat) (op : P1Op) : State :=
  let wr := match op with
    | .read => false
    | _ => true
  if s.pstate r ≠ 0 then s.answer m (cellAddr r c w) 4 r 0
  else if !s.portOneAllows m r c w wr then s.portOneDo m r c w op
  else if s.lent r c w || s.p1Wait.any (fun e => e.2.1 == r && e.2.2.1 == c) then
    let s := s.setRb (memctl r c) 17 true
    { s with p1Wait := s.p1Wait ++ [(m, r, c, w, op)] }
  else (s.restartQuiet r c w).portOneDo m r c w op

/-- MARCH_HANDBACK (R122): the element is finished, the banks handed back, the waiting accesses proceed. -/
def State.handBackAll (s : State) (p : Nat) : State :=
  let l := s.p1Wait.filter (fun e => planeOf e.2.1 == p)
  let s := { s with p1Wait := s.p1Wait.filter (fun e => planeOf e.2.1 != p) }
  l.foldl (fun s e => (s.claimOne e.2.1 e.2.2.1 e.2.2.2.1).portOneDo e.1 e.2.1 e.2.2.1 e.2.2.2.1 e.2.2.2.2) s

/-- The code that refuses a change of OWNER from `old` to `new` (R121, R313). -/
def State.ownerCodes (s : State) (r c old new : Nat) : List Nat :=
  codeIf ((old == 0 || new == 0) && s.regionEn r) 0x0205 ++
  codeIf (old == 2 && s.cellQueued r c) 0x0206 ++
  codeIf (s.rf (memctl r c) 12 4 != 0) 0x0207 ++
  codeIf (new == 3) 0x0208 ++
  codeIf (s.rb (planeBase (planeOf r) + 0xD020) (planeIdx r)) 0x020A

/-- A write of MEMCTL (R121, R130). -/
def State.ownerWrite (s : State) (r c : Nat) (v : Word32) : State :=
  let o := memctl r c
  let old := s.owner r c
  let new := fld v 0 2
  let noc := if fld v 2 2 = 3 then 0 else fld v 2 2
  let s := (s.setRf o 4 8 (fld v 4 8)).setRf o 2 2 noc
  if old = new then s
  else match lowestCode (s.ownerCodes r c old new) with
    | some k => s.setRg (planeBase (planeOf r) + 0xC800) (BitVec.ofNat 32 k)
    | none =>
      let s := s.setRf o 0 2 new
      if old = 0 ∨ new = 0 then s.armLapse r else s

/-! The commands. -/

/-- BORDER_SAMPLE_ARRIVAL (R27, R28). -/
def execBorderSampleArrival (r : Fin 64) (i : Fin 72) (s : State) : Host.Outcome State Fault Refusal :=
  live s (s.borderArrival r i)
/-- CREDIT_RETURN (R26, R27). -/
def execCreditReturn (r : Fin 64) (o : Fin 72) (s : State) : Host.Outcome State Fault Refusal :=
  live s (s.creditArrives r o)
/-- RESULT_LANDS (R41): in a region that runs, results land within the cycles of its instructions. -/
def execResultLands (r : Fin 64) (s : State) : Host.Outcome State Fault Refusal :=
  live s (s.restingCycles r (s.untilLanding r))
/-- MEM_WRITE_PHASE (R117). -/
def execMemWritePhase (r : Fin 64) (s : State) : Host.Outcome State Fault Refusal := live s (s.writePhaseDue r)
/-- PORT1_ACCESS (R116). -/
def execPort1Access (m : Master) (r : Fin 64) (c : Fin 32) (w : Fin 1024) (op : P1Op) (s : State) :
    Host.Outcome State Fault Refusal := finish s (s.portOneAccess m r c w op)
/-- OWNER_WRITE (R121). -/
def execOwnerWrite (r : Fin 64) (c : Fin 32) (v : Word32) (s : State) : Host.Outcome State Fault Refusal :=
  live s (s.ownerWrite r c v)
/-- MARCH_HANDBACK (R122). -/
def execMarchHandback (p : Fin 4) (s : State) : Host.Outcome State Fault Refusal := live s (s.handBackAll p)

end Sys2Proof.Machine
end

