-- ==== Sys2Proof/Machine/HostLink.lean ====
section
/-! DEFINITION. The host link as such: its registers, MSI-X, resets and training (R391 to R393, R399,
R412, R414). -/

namespace Sys2Proof.Machine

/-- The PCIe block (R412). -/
def pciBase : Nat := 0x700000
/-- DMA channel `c` (R413). -/
def dmaReg (c : Nat) : Nat := 0x710000 + 0x40 * c
/-- The MSI-X table, reached through BAR0 (R394). -/
def msixBase : Nat := 0x1000000

/-- Sets a PCI_EVT bit and raises its source when enabled (R414). -/
def State.pciEvent (s : State) (k : Nat) : State := s.event (pciBase + 8) k (16 + k) (1440 + k)

/-! MSI-X (R399). -/

/-- Changes the host link. -/
def State.onHost (s : State) (f : HostLink → HostLink) : State := { s with host := f s.host }

/-- Whether vector `v` may be sent. -/
def State.msixOpen (s : State) (v : Nat) : Bool :=
  s.host.msixOn && !s.host.fmask && !s.rb (msixBase + 16 * v + 12) 0

/-- The message of vector `v`. -/
def State.msixSend (s : State) (v : Nat) : State :=
  let b := msixBase + 16 * v
  s.put (.msix (s.rg64 b) (s.rg (b + 8)))

/-- Event source `v` reaches the host link: a message, or its pending bit (R399). -/
def State.msixRaise (s : State) (v : Nat) : State :=
  if !s.booted then s
  else if s.msixOpen v then s.msixSend v
  else s.onHost (fun h => { h with pend := mset false h.pend v true })

/-- The messages of the pending vectors that may be sent now, lowest first. -/
def State.msixFlush (s : State) : State :=
  ((s.host.pend.map (·.1)).filter s.msixOpen).foldl
    (fun s v => (s.msixSend v).onHost (fun h => { h with pend := mset false h.pend v false })) s

/-- MSIX_UNMASK (R399): a vector's mask bit is cleared, or MSI-X enable and function mask are written. -/
def State.msixUnmask (s : State) : MsixOp → State
  | .vector v => (s.setRb (msixBase + 16 * v.val + 12) 0 false).msixFlush
  | .control on fmask => (s.onHost (fun h => { h with msixOn := on, fmask := fmask })).msixFlush

/-! Resets and training (R392). -/

/-- The endpoint code of DMA channel `c` (R134). -/
def dmaCode (c : Nat) : Nat := 0x4000 + c

/-- What an error of a descriptor leaves beside its write-back (R403): the channel in ERROR with the code, one more
descriptor ended, and no sample of it waiting. -/
def State.dmaStop (s : State) (c code : Nat) : State :=
  let b := dmaReg c
  let s := s.onHost (fun h => { h with jobs := mset none h.jobs c none })
  let s := { s with held := mset [] s.held (dmaCode c) [], taken := mset [] s.taken (dmaCode c) [] }
  let s := ((s.count (b + 0x20)).setRf (b + 0x1C) 0 3 3).setRf (b + 4) 0 16 code
  s.event (b + 0x24) 1 17 (1409 + 2 * c)

/-- A descriptor in progress stops as ABORT stops it, without a write-back (R392). -/
def State.dmaCut (s : State) (c : Nat) : State :=
  if s.rf (dmaReg c + 0x1C) 0 3 ≠ 2 then s else s.dmaStop c 0x0737

/-- What PERST_N, a link-down and an FLR have in common (R392): DMA stops, the MSI-X table and configuration
space return to their reset values, the host's requests are discarded. -/
def State.hostReset (s : State) : State :=
  let s := (List.range 16).foldl (fun s c => s.dmaCut c) s
  let s := { s with regs := mclear msixBase (msixBase + 0x8000) s.regs }
  let s := s.onHost (fun h => { h with msixOn := false, fmask := false, pend := [], doe := none, cfg := [] })
  let mine := fun o : Outstanding => o.m == .host
  { s with noc := { s.noc with outstanding := s.noc.outstanding.filter (fun o => !mine o),
                               retired := s.noc.retired ++ s.noc.outstanding.filter mine } }

/-- LINKUP changes (R392). -/
def State.linkSet (s : State) (up : Bool) : State :=
  if s.rb pciBase 0 = up then s else (s.setRb pciBase 0 up).pciEvent 0

/-- PERST_N low, or a link-down (R392). -/
def State.hostDown (s : State) : State := s.hostReset.linkSet false

/-- Training ends with speed, width and flit mode (R412, R414). -/
def State.linkTrained (s : State) (speed width : Nat) (flit : Bool) : State :=
  let changed := s.rf pciBase 4 3 != speed || s.rf pciBase 8 3 != width
  let s := ((s.setRf pciBase 4 3 speed).setRf pciBase 8 3 width).setRb pciBase 12 flit
  (if changed then s.pciEvent 1 else s).linkSet true

/-! The commands. -/

/-- PERST (R392). -/
def execPerst (s : State) : Host.Outcome State Fault Refusal := finish s s.hostDown
/-- PCIE_LINK_DOWN (R392). -/
def execPcieLinkDown (s : State) : Host.Outcome State Fault Refusal := finish s s.hostDown
/-- FLR (R392). -/
def execFlr (s : State) : Host.Outcome State Fault Refusal := finish s (s.hostReset.pciEvent 5)
/-- MSIX_UNMASK (R399). -/
def execMsixUnmask (op : MsixOp) (s : State) : Host.Outcome State Fault Refusal := finish s (s.msixUnmask op)
/-- PCIE_LINK_UP (R392): SPEED, WIDTH and FLIT of PCI_STAT. -/
def execPcieLinkUp (speed width : Fin 8) (flit : Bool) (s : State) : Host.Outcome State Fault Refusal :=
  finish s (s.linkTrained speed width flit)

end Sys2Proof.Machine
end

