-- ==== Sys2Proof/Machine/Bytes.lean ====
section
/-! DEFINITION. Byte ranges of the internal address space, read and written by storage words (R164, R250,
R281, R395, R396). -/

namespace Sys2Proof.Machine

/-- What a range read gives: the first error status, whether a word read carries poison, the bytes, each with
whether it is poisoned. -/
structure BytesAns where
  status : Nat := 0
  bad : Bool := false
  bytes : List (BitVec 8 × Bool) := []
deriving DecidableEq, Repr

/-- Byte `k` of a delivered word with its poison (R250). -/
def wordByte (x : Line) (k : Nat) : BitVec 8 × Bool := (lineByte x k, bytesPoisoned x k 1)

/-- Reads `n` bytes from `a` on, at most `f` words, stopping at an error response. -/
def State.bytesRead (s : State) (m : Master) : Nat → Nat → Nat → State × BytesAns
  | 0, _, _ => (s, {})
  | f + 1, a, n =>
    if n = 0 then (s, {})
    else
      let (s, x) := s.wordGet m (a / 32 * 32)
      if x.status ≠ 0 then (s, { status := x.status })
      else
        let k := min n (32 - a % 32)
        let here := (List.range k).map (fun i => wordByte x.x.data (a % 32 + i))
        let (s, r) := s.bytesRead m f (a + k) (n - k)
        (s, { r with bad := r.bad || fld x.x.data 252 4 != 0, bytes := here ++ r.bytes })

/-- Reads `n` bytes from `a` on as master `m`. -/
def State.bytesGet (s : State) (m : Master) (a n : Nat) : State × BytesAns := s.bytesRead m (n / 32 + 2) a n

/-- The bytes that a range write gives one word: its mask and its payload. -/
def wordMask (k : Nat) (l : List (Option (BitVec 8))) : BitVec 32 × Line :=
  l.zipIdx.foldl (fun acc e => match e.1 with
    | some b => (setBit acc.1 (k + e.2) true, lineSetByte acc.2 (k + e.2) b)
    | none => acc) (0, 0)

/-- One word of a range write: whole words as carried, others by their bytes; poisoned data sets all four
groups (R281, R396). -/
def State.wordBytes (s : State) (m : Master) (a : Nat) (mask : BitVec 32) (d : Line) (ep : Bool) : State × Nat :=
  if mask = 0 then (s, 0)
  else
    let d := if ep then linePoison d else plainBytes mask d
    if mask = 0xFFFFFFFF#32 then s.wordPut m a 0xFFF#12 0 d else s.wordPut m a 0 mask d

/-- Writes bytes from `a` on, none for a byte that is not enabled, stopping at an error response; the count
is of bytes written. -/
def State.bytesWrite (s : State) (m : Master) (ep : Bool) : Nat → Nat → List (Option (BitVec 8)) → State × Nat × Nat
  | 0, _, _ => (s, 0, 0)
  | f + 1, a, l =>
    if l = [] then (s, 0, 0)
    else
      let k := min l.length (32 - a % 32)
      let (mask, d) := wordMask (a % 32) (l.take k)
      let (s, st) := s.wordBytes m (a / 32 * 32) mask d ep
      if st ≠ 0 then (s, st, 0)
      else
        let (s, st, n) := s.bytesWrite m ep f (a + k) (l.drop k)
        (s, st, n + k)

/-- Writes bytes from `a` on as master `m`: status and bytes written. -/
def State.bytesPut (s : State) (m : Master) (a : Nat) (l : List (Option (BitVec 8))) (ep : Bool) : State × Nat × Nat :=
  s.bytesWrite m ep (l.length / 32 + 2) a l

/-- Bytes as a number, the first one the least significant. -/
def bytesNat (l : List (BitVec 8)) : Nat := l.foldr (fun b acc => b.toNat + 256 * acc) 0
end Sys2Proof.Machine
end

