-- ==== Sys2Proof/Machine/CoreMem.lean ====
section
/-! DEFINITION. The address map of the cores (R249). -/

namespace Sys2Proof.Machine

/-- Core `n`; 16 is the puppeteer. -/
def State.core (s : State) (n : Nat) : Core := mget {} s.cores n
/-- Changes core `n`. -/
def State.onCore (s : State) (n : Nat) (f : Core → Core) : State := { s with cores := mset {} s.cores n (f (s.core n)) }

/-- What a core address reaches. -/
inductive CoreTarget where
  | local_ (a : Nat)
  | window (a : Nat)
  | reg (o : Nat)
  | engine (o : Nat)
  | none_
deriving DecidableEq, Repr

/-- Where the local memory of core `n` lies (R249). -/
def localBase (n : Nat) : Nat := 0x4100000000 + n * 0x40000
/-- Its size. -/
def localSize (n : Nat) : Nat := if n < 16 then 0x40000 else 0x80000
/-- The engines' registers, reached by the puppeteer alone, as keys of the register file (R249, R433). -/
def engBase : Nat := 0x40000000

/-- What core address `a` of core `n` reaches (R249). -/
def State.coreTarget (s : State) (n a : Nat) : CoreTarget :=
  if a < localSize n then .local_ (localBase n + a)
  else if 0x40000000 ≤ a ∧ a < 0x80000000 then .window ((s.core n).xwin0 * 2 ^ 30 + (a - 0x40000000))
  else if 0x80000000 ≤ a ∧ a < 0xC0000000 then .window ((s.core n).xwin1 * 2 ^ 30 + (a - 0x80000000))
  else if 0xC0000000 ≤ a ∧ a < 0xD0000000 then .reg (a - 0xC0000000)
  else if n = 16 ∧ 0xE0000000 ≤ a ∧ a < 0xE0001000 then .engine (a - 0xE0000000)
  else .none_

/-- The master that core `n` is. -/
def coreMaster (n : Nat) : Master := if h : n < 16 then .core ⟨n, h⟩ else .puppeteer

/-- The internal address of a range of core addresses that lies in one memory. -/
def State.coreRange (s : State) (n a len : Nat) : Option Nat :=
  match s.coreTarget n a, s.coreTarget n (a + len - 1) with
  | .local_ x, .local_ _ => some x
  | .window x, .window y => if y = x + len - 1 then some x else none
  | _, _ => none

end Sys2Proof.Machine
end

