-- ==== Sys2Proof/Machine/CoreCtl.lean ====
section
/-! DEFINITION. The control registers of the cores (R268). -/

namespace Sys2Proof.Machine

/-- The registers of control core `n` (R268). -/
def ccReg (n : Nat) : Nat := 0xC00000 + 0x100 * n

/-- MODE and SPILLBASE of core `n`: CC_CFG, or XTZCFG of the puppeteer (R266, R268). -/
def State.coreCfg (s : State) (n : Nat) : Word32 := if n < 16 then s.rg (ccReg n + 8) else (s.core n).xtzcfg
/-- MODE SPILL. -/
def State.spillMode (s : State) (n : Nat) : Bool := bit (s.coreCfg n) 0
/-- SPILLBASE. -/
def State.frameBase (s : State) (n : Nat) : Nat := fld (s.coreCfg n) 13 19 * 2 ^ 13

/-- The bank of depth `d` of core `n` (R254). -/
def State.bankOf (s : State) (n d : Nat) : Nat := if s.spillMode n && d != 0 then 1 + (d - 1) % 6 else d
/-- The current bank: bank 7 while a spill or fill trap is in progress (R252, R258). -/
def State.curBank (s : State) (n : Nat) : Nat := if (s.core n).held.isSome then 7 else s.bankOf n (s.core n).depth
/-- The banked CSRs of bank `k` of core `n`. -/
def State.bank (s : State) (n k : Nat) : Bank := mget {} (s.core n).banks k
/-- BSTAT.LVL of the current bank, 0x1F at thread level (R253). -/
def State.coreLevel (s : State) (n : Nat) : Nat := fld (s.bank n (s.curBank n)).bstat 8 5
/-- The code of a core's state (R268). -/
def CoreState.code : CoreState → Nat
  | .off => 0 | .run => 1 | .take => 2 | .wfi => 3 | .fatal => 4
/-- CC_STATUS (R268). -/
def State.ccStatus (s : State) (n : Nat) : Nat :=
  (s.core n).st.code * 2 ^ 29 + s.rf (ccReg n + 0x10) 24 5 * 2 ^ 24 + (s.core n).depth % 32 * 2 ^ 8 + s.coreLevel n

/-- The codes of the check at CC_CTRL.EN (R268). -/
def State.ccCheck (s : State) (n : Nat) : List Nat :=
  codeIf (decide (localSize n ≤ (s.rg (ccReg n + 0xC)).toNat / 2 * 2)) 0x0C01 ++
  codeIf (s.spillMode n && decide (localSize n < s.frameBase n + 0x2000)) 0x0C02

/-- The core starts at PC. -/
def State.coreStart (s : State) (n : Nat) : State :=
  let pc : Word32 := BitVec.ofNat 32 ((s.rg (ccReg n + 0xC)).toNat / 2 * 2)
  s.onCore n (fun c => { c with st := .run, pc := pc })

/-- A write of RESET (R268): every bank zeroed, DEPTH 0, LOWRES 1; the pending sources, the FP registers and
the local memory are kept. -/
def State.coreReset (s : State) (n : Nat) : State :=
  let s := s.onCore n (fun c => { c with st := .off, x := [], banks := [], depth := 0, lowres := 1, held := none,
                                          mie := false, user := false, leaving := false, resv := none })
  let s := s.setRf (ccReg n + 0x10) 24 5 0
  if s.rb (ccReg n) 0 then s.coreStart n else s

/-- A write of CC_CTRL (R9, R268). -/
def State.ccCtrlWrite (s : State) (n : Nat) (v : Word32) : State :=
  let b := ccReg n
  let s :=
    if !v.getLsbD 0 then (s.setRb b 0 false).onCore n (fun c => { c with st := if c.st = .fatal then .fatal else .off })
    else if s.rb b 0 then s
    else
      let (s, ok) := s.enableCheck b (b + 4) (s.ccCheck n)
      if ok then s.coreStart n else s
  if bit v 1 then s.coreReset n else s

/-- CC_ENABLE (R268): a write of CC_CTRL that sets EN. -/
def execCcEnable (n : Fin 16) (v : Word32) (s : State) : Host.Outcome State Fault Refusal := live s (s.ccCtrlWrite n (setBit v 0 true))
/-- CC_DISABLE (R268): a write of CC_CTRL that clears EN. -/
def execCcDisable (n : Fin 16) (v : Word32) (s : State) : Host.Outcome State Fault Refusal := live s (s.ccCtrlWrite n (setBit v 0 false))
/-- CC_RESET (R268): a write of CC_CTRL with RESET, EN as it stands. -/
def execCcReset (n : Fin 16) (s : State) : Host.Outcome State Fault Refusal := live s (s.coreReset n)

end Sys2Proof.Machine
end

