-- ==== Sys2Proof/Machine/Sequencer.lean ====
section
/-! DEFINITION. The region sequencer: instructions, loops, branches, waits, tasks, shifts, events, halts
and starts (R72 to R110). -/

namespace Sys2Proof.Machine

/-- The instruction at the program counter of region `r`. -/
def State.instrAt (s : State) (r : Nat) : BitVec 48 := (s.region r).active.instr (s.region r).pc

/-! Halting and kickstand state. -/

/-- On entry to HALTED or OFF: park samples on the pins, and the park pushes that are due (R180, R181). -/
def State.kickstand (s : State) (r : Nat) : State :=
  let x := s.region r
  let due := (List.range 8).filter (fun i =>
    let p := mget {} x.ports i
    p.pushed && !p.lastE && (mget 0 x.active.portRec i).getLsbD 31)
  (s.onRegion r (fun x => { x with
    ports := due.foldl (fun m i => mupd {} m i (fun p => { p with parkWait := true })) x.ports })).parkNow r

/-- A TAKE that is stopped or abandoned withdraws its request (R97, R228). -/
def State.takeStops (s : State) (r : Nat) : State :=
  if (s.region r).st = .take then s.sendTake (16 + r) true else s

/-- The region halts (R90, R92). -/
def State.halt (s : State) (r cause pc : Nat) : State :=
  let s := s.takeStops r
  let s := s.onRegion r (fun x => { x with
    st := .halted, hcause := cause, haltPc := pc, runLeft := 0, entryLeft := 0, delay := none, withdrawing := false })
  ((s.setRb (regionBase r) 1 false).raise (8 * s.logical r + 7)).kickstand r

/-! Boundaries. -/

/-- END matching at address `a` on a loop stack held innermost first (R81, R99): the next address and
the stack. -/
def endMatch (a : Nat) : List LoopEnt → Nat × List LoopEnt
  | [] => (a + 1, [])
  | e :: rest =>
    if !e.frozen && e.stop == a then
      if 1 < e.count then (e.start, { e with count := e.count - 1 } :: rest) else endMatch a rest
    else (a + 1, e :: rest)

/-- The lowest line both pending and enabled (R96); none at the boundary of the cycle that a STOP ends (R93). -/
def State.eventLine (s : State) (r : Nat) : Option Nat :=
  let m := s.rf (regionBase r + 0xC) 0 8 &&& s.rf (regionBase r + 0x10) 0 8
  if (s.region r).lastCycle then none else (List.range 8).find? (fun k => m.testBit k)

/-- Whether a boundary is eligible, but for the kind of instruction (R96). -/
def Region.eligible (x : Region) : Bool := !x.inh && x.stack.all (fun e => e.int)

/-- Event entry on line `k` with return address `ret` (R98). -/
def State.takeEvent (s : State) (r k ret : Nat) : State :=
  let s := s.setRb (regionBase r + 0xC) k false
  s.onRegion r (fun x => { x with
    evtRet := ret, evtValid := true, inh := true, stack := x.stack.map (fun e => { e with frozen := true }),
    entryLeft := 2, st := .entry, pc := (mget 0 x.active.vec k).toNat, runLeft := 0, waited := 0, withdrawing := false })

/-- The choice of the next address at a boundary, then the event check where it is eligible (R81, R96). -/
def State.goNext (s : State) (r next : Nat) (eligible : Bool) : State :=
  if 256 ≤ next then s.halt r 7 255
  else
    let s := s.onRegion r (fun x => { x with pc := next, st := .run, runLeft := 0, waited := 0 })
    match (if eligible && (s.region r).eligible then s.eventLine r else none) with
    | some k => s.takeEvent r k next
    | none => s

/-- The boundary of an instruction at `a` with END matching (R81). -/
def State.boundary (s : State) (r a : Nat) : State :=
  let m := endMatch a (s.region r).stack
  (s.onRegion r (fun x => { x with stack := m.2 })).goNext r m.1 true

/-- The boundary of a delay slot (R82, R100). -/
def State.slotEnd (s : State) (r : Nat) (d : DelaySlot) : State :=
  let s := s.onRegion r (fun x => { x with
    delay := none,
    inh := if d.rete then false else x.inh, evtValid := x.evtValid && !d.rete,
    stack := if d.rete then x.stack.map (fun e => { e with frozen := false }) else x.stack })
  s.goNext r d.target true

/-! Cycles. -/

/-- The entry cycles still to pass (R98). -/
def State.passEntry (s : State) (r : Nat) : State :=
  match (s.region r).st with
  | .entry => (iter (fun s => s.idleCycle r) (s.region r).entryLeft s).onRegion r
      (fun x => { x with st := .run, entryLeft := 0 })
  | _ => s

/-- Runs the cycles left of a RUN, at most `lim` of them, until one stalls (R47, R76, R78). -/
def State.runCycles (r c : Nat) : Nat → Nat → State → State
  | 0, _, s =>
    match (s.region r).delay with
    | some d => s.slotEnd r d
    | none => s.boundary r (s.region r).pc
  | n + 1, 0, s => s.onRegion r (fun x => { x with runLeft := n + 1 })
  | n + 1, lim + 1, s =>
    match s.regionCycle r c with
    | (t, true) => t.onRegion r (fun x => { x with st := .stall, runLeft := n + 1 })
    | (t, false) => State.runCycles r c n lim t

/-- Whether the instruction at the pc has opcode `op` and may occupy the sequencer now. -/
def State.occupies (s : State) (r op : Nat) : Bool :=
  ((s.region r).st == .run || (s.region r).st == .stall) && iOp (s.instrAt r) == op

/-- At most `lim` cycles of a RUN, from its start or from where it was left (R78). -/
def State.runGo (s : State) (r lim : Nat) : State :=
  let s := s.passEntry r
  if !s.occupies r 1 then s
  else
    let v := s.instrAt r
    let x := s.region r
    let n := if x.runLeft = 0 then fld v 0 16 + 1 else x.runLeft
    (s.onRegion r (fun x => { x with st := .run, runLeft := 0 })).runCycles r (iCtx v) n lim

/-- One issuing cycle of a one-cycle instruction: none where it stalled, and the cycle is repeated. -/
def State.oneCycle (s : State) (r : Nat) : State × Bool :=
  match s.regionCycle r (iCtx (s.instrAt r)) with
  | (t, true) => (t.onRegion r (fun x => { x with st := .stall }), false)
  | (t, false) => (t, true)

/-! The instructions. -/

/-- REPEAT (R79, R80, R127). -/
def State.repeatGo (s : State) (r : Nat) : State :=
  let s := s.passEntry r
  if !s.occupies r 2 then s
  else
    let v := s.instrAt r
    let a := (s.region r).pc
    let (s, ok) := s.oneCycle r
    if !ok then s
    else
      let st := (s.region r).stack
      if st.any (fun e => e.frozen) then s.halt r 4 a
      else if 4 ≤ st.length then s.halt r 3 a
      else
        let c := min 65536 (if bit v 38 then s.rf (regionBase r + 0x28) 0 17 else fld v 0 17)
        if c = 0 then s.goNext r (fld v 24 8 + 1) true
        else
          (s.onRegion r (fun x => { x with
            stack := { start := a + 1, stop := fld v 24 8, count := c, int := bit v 39 } :: x.stack }.loopStart)).goNext r (a + 1) true

/-- The condition of a BRANCH as its source stands before the branch's cycle (R83): value and poison. -/
def State.condition (s : State) (r src : Nat) : Bool × Bool :=
  let x := s.region r
  if src = 0 then (true, false)
  else if src ≤ 0x10 then mget (false, false) x.flags (src - 1)
  else if src ≤ 0x18 then (s.rb (regionBase r + 0xC) (src - 0x11), false)
  else if src = 0x19 then (x.wto, false)
  else if src = 0x1A then (x.cxl, false)
  else (false, false)

/-- What a taken BRANCH meets at its boundary: a halt cause, if any (R85, R100). -/
def branchHalt (x : Region) (rete : Bool) (popl : Nat) : Option Nat :=
  if rete && !x.inh then some 6
  else if x.stack.length < popl then some 5
  else if (x.stack.take popl).any (fun e => e.frozen) then some 4
  else none

/-- BRANCH with MODE `rete`: its cycle, then at most `lim` cycles of its delay slot (R82 to R85, R100). -/
def State.branchGo (s : State) (r : Nat) (rete : Bool) (lim : Nat) : State :=
  let s := s.passEntry r
  let v := s.instrAt r
  if !s.occupies r 3 || bit v 39 != rete then s
  else
    let a := (s.region r).pc
    let src := fld v 32 5
    let c := s.condition r src
    let (s, ok) := s.oneCycle r
    if !ok then s
    else if c.2 then s.halt r 2 a
    else
      let x := s.region r
      let popl := fld v 16 3
      if c.1 == bit v 38 then
        (s.onRegion r (fun x => { x with delay := some { target := a + 2 }, pc := a + 1, st := .run })).runGo r lim
      else match branchHalt x rete popl with
        | some h => s.halt r h a
        | none =>
          let t := if rete then x.evtRet else fld v 24 8
          let s := s.onRegion r (fun x => { x with
            stack := x.stack.drop popl, delay := some { target := t, rete := rete }, pc := a + 1, st := .run })
          let s := if bit v 37 && 0x11 ≤ src && src ≤ 0x18 then s.setRb (regionBase r + 0xC) (src - 0x11) false else s
          s.runGo r lim

/-- The condition of a WAIT as the border stands (R86). -/
def State.waitHolds (s : State) (r : Nat) (v : BitVec 48) : Bool :=
  let sel := fld v 24 8
  let need := fld v 20 4 + 1
  if sel < 0x08 then need ≤ s.readable r (64 + sel)
  else if sel < 0x10 then need ≤ s.space r (64 + (sel - 0x08))
  else if sel < 0x50 then need ≤ s.readable r (sel - 0x10)
  else if sel < 0x90 then need ≤ s.space r (sel - 0x50)
  else false

/-- Whether the sequencer stands at a WAIT, begun or not. -/
def State.atWait (s : State) (r : Nat) : Bool :=
  ((s.region r).st == .run || (s.region r).st == .wait) && iOp (s.instrAt r) == 4

/-- One cycle of a WAIT (R87, R96, R97). -/
def State.waitGo (s : State) (r : Nat) : State :=
  let s := s.passEntry r
  if !s.atWait r then s
  else
    let v := s.instrAt r
    let a := (s.region r).pc
    let s := s.borderTick r
    let holds := s.waitHolds r v
    let n := (s.region r).waited + 1
    let tmo := fld v 0 16
    let s := s.cycleRun r []
    if holds then (s.onRegion r (fun x => { x with wto := false })).boundary r a
    else if tmo ≠ 0 ∧ tmo ≤ n then (s.onRegion r (fun x => { x with wto := true })).boundary r a
    else
      let s := s.onRegion r (fun x => { x with st := .wait, waited := n })
      match (if bit v 39 && (s.region r).eligible then s.eventLine r else none) with
      | some k => s.takeEvent r k a
      | none => s

/-- The cycle in which the condition of a WAIT holds (R87). -/
def State.waitMet (s : State) (r : Nat) : State :=
  let s' := s.passEntry r
  if s'.atWait r && (s'.borderTick r).waitHolds r (s'.instrAt r) then s.waitGo r else s

/-- The cycles of a WAIT up to its timeout (R87). -/
def State.waitOut (s : State) (r : Nat) : State :=
  let s' := s.passEntry r
  let v := s'.instrAt r
  if s'.atWait r && fld v 0 16 != 0 && !(s'.borderTick r).waitHolds r v then
    iter (fun s => if (s.region r).st = .wait then s.waitGo r else s) (fld v 0 16 - (s'.region r).waited - 1) (s'.waitGo r)
  else s

/-- The end of a cycle of a TAKE: with INTW, a pending event makes it withdraw (R96, R97). -/
def State.takeEvents (s : State) (r : Nat) : State :=
  if bit (s.instrAt r) 39 && !(s.region r).withdrawing && (s.region r).eligible && (s.eventLine r).isSome then
    (s.onRegion r (fun x => { x with withdrawing := true })).sendTake (16 + r) true
  else s

/-- One cycle of a TAKE (R88, R97): its request sets out in its first cycle. -/
def State.takeGo (s : State) (r : Nat) : State :=
  let s := s.passEntry r
  if iOp (s.instrAt r) ≠ 5 then s
  else match (s.region r).st with
    | .run =>
      (((s.idleCycle r).onRegion r (fun x => { x with st := .take, withdrawing := false })).sendTake (16 + r) false).takeEvents r
    | .take => (s.idleCycle r).takeEvents r
    | _ => s

/-- A withdrawal arrives at the scheduler (R228): a region that was not given a task meanwhile takes
the event for which it withdrew (R97); a core stands before its TAKE again, and takes its interrupt (R264). -/
def State.withdrawArrives (s : State) (k : Nat) : State :=
  match s.takeMsg k true with
  | none => s
  | some s =>
    let s := s.onSched (fun c => { c with waiting := c.waiting.filter (fun w => w.1 != k) })
    if k < 16 then
      if (mget none s.sched.given k).isSome then s
      else { s with cores := mupd {} s.cores k (fun c => if c.leaving && c.st == .take then { c with st := .run } else c) }
    else
      let r := k - 16
      let x := s.region r
      if x.st = .take ∧ x.withdrawing ∧ (mget none s.sched.given k).isNone then
        let s := s.onRegion r (fun x => { x with st := .run, withdrawing := false })
        match s.eventLine r with
        | some l => if x.eligible then s.takeEvent r l x.pc else s
        | none => s
      else s

/-- A region takes the task it is given (R88, R97, R227). -/
def State.regionGiven (s : State) (r : Nat) (g : Given) : State :=
  let b := regionBase r
  let id := g.task.getD 0
  let s := s.setRg (b + 0x24) (BitVec.ofNat 32 (2 ^ 17 + b2n g.cxl * 2 ^ 16 + id))
  let s := s.setRg (b + 0x28) g.arg
  let s := s.onRegion r (fun x => { x with cxl := g.cxl })
  if (s.region r).st = .take then
    let s := s.idleCycle r
    (s.onRegion r (fun x => { x with st := .run, withdrawing := false })).boundary r (s.region r).pc
  else s

/-- SHIFT (R89, R176): with the derailleur armed, the change of half and its swap cycle. -/
def State.shiftGo (s : State) (r : Nat) : State :=
  let s := s.passEntry r
  if !s.occupies r 6 then s
  else
    let v := s.instrAt r
    let a := (s.region r).pc
    let (s, ok) := s.oneCycle r
    if !ok then s
    else if (s.region r).drl.st = .armed then
      let s := s.onRegion r (fun x => { x with pc := fld v 24 8 })
      ((s.shiftSwap r).idleCycle r).goNext r (fld v 24 8) true
    else s.goNext r (a + 1) true

/-- SIGNAL (R90). -/
def State.signalGo (s : State) (r : Nat) : State :=
  let s := s.passEntry r
  if !s.occupies r 7 then s
  else
    let v := s.instrAt r
    let a := (s.region r).pc
    let (s, ok) := s.oneCycle r
    if !ok then s
    else
      let base := 8 * s.logical r
      let s := ((List.range 7).filter (fun k => bit v k)).foldl (fun s k => s.raise (base + k)) s
      s.boundary r a

/-- The loop-save registers take the stack, outermost level first (R91, R109). -/
def State.lsave (s : State) (r : Nat) (st : List LoopEnt) : State :=
  (List.range 4).foldl (fun s n =>
    let b := regionBase r + 0x30 + 8 * n
    match st.reverse[n]? with
    | some e => (s.setRg b (BitVec.ofNat 32 (2 ^ 18 + b2n e.int * 2 ^ 17 + e.count % 2 ^ 17))).setRg (b + 4)
        (BitVec.ofNat 32 (e.stop % 256 * 256 + e.start % 256))
    | none => s.setRb b 18 false) s

/-- The stack that the loop-save registers hold, innermost first (R91, R109). -/
def State.lrestore (s : State) (r : Nat) : List LoopEnt :=
  ((List.range 4).filterMap (fun n =>
    let b := regionBase r + 0x30 + 8 * n
    if s.rb b 18 then some { start := s.rf (b + 4) 0 8, stop := s.rf (b + 4) 8 8, count := s.rf b 0 17,
                             int := s.rb b 17, frozen := (s.region r).inh }
    else none)).reverse

/-- LSTK with DIR `restore` (R91): END matching first, then the save or restore (R93). -/
def State.lstkGo (s : State) (r : Nat) (restore : Bool) : State :=
  let s := s.passEntry r
  if !s.occupies r 8 || bit (s.instrAt r) 0 != restore then s
  else
    let a := (s.region r).pc
    let (s, ok) := s.oneCycle r
    if !ok then s
    else
      let m := endMatch a (s.region r).stack
      if restore then
        let st := s.lrestore r
        (s.onRegion r (fun x => { x with stack := st })).goNext r m.1 true
      else ((s.lsave r m.2).onRegion r (fun x => { x with stack := [] })).goNext r m.1 true

/-- HALT (R92). -/
def State.haltGo (s : State) (r : Nat) : State :=
  let s := s.passEntry r
  if s.occupies r 0 then s.halt r 1 (s.region r).pc else s

/-! Enable, stop, start. -/

/-- One region cycle of whatever occupies the sequencer of region `r` (R74, R98). -/
def State.seqCycle (s : State) (r : Nat) : State :=
  match (s.region r).st with
  | .off | .halted => s.idleCycle r
  | .entry => (s.idleCycle r).onRegion r (fun x => { x with
      entryLeft := x.entryLeft - 1, st := if x.entryLeft ≤ 1 then .run else .entry })
  | _ =>
    match iOp (s.instrAt r) with
    | 0 => s.haltGo r
    | 1 => s.runGo r 1
    | 2 => s.repeatGo r
    | 3 => s.branchGo r (bit (s.instrAt r) 39) 0
    | 4 => s.waitGo r
    | 5 => s.takeGo r
    | 6 => s.shiftGo r
    | 7 => s.signalGo r
    | 8 => s.lstkGo r (bit (s.instrAt r) 0)
    | _ => s

/-- The region cycle in progress when a STOP or a clearing of EN arrives: the actions of a boundary take place in
it, but no event is taken (R93, R94). -/
def State.endCycle (s : State) (r : Nat) : State :=
  ((s.onRegion r (fun x => { x with lastCycle := true })).seqCycle r).onRegion r (fun x => { x with lastCycle := false })

/-- STOP (R93): the region halts at the end of the cycle in progress, unless that cycle has halted it. -/
def State.stopGo (s : State) (r : Nat) : State :=
  if s.seqIdle r || !s.regionEn r then s
  else
    let s := s.endCycle r
    if s.seqIdle r then s else s.halt r 8 (s.region r).pc

/-- START of a halted, enabled region (R93); the bit reads 1 until its first cycle without a stall. -/
def State.startGo (s : State) (r : Nat) : State :=
  if (s.region r).st = .halted ∧ s.regionEn r then
    let pc := s.rf (regionBase r) 8 8
    (s.setRb (regionBase r) 1 true).onRegion r (fun x => { x with
      stack := [], inh := false, evtValid := false, hcause := 0, haltPc := 0, wto := false, pc := pc, st := .run,
      delay := none, runLeft := 0, waited := 0 })
  else s

/-- The sequencer starts at enable (R94, R103, R127, R181). -/
def State.seqStart (s : State) (r : Nat) : State :=
  let b := regionBase r
  let pc := s.rf b 8 8
  let s := ((s.setRg64 (b + 0x70) 0).setRg64 (b + 0x80) 0).setRf (b + 0x24) 16 2 0
  s.onRegion r (fun x => { x.aguEnable with
    st := .run, pc := pc, stack := [], inh := false, wto := false, cxl := false, evtValid := false,
    hcause := 0, haltPc := 0, delay := none, runLeft := 0, waited := 0,
    ports := (x.ports.filter (fun e => e.2.parkWait)).map (fun e => (e.1, { e.2 with pushed := false })) })

/-- STOP and START of one write of REG_CTRL, in order (R104). -/
def State.stopStart (s : State) (r : Nat) (v : Word32) : State :=
  let s := if v.getLsbD 2 then s.stopGo r else s
  if v.getLsbD 1 then s.startGo r else s

/-- A write of REG_CTRL with EN = 1 (R8, R94, R104). -/
def State.regionEnable (s : State) (r : Nat) (v : Word32) : State :=
  let b := regionBase r
  let was := s.regionEn r
  let s := s.setRf b 8 8 (fld v 8 8)
  if was then s.stopStart r v
  else
    let (s, ok) := s.enableCheck b (b + 4) (s.regionCheck r)
    if ok then (s.seqStart r).stopStart r v else s

/-- A write of REG_CTRL with EN = 0 (R94, R104, R193, R228). -/
def State.regionDisable (s : State) (r : Nat) (v : Word32) : State :=
  let b := regionBase r
  let was := s.regionEn r
  let s := if was && !s.seqIdle r then s.endCycle r else s
  let s := ((s.setRf b 8 8 (fld v 8 8)).setRb b 0 false).setRb b 1 false
  if !was then s
  else
    let s := (s.takeStops r).schDiscard (16 + r)
    let s := s.onRegion r (fun x => { x with st := .off, runLeft := 0, entryLeft := 0, delay := none, withdrawing := false })
    (s.armLapse r).kickstand r

/-! The commands of the sequencers. -/

/-- HALT (R92). -/
def execHalt (r : Fin 64) (s : State) : Host.Outcome State Fault Refusal := live s (s.haltGo r)
/-- RUN (R78): at most `n` cycles of it pass. -/
def execRunContext (r : Fin 64 × Fin 65537) (s : State) : Host.Outcome State Fault Refusal := live s (s.runGo r.1 r.2)
/-- REPEAT (R79). -/
def execRepeatBlock (r : Fin 64) (s : State) : Host.Outcome State Fault Refusal := live s (s.repeatGo r)
/-- BRANCH with MODE 0 (R82): at most `n` cycles of its delay slot pass. -/
def execBranch (r : Fin 64 × Fin 65537) (s : State) : Host.Outcome State Fault Refusal := live s (s.branchGo r.1 false r.2)
/-- RETE (R100). -/
def execRete (r : Fin 64 × Fin 65537) (s : State) : Host.Outcome State Fault Refusal := live s (s.branchGo r.1 true r.2)
/-- WAIT: one cycle (R87). -/
def execWaitBorder (r : Fin 64) (s : State) : Host.Outcome State Fault Refusal := live s (s.waitGo r)
/-- WAIT_CONDITION_MET (R87). -/
def execWaitConditionMet (r : Fin 64) (s : State) : Host.Outcome State Fault Refusal := live s (s.waitMet r)
/-- WAIT_TIMEOUT (R87). -/
def execWaitTimeout (r : Fin 64) (s : State) : Host.Outcome State Fault Refusal := live s (s.waitOut r)
/-- TAKE: one cycle (R88). -/
def execTakeTask (r : Fin 64) (s : State) : Host.Outcome State Fault Refusal := live s (s.takeGo r)
/-- TAKE_WITHDRAWAL (R228). -/
def execTakeWithdrawal (k : Fin 80) (s : State) : Host.Outcome State Fault Refusal := live s (s.withdrawArrives k)
/-- SHIFT (R89). -/
def execShift (r : Fin 64) (s : State) : Host.Outcome State Fault Refusal := live s (s.shiftGo r)
/-- SIGNAL (R90). -/
def execSignal (r : Fin 64) (s : State) : Host.Outcome State Fault Refusal := live s (s.signalGo r)
/-- LSTK SAVE (R91). -/
def execLstkSave (r : Fin 64) (s : State) : Host.Outcome State Fault Refusal := live s (s.lstkGo r false)
/-- LSTK RESTORE (R91). -/
def execLstkRestore (r : Fin 64) (s : State) : Host.Outcome State Fault Refusal := live s (s.lstkGo r true)
/-- REGION_ENABLE (R94): a write of REG_CTRL that sets EN. -/
def execRegionEnable (r : Fin 64) (v : Word32) (s : State) : Host.Outcome State Fault Refusal := live s (s.regionEnable r v)
/-- REGION_DISABLE (R94): a write of REG_CTRL that clears EN. -/
def execRegionDisable (r : Fin 64) (v : Word32) (s : State) : Host.Outcome State Fault Refusal := live s (s.regionDisable r v)
/-- STOP (R93). -/
def execStop (r : Fin 64) (s : State) : Host.Outcome State Fault Refusal := live s (s.stopGo r)
/-- START (R93). -/
def execStart (r : Fin 64) (s : State) : Host.Outcome State Fault Refusal := live s (s.startGo r)

end Sys2Proof.Machine
end

