-- ==== Sys2Proof/Machine/March.lean ====
section
/-! DEFINITION. The march engines, the logic BIST and the puppeteer's logbook entries (R454 to R468,
R476 to R478). -/

namespace Sys2Proof.Machine

/-! What a region holds after a wake (R29, R215, R216). -/

/-- FX and FP cells, accumulators, search states, pointers, spokes, loop stack: as at wake. -/
def Region.cellsAtWake (x : Region) : Region :=
  { x with
    fx := [], fp := [], agu := [], memOut := [], spoke := [], flags := [], flights := [], rds := [], wrs := [],
    p1 := [], p1Busy := [], fixes := [], stack := [], evtRet := 0, evtValid := false, inh := false, inFifo := [], inWay := [], visWay := [],
    lastOut := [] }

/-- The credit counter of the sender behind border spoke input `i` of region `r` returns to 8 (R29). -/
def State.senderCredit (s : State) (r i : Nat) : State :=
  match s.farSide r i with
  | none => s
  | some (n, o) => s.onRegion n (fun y => { y with credUsed := mset 0 y.credUsed o 0, credWay := mset [] y.credWay o [] })

/-- The credits on their way back to the senders toward region `r`, as it powers down, do not return (R29). -/
def State.dropCredits (s : State) (r : Nat) : State :=
  (List.range 64).foldl (fun s i => match s.farSide r i with
    | none => s
    | some (n, o) => s.onRegion n (fun y => { y with credWay := mset [] y.credWay o [] })) s

/-- Every sender's credit counter at 8 (R29). -/
def State.senderCredits (s : State) (r : Nat) : State := (List.range 64).foldl (fun s i => s.senderCredit r i) s

/-- A region's cells as at wake, its receive FIFOs empty and its senders' credits full (R29, R215). -/
def State.wakeCells (s : State) (r : Nat) : State := (s.onRegion r Region.cellsAtWake).senderCredits r

/-! The march engine. -/

/-- Sets an MT_EVT bit and raises its source when enabled (R477, R478). -/
def State.marchEvent (s : State) (p k : Nat) : State :=
  s.event (planeBase p + 0xE020) k (16 + k) (1024 + 64 * p + 7 + k)

/-- The region, cell and bank of a position 128q + 4c + b (R477). -/
def marchPlace (p pos : Nat) : Nat × Nat × Nat := (regionOf p (pos / 128), pos / 4 % 32, pos % 4)

/-- Whether an enabled queue's MEM middle uses a cell (R123, R459). -/
def State.queueLive (s : State) (r c : Nat) : Bool := s.cellQueued r c

/-- The codes that refuse a test of one bank (R459). -/
def State.marchCodes (s : State) (r c b : Nat) (dest : Bool) : List Nat :=
  codeIf (!s.rb (memctl r c) (4 + b) || (s.owner r c == 0 && s.regionEn r)) 0x0B01 ++
  codeIf (dest && s.rb (memctl r c) (8 + b)) 0x0B02 ++
  codeIf (s.pstate r != 0) 0x0B04 ++
  codeIf (dest && s.queueLive r c) 0x0B05

/-- The engine borrows the bank at `pos` and starts its test (R122, R456, R457). -/
def State.marchBorrow (s : State) (p pos : Nat) (dest : Bool) : State :=
  let (r, c, b) := marchPlace p pos
  let s := (s.setRb (memctl r c) (12 + b) true).setRb (memctl r c) 16 dest
  let t := s.now
  let s := s.onMarch p (fun m => { m with cur := pos, dest := dest, since := t, done := 0 })
  let s := s.setRg (mtStat p) (BitVec.ofNat 32 (2 ^ 31 + 2 * 2 ^ 24 + b2n (s.rb (mtStat p) 30) * 2 ^ 30))
  s.setRg (planeBase p + 0xE008) (BitVec.ofNat 32 pos)

/-- MT_STAT keeps where the test stood (R477). -/
def State.marchNote (s : State) (p : Nat) (at_ : Nat × Nat) : State :=
  s.setRg (mtStat p) (spotWord (s.march p).dest at_ (s.rg (mtStat p)))

/-- The engine is idle again: DONE (R459, R460). -/
def State.marchIdle (s : State) (p : Nat) : State :=
  (((s.setRb (mtStat p) 31 false).setRf (mtStat p) 24 3 0).onMarch p (fun m => { m with all := false })).marchEvent p 0

/-- An ALL request goes on to the first bank from `pos` on that may be borrowed, and counts in MT_SKIP
those passed over (R459); `n` bounds the search. -/
def State.marchNext (s : State) (p : Nat) (dest : Bool) : Nat → Nat → State
  | 0, _ => s.marchIdle p
  | n + 1, pos =>
    if 2048 ≤ pos then s.marchIdle p
    else
      let (r, c, b) := marchPlace p pos
      if (s.marchCodes r c b dest).isEmpty then s.marchBorrow p pos dest
      else (s.count (planeBase p + 0xE01C)).marchNext p dest n (pos + 1)

/-- The bank under test goes back to its owner; after a destructive test every word of it is cleared
(R122, R309, R456). -/
def State.marchRelease (s : State) (p : Nat) : State :=
  let m := s.march p
  let (r, c, b) := marchPlace p m.cur
  let held := s.rb (memctl r c) (12 + b)
  let s := (s.setRb (memctl r c) (12 + b) false).setRb (memctl r c) 16 false
  if m.dest && held then (List.range 256).foldl (fun s i => s.clearLines (cellAddr r c (4 * i + b)) 1) s else s

/-- The test of one bank ends: the next bank of an ALL request, or DONE. -/
def State.marchEnd (s : State) (p : Nat) (goOn : Bool) : State :=
  let m := s.march p
  let s := s.marchRelease p
  let (r, c, b) := marchPlace p m.cur
  let mine := fun (e : Master × Nat × Nat × Nat × P1Op) => e.2.1 == r && e.2.2.1 == c && e.2.2.2.1 % 4 == b
  let l := s.p1Wait.filter mine
  let s := { s with p1Wait := s.p1Wait.filter (fun e => !mine e) }
  let s := l.foldl (fun (s : State) e => s.portOneDo e.1 e.2.1 e.2.2.1 e.2.2.2.1 e.2.2.2.2) s
  let s := s.setRb (memctl r c) 17 false
  if m.all && goOn then s.marchNext p m.dest 2048 (m.cur + 1) else s.marchIdle p

/-- MT_CMD of plane `p` as a register (R477). -/
def marchCmdSpec : RegSpec := { rw := 0x0007FF7C#32 }

/-- A write of MT_CMD with GO (R459). -/
def State.marchGo (s : State) (p : Nat) (v : Word32) : State :=
  let o := planeBase p + 0xE000
  let s := s.writeFields o marchCmdSpec v
  if s.rb (mtStat p) 31 then s
  else
    let dest := bit v 2
    let all := bit v 3
    let pos := 128 * fld v 8 4 + 4 * fld v 12 5 + fld v 17 2
    let (r, c, b) := marchPlace p pos
    let codes := (if all then [] else s.marchCodes r c b dest) ++
      codeIf ((dest && fld v 4 3 == 0) || fld v 19 13 != 0 || bit v 7) 0x0B03
    match lowestCode codes with
    | some k => (s.setRf testBase 0 16 k).setRb (mtStat p) 30 true
    | none =>
      let s := s.onMarch p (fun m => { m with all := all, dest := dest, bg := fld v 4 3 })
      if all then (s.setRb (mtStat p) 31 true).marchNext p dest 2048 0 else s.marchBorrow p pos dest

/-- ABORT (R460): a preserving test finishes its element; a destructive one ends and its bank is cleared. -/
def State.marchAbort (s : State) (p : Nat) : State :=
  if s.rb (mtStat p) 31 then (s.marchNote p ((s.march p).spot (s.marchCycles p))).marchEnd p false else s

/-- The end of the wait after a preemption (R460). -/
def State.marchResume (s : State) (p : Nat) : State :=
  let st := s.rf (mtStat p) 24 3
  if !s.rb (mtStat p) 31 || (st != 3 && st != 1) then s
  else
    let m := s.march p
    let (r, c, b) := marchPlace p m.cur
    if s.now < m.since + 1000 * s.rf (planeBase p + 0xE00C) 0 16 then s
    else if !s.rb (memctl r c) (4 + b) then (s.marchNote p (m.spot m.done)).marchEnd p true
    else if (s.owner r c == 0 && s.regionEn r) || s.pstate r != 0 then s.setRf (mtStat p) 24 3 1
    else
      let t := s.now
      ((s.setRb (memctl r c) (12 + b) true).setRf (mtStat p) 24 3 2).onMarch p (fun m => { m with since := t })

/-- A miscompare in row `row`, lowest failing bit `fb`, in element `el` (0 to 5 destructive, the pass of
a preserving test otherwise); `ue` says that the row then reads uncorrectable (R458). -/
def State.miscompare (s : State) (p el row fb : Nat) (ue : Bool) : State :=
  let m := s.march p
  let (r, c, b) := marchPlace p m.cur
  let s := s.count (planeBase p + 0xE010)
  let e := if m.dest then el % 8 else 6 + el % 2
  let rest := !m.dest && ue
  let s := s.setRg (planeBase p + 0xE014) (BitVec.ofNat 32 (2 ^ 31 + b2n rest * 2 ^ 30 + b2n m.dest * 2 ^ 29 +
    planeIdx r * 2 ^ 24 + c * 2 ^ 16 + b * 2 ^ 14 + e * 2 ^ 8 + row % 256))
  let s := s.setRg (planeBase p + 0xE018) (BitVec.ofNat 32 (fb % 512))
  let s := s.marchEvent p 1
  let s := s.lbAppend 0x0020 [(p, 4), ((s.rg (planeBase p + 0xE014)).toNat, 4), (fb, 4)]
  if rest then
    let a := cellAddr r c (4 * (row % 256) + b)
    s.putLine a (linePoison (s.examine a).raw)
  else s

/-- MARCH_DONE (R456 to R458): the test in progress ends, on completion or at a miscompare. -/
def State.marchDone (s : State) (p : Nat) (miss : Option (Nat × Nat × Nat × Bool)) : State :=
  if !s.rb (mtStat p) 31 || s.rf (mtStat p) 24 3 != 2 then s
  else
    let s := match miss with
      | some (el, row, fb, ue) =>
        (s.marchNote p (if (s.march p).dest then el else el % 2, row)).miscompare p el row fb ue
      | none => s.marchNote p ((s.march p).spot ((s.march p).total - 1))
    s.marchEnd p true

/-! Logic BIST. -/

/-- The codes of R462. -/
def State.bistCodes (s : State) (kind t : Nat) : List Nat :=
  let d := (s.region t).drl
  codeIf ((kind == 0 && t < 64 && s.regionEn t) || (kind == 1 && t < 16 && s.rb (0xC00000 + 0x100 * t) 0) ||
    (kind == 2 && t < 64 && !s.isolated t)) 0x0B10 ++
  codeIf (kind == 0 && t < 64 && s.pstate t != 0) 0x0B11 ++
  codeIf (kind == 0 && t < 64 && (d.st == .busy || d.st == .migrating || d.subof)) 0x0B12 ++
  codeIf (kind == 3 || (kind == 0 && 63 < t) || (kind == 1 && 15 < t) || (kind == 2 && 63 < t)) 0x0B13

/-- A write of BIST_CTRL with GO (R461, R462). -/
def State.bistGo (s : State) (v : Word32) : State :=
  let s := s.writeFields (testBase + 4) { rw := 0x007F0300#32 } v
  if s.bist.isSome then s
  else
    let kind := fld v 8 2
    let t := fld v 16 7
    match lowestCode (s.bistCodes kind t) with
    | some k => s.setRf testBase 0 16 k
    | none => { s.setRb (testBase + 8) 31 true with bist := some (kind, t) }

/-- BIST_DONE with the signature found (R461). -/
def State.bistDone (s : State) (sig : Word32) : State :=
  match s.bist with
  | none => s
  | some (kind, t) =>
    let fail := sig != Config.bistSignature kind
    let s := { s with bist := none }
    let s := match kind with
      | 0 => s.wakeCells t
      | 1 => { s with cores := mupd {} s.cores t (fun c => { c with x := [], banks := [] }) }
      | _ => s
    let s := ((s.setRb (testBase + 8) 31 false).setRb (testBase + 8) 0 true).setRg (testBase + 0xC) sig
    let s := s.testEvent 0
    if fail then ((s.setRb (testBase + 8) 1 true).testEvent 1).lbAppend 0x0021 [(kind, 4), (t, 4), (sig.toNat, 4)] else s

/-! The logbook. -/

/-- A write of LB_ACMD with GO by the puppeteer (R466, R476). -/
def State.lbCommand (s : State) (m : Master) (v : Word32) : State :=
  if m ≠ .puppeteer then s.answer m (0x4200000000 + testBase + 0x30) 1 73 0
  else
    let s := s.setRf (testBase + 0x30) 0 16 (fld v 0 16)
    if fld v 0 16 < 0x8000 then s.setRf testBase 0 16 0x0B21
    else s.lbAppend (fld v 0 16) ((List.range 4).map (fun i => ((s.rg (testBase + 0x20 + 4 * i)).toNat, 4)))

/-- LOGBOOK_HEADER_UPDATE (R465): HEADIDX and HEADSEQ are written, at most once in a second of machine time. -/
def State.lbHeader (s : State) : State :=
  if s.lbHead = some (s.now / 1000000000) then s
  else
  let s := ({ s with lbHead := some (s.now / 1000000000) } : State).pokeBytes (logbookAddr + 0xC) s.lbIdx 4
  s.pokeBytes (logbookAddr + 0x10) (s.rg (testBase + 0x34)).toNat 4

/-! The commands. -/

/-- MARCH_GO (R459). -/
def execMarchGo (p : Fin 4) (v : Word32) (s : State) : Host.Outcome State Fault Refusal := live s (s.marchGo p v)
/-- MARCH_ABORT (R460). -/
def execMarchAbort (p : Fin 4) (s : State) : Host.Outcome State Fault Refusal := live s (s.marchAbort p)
/-- MARCH_RESUME (R460). -/
def execMarchResume (p : Fin 4) (s : State) : Host.Outcome State Fault Refusal := live s (s.marchResume p)
/-- MARCH_DONE (R458). -/
def execMarchDone (p : Fin 4) (miss : Option (Fin 6 × Fin 256 × Fin 277 × Bool)) (s : State) :
    Host.Outcome State Fault Refusal :=
  live s (s.marchDone p (miss.map (fun m => (m.1.val, m.2.1.val, m.2.2.1.val, m.2.2.2))))
/-- BIST_GO (R461). -/
def execBistGo (v : Word32) (s : State) : Host.Outcome State Fault Refusal := live s (s.bistGo v)
/-- BIST_DONE (R461). -/
def execBistDone (sig : Word32) (s : State) : Host.Outcome State Fault Refusal := live s (s.bistDone sig)
/-- LB_APPEND (R466). -/
def execLbAppend (m : Master) (v : Word32) (s : State) : Host.Outcome State Fault Refusal := finish s (s.lbCommand m v)
/-- LOGBOOK_HEADER_UPDATE (R465). -/
def execLogbookHeaderUpdate (s : State) : Host.Outcome State Fault Refusal := finish s s.lbHeader

end Sys2Proof.Machine
end

