-- ==== Sys2Proof/Machine/Fatal.lean ====
section
/-! DEFINITION. Entering the fatal path (R469 to R471, R475). -/

namespace Sys2Proof.Machine

/-- The tandem block (R452). -/
def tdmBase : Nat := 0xA00000

/-- A region's border enters kickstand state, and its clock runs 8 more cycles and stops (R470). -/
def State.regionStops (s : State) (r : Nat) : State :=
  if s.pstate r = 2 then s else iter (fun s => s.idleCycle r) 8 (s.parkPins r)

/-- A march ends as at ABORT, a BIST is abandoned (R470, R475). -/
def State.testsStop (s : State) : State :=
  let s := (List.range 4).foldl (fun s p => s.marchAbort p) s
  if s.bist.isSome then { s.setRb (testBase + 8) 31 false with bist := none } else s

/-- TDM_CAPTAIN falls, and GONE is sent (R437, R443, R470). -/
def State.tandemGone (s : State) : State :=
  let s := s.setRb (tdmBase + 8) 28 false
  if s.rb tdmBase 0 && s.rf (tdmBase + 8) 24 3 != 0 then s.put (.aedade 5 []) else s

/-- Steps 1 and 2 of the fatal path (the puppeteer goes on in its ROM, which runs the steps that follow), with cause, DETAIL and DETAIL2; a later cause is counted (R469, R470,
R475). -/
def State.enterFatal (s : State) (cause detail detail2 : Nat) : State :=
  let o := testBase + 0x44
  if s.dead then s.setRf o 0 4 (min 15 (s.rf o 0 4 + 1))
  else
    let s := s.tandemGone
    let s := s.testsStop
    let s := (s.regions.map (·.1)).foldl (fun s r => s.regionStops r) s
    let s := { s with cores := (List.range 17).foldl (fun m n => mupd {} m n (fun c => { c with
      st := if (cause = 1 ∨ cause = 2) ∧ n = detail % 32 then .fatal else if n = 16 then c.st else .off })) s.cores }
    let s := { s with fatal := (detail, detail2) }
    (s.setRg o (BitVec.ofNat 32 (2 ^ 29 + cause % 256 * 2 ^ 16))).setRg64 (testBase + 0x48) s.now

/-- A write of FTL_CTRL with REQ by the puppeteer (R469, R476). -/
def State.fatalRequest (s : State) (m : Master) (v : Word32) : State :=
  if m ≠ .puppeteer then s.answer m (0x4200000000 + testBase + 0x40) 1 73 0
  else (s.setRf (testBase + 0x40) 0 16 (fld v 0 16)).enterFatal 5 (fld v 0 16) 0

/-- FTL_REQ (R469). -/
def execFtlReq (m : Master) (v : Word32) (s : State) : Host.Outcome State Fault Refusal :=
  finish s (s.fatalRequest m v)

end Sys2Proof.Machine
end

