-- ==== Sys2Proof/Machine/TandemPair.lean ====
section
/-! DEFINITION. The tandem block: pairing, heartbeats, decision records, loss of the peer, yield
(R437 to R453). -/

namespace Sys2Proof.Machine

/-- Changes the tandem block. -/
def State.onTandem (s : State) (f : Tandem → Tandem) : State := { s with tandem := f s.tandem }

/-- TDM_STATUS.STATE: 0 OFF, 1 LINKING, 2 PAIRED, 3 SOLO, 4 UNFIT. -/
def State.tdmState (s : State) : Nat := s.rf (tdmBase + 8) 29 3
/-- Sets TDM_STATUS.STATE. -/
def State.setTdmState (s : State) (x : Nat) : State := s.setRf (tdmBase + 8) 29 3 x
/-- CAPT: acting captain. -/
def State.captain (s : State) : Bool := s.rb (tdmBase + 8) 28
/-- Whether the Aedade link has lanes. -/
def State.linked (s : State) : Bool := s.rf (tdmBase + 8) 24 3 != 0
/-- TDM_CTRL.EN. -/
def State.tdmOn (s : State) : Bool := s.rb tdmBase 0

/-- Sets a TDM_EVT bit and raises its source when enabled (R452, R453). -/
def State.tdmEvent (s : State) (k : Nat) : State := s.event (tdmBase + 0x30) k (16 + k) (1864 + k)

/-- Writes a code to TDM_REASON. -/
def State.tdmReason (s : State) (c : Nat) : State := s.setRf (tdmBase + 4) 0 16 c

/-- Empties the pending table and the record being popped (R448). -/
def State.tdmEmpty (s : State) : State := s.onTandem (fun t => { t with mine := [], theirs := [], part := [] })

/-- Sends HELLO: PAIRID, CFGHASH, ROLES, starting role and state (R444). -/
def State.sendHello (s : State) : State :=
  s.put (.aedade 1 [(s.rg (bootBase + 0x24)).toNat, s.rg64 (tdmBase + 0x10), s.rf (bootBase + 0x28) 0 8,
    b2n s.signals.role, if s.tandem.solo then 3 else s.tdmState])

/-! Enable. -/

/-- TDM_CTRL as a register (R452). -/
def tdmCtrlSpec : RegSpec := { rw := 0xFF000000#32, rwl := 0x00310000#32, en := tdmBase }

/-- The codes of R451. -/
def State.tdmCheck (s : State) (v : Word32) : List Nat :=
  let q := s.rf (tdmBase + 0x18) 0 9
  codeIf (v &&& ~~~ 0xFF310005#32 != 0 || s.rf tdmBase 20 2 == 3) 0x0A01 ++
  codeIf (!(s.queue q).on || s.cons q != 0) 0x0A02 ++
  codeIf (s.rg (bootBase + 0x24) == 0) 0x0A04 ++
  codeIf (s.rf (tdmBase + 0x1C) 0 16 == 0 || (s.rf tdmBase 24 8 == 0 && s.rf tdmBase 20 2 != 0)) 0x0A06

/-- A write of TDM_CTRL (R438, R451). -/
def State.tdmCtrlWrite (s : State) (v : Word32) : State :=
  let was := s.tdmOn
  if v.getLsbD 0 then
    let s := s.writeFields tdmBase tdmCtrlSpec v
    if was then s
    else
      let (s, ok) := s.enableCheck tdmBase (tdmBase + 4) (s.tdmCheck v)
      if !ok then s
      else
        let s := (s.setTdmState 1).setRf (tdmBase + 8) 16 2 0
        let s := s.setRb (tdmBase + 8) 28 (s.signals.role && s.running)
        let s := s.onTandem (fun _ => {})
        if s.linked then s.sendHello else s
  else
    let s := (s.setRb tdmBase 0 false).writeFields tdmBase tdmCtrlSpec v
    if was then
      let s := ((s.setTdmState 0).setRf (tdmBase + 8) 16 2 0).tdmEmpty.onTandem (fun t => { t with yielding := false })
      s.setRb (tdmBase + 8) 28 (s.signals.role && s.running)
    else s

/-! Pairing and the link. -/

/-- What a HELLO carries (R444): PAIRID, CFGHASH, ROLES, the sender's starting role, and whether it is SOLO. -/
structure HelloMsg where
  pairid : Word32
  hash : BitVec 64
  roles : BitVec 8
  captain : Bool
  solo : Bool

/-- The codes that refuse pairing (R444, R450). -/
def State.helloCodes (s : State) (h : HelloMsg) : List Nat :=
  let solo := s.tandem.solo
  let lead := if solo then true else if h.solo then false else s.signals.role
  let myRole := if lead then s.rb (bootBase + 0x28) 0 else s.rb (bootBase + 0x28) 1
  let itsRole := if lead then h.roles.getLsbD 1 else h.roles.getLsbD 0
  codeIf (h.hash.toNat != s.rg64 (tdmBase + 0x10)) 0x0A03 ++
  codeIf (h.pairid != s.rg (bootBase + 0x24)) 0x0A04 ++
  codeIf ((solo && h.solo) || (!solo && !h.solo && s.signals.role == h.captain) || !myRole || !itsRole) 0x0A05

/-- A HELLO arrives (R444). -/
def State.hello (s : State) (h : HelloMsg) : State :=
  if !s.tdmOn || s.tdmState != 1 || !s.linked then s
  else match lowestCode (s.helloCodes h) with
    | some c => (s.tdmReason c).tdmEvent 6
    | none =>
      let lead := if s.tandem.solo then true else if h.solo then false else s.signals.role
      let s := (s.setTdmState 2).setRb (tdmBase + 8) 28 lead
      let s := s.setRf (tdmBase + 8) 16 2 0
      let t := s.now
      (s.onTandem (fun x => { x with mine := [], theirs := [], solo := false, peerUnfit := false, beat := t })).tdmEvent 0

/-- A yield in progress comes to nothing: no reply can reach a device that is no longer PAIRED (R449). -/
def State.yieldEnds (s : State) : State := s.onTandem (fun t => { t with yielding := false })

/-- Loss of the peer (R448). -/
def State.peerLost (s : State) : State :=
  if s.tdmState != 2 then s
  else
  let s := s.yieldEnds
  if s.captain then ((s.setTdmState 3).onTandem (fun t => { t with solo := true })).tdmEmpty.tdmEvent 1
  else if s.rb tdmBase 16 then
    let s := ((s.setTdmState 3).setRb (tdmBase + 8) 28 true).onTandem (fun t => { t with solo := true })
    let s := (s.tdmEmpty.tdmEvent 1).tdmEvent 2
    s.lbAppend 0x0031 [((s.rg (tdmBase + 8)).toNat, 4)]
  else (s.setTdmState 4).tdmEmpty.tdmEvent 1

/-- The link comes up with `n` lanes (R444, R450). -/
def State.linkUp (s : State) (n : Nat) : State :=
  let s := s.setRf (tdmBase + 8) 24 3 n
  if s.tdmOn && n != 0 then
    let s := if s.tdmState = 3 then s.setTdmState 1 else s
    if s.tdmState = 1 then s.sendHello else s
  else s

/-- The link goes down (R441, R448). -/
def State.linkDown (s : State) : State := (s.setRf (tdmBase + 8) 24 3 0).peerLost

/-- A lane is dropped: the link goes on with 2 lanes, then 1, then none (R441). -/
def State.laneDrop (s : State) : State :=
  let n := s.rf (tdmBase + 8) 24 3
  if n = 0 then s
  else
    let k := if 2 < n then 2 else n - 1
    let s := (s.setRf (tdmBase + 8) 24 3 k).tdmEvent 5
    if k = 0 then s.linkDown else s

/-! Heartbeats. -/

/-- A heartbeat is sent at a multiple of 10 µs: state, role, acting captain, machine time (R442). -/
def State.beatSend (s : State) : State :=
  if s.tdmOn && s.linked && s.now % 10000 == 0 then
    s.put (.aedade 2 [s.tdmState, b2n s.signals.role, b2n s.captain, s.now])
  else s

/-- A 32-bit two's complement value that saturates. -/
def satInt32 (x : Int) : Word32 :=
  if x < -2147483648 then 0x80000000#32 else if 2147483647 < x then 0x7FFFFFFF#32 else BitVec.ofInt 32 x

/-- A heartbeat arrives (R442, R450). -/
def State.beatReceive (s : State) (st : Nat) (capt : Bool) (time : Nat) : State :=
  if !s.tdmOn || !s.linked then s
  else
    let t := s.now
    let s := (s.setRf (tdmBase + 8) 16 2 0).setRb (tdmBase + 8) 27 capt
    let s := s.onTandem (fun x => { x with beat := t, peerUnfit := x.peerUnfit || st == 4 })
    let skew : Int := (time : Int) + 500 - t
    let s := s.setRg (tdmBase + 0x2C) (satInt32 skew)
    if s.rf (tdmBase + 0x1C) 16 16 < skew.natAbs then s.tdmEvent 7 else s

/-- GONE counts three misses at once (R443). -/
def State.gone (s : State) : State :=
  if !s.tdmOn || s.tdmState != 2 then s else (s.setRf (tdmBase + 8) 16 2 3).peerLost

/-- Whether records are compared (R446, R450). -/
def State.compares (s : State) : Bool := s.tdmOn && s.tdmState == 2 && !s.tandem.peerUnfit

/-! Decision records. -/

/-- The item ID of a record (R445). -/
def TRec.id (x : TRec) : Nat := fld x.bits 0 40

/-- MACT when MCNT reaches MTHR (R447). -/
def State.mthrReached (s : State) : State :=
  let s := (s.onTandem (fun t => { t with acted := true })).tdmEvent 4
  match s.rf tdmBase 20 2 with
  | 1 => if s.captain then (s.onTandem (fun t => { t with peerUnfit := true })).tdmEmpty else (s.setTdmState 4).tdmEmpty
  | 2 => s.enterFatal 4 (s.rg (tdmBase + 0x24)).toNat (s.rg (tdmBase + 0x20)).toNat
  | _ => s

/-- A mismatch of item `id` (R446, R447). -/
def State.mismatch (s : State) (kind id : Nat) : State :=
  let s := s.count (tdmBase + 0x20)
  let s := s.setRg (tdmBase + 0x24) (BitVec.ofNat 32 (2 ^ 31 + kind * 2 ^ 24 + id / 2 ^ 20 % 2 ^ 20))
  let s := (s.setRg (tdmBase + 0x28) (BitVec.ofNat 32 (id % 2 ^ 20))).tdmEvent 3
  let thr := s.rf tdmBase 24 8
  if thr ≠ 0 ∧ thr ≤ (s.rg (tdmBase + 0x20)).toNat ∧ !s.tandem.acted then s.mthrReached else s

/-- One side of the pending table. -/
def Tandem.side (t : Tandem) (own : Bool) : List TRec := if own then t.mine else t.theirs
/-- Replaces one side. -/
def Tandem.setSide (t : Tandem) (own : Bool) (l : List TRec) : Tandem :=
  if own then { t with mine := l } else { t with theirs := l }

/-- Counts a late record (R446). -/
def State.lateRecord (s : State) : State :=
  (s.setRf (tdmBase + 0x40) 16 16 (min 65535 (s.rf (tdmBase + 0x40) 16 16 + 1))).tdmEvent 8

/-- A record meets its counterpart, or waits for it (R446). -/
def State.placeRecord (s : State) (own : Bool) (x : TRec) : State :=
  match (s.tandem.side (!own)).find? (fun y => y.id == x.id) with
  | some y =>
    let s := s.onTandem (fun t => t.setSide (!own) ((t.side (!own)).erase y))
    if x.poison || y.poison then s.mismatch 2 x.id
    else if x.bits = y.bits then s.count64 (tdmBase + 0x38)
    else s.mismatch 1 x.id
  | none =>
    if (s.tandem.side own).any (fun y => y.id == x.id) then s.mismatch 4 x.id
    else s.onTandem (fun t => t.setSide own (t.side own ++ [x]))

/-- The record that six samples spell (R445). -/
def recordOf (cs : List Chan) (t : Nat) : TRec :=
  { bits := BitVec.ofNat 120 (cs.foldr (fun c n => c.v.toNat + 2 ^ 20 * n) 0), poison := cs.any (fun c => c.p), placed := t }

/-- A whole packet popped from RECQ (R445, R446, R448). -/
def State.localPacket (s : State) (cs : List Chan) : State :=
  if cs.length ≠ 6 then
    (s.setRf (tdmBase + 0x40) 0 16 (min 65535 (s.rf (tdmBase + 0x40) 0 16 + 1))).tdmEvent 9
  else if !s.compares then s
  else
    let x := recordOf cs s.now
    if s.tandem.missed.contains x.id then s.lateRecord
    else (s.put (.aedade 3 [x.bits.toNat, b2n x.poison])).placeRecord true x

/-- Pops samples of RECQ until the end of a packet (R445). -/
def State.popRecord (q : Nat) : Nat → State → State
  | 0, s => s
  | n + 1, s =>
    match s.popHead q with
    | none => s
    | some (s, c) =>
      let part := s.tandem.part ++ [c]
      if c.e then (s.onTandem (fun t => { t with part := [] })).localPacket part
      else State.popRecord q n (s.onTandem (fun t => { t with part := part }))

/-- RECORD_POP (R446): nothing is popped while the local side is full. -/
def State.recordPop (s : State) : State :=
  let q := s.rf (tdmBase + 0x18) 0 9
  if !s.tdmOn || s.cons q != 0 || !(s.queue q).on || (s.compares && 256 ≤ s.tandem.mine.length) then s
  else State.popRecord q 64 s

/-- A record of the peer arrives (R446). -/
def State.remoteRecord (s : State) (bits : BitVec 120) (poison : Bool) : State :=
  if !s.compares || 256 ≤ s.tandem.theirs.length then s
  else
    let x : TRec := { bits := bits, poison := poison, placed := s.now }
    if s.tandem.missed.contains x.id then s.lateRecord else s.placeRecord false x

/-- The first entry of a side whose time is up (R446). -/
def State.expired (s : State) (own : Bool) : Option TRec :=
  (s.tandem.side own).find? (fun x => x.placed + 1000 * s.rf (tdmBase + 0x1C) 0 16 ≤ s.now)

/-- One entry without a counterpart is freed as MISSING (R446). -/
def State.expireSide (s : State) (own : Bool) : State :=
  match s.expired own with
  | none => s
  | some x =>
    (s.onTandem (fun t => { (t.setSide own ((t.side own).erase x)) with
      missed := (t.missed ++ [x.id]).drop (t.missed.length + 1 - 64) })).mismatch 3 x.id

/-- MWIN_EXPIRY (R446). -/
def State.mwinExpiry (s : State) : State :=
  if !s.compares then s
  else iter (fun s => if s.compares then s.expireSide false else s) s.tandem.theirs.length
    (iter (fun s => if s.compares then s.expireSide true else s) s.tandem.mine.length s)

/-- A heartbeat is missed: 12 µs after the last one received, and every further 10 µs (R442). At the third miss the
mismatches that are due come first (R450). -/
def State.beatMiss (s : State) : State :=
  let n := s.rf (tdmBase + 8) 16 2
  if !s.tdmOn || (s.tdmState != 2 && s.tandem.beat == 0) || n == 3 || s.now < s.tandem.beat + 12000 + 10000 * n then s
  else
    let s := s.setRf (tdmBase + 8) 16 2 (n + 1)
    if n = 2 then s.mwinExpiry.peerLost else s

/-! Yield. -/

/-- A write of YIELD (R449). -/
def State.yieldCmd (s : State) : State :=
  if s.tandem.yielding then s
  else if s.tdmOn && s.tdmState == 2 && s.captain && s.linked then
    (s.onTandem (fun t => { t with yielding := true })).put (.aedade 4 []) else s.tdmReason 0x0A07

/-- The peer's YIELD frame reaches the stoker: it raises TDM_CAPTAIN and replies (R449). -/
def State.yieldArrives (s : State) : State :=
  if s.tdmOn && s.tdmState == 2 && !s.captain then (s.setRb (tdmBase + 8) 28 true).put (.aedade 6 []) else s

/-- The reply reaches the old captain (R449). -/
def State.yieldReply (s : State) : State :=
  if s.tdmOn && s.tdmState == 2 && s.captain && s.tandem.yielding then
    (s.onTandem (fun t => { t with yielding := false })).setRb (tdmBase + 8) 28 false
  else s

/-! The commands. -/

/-- TDM_ENABLE (R451): a write of TDM_CTRL that sets EN. -/
def execTdmEnable (v : Word32) (s : State) : Host.Outcome State Fault Refusal := live s (s.tdmCtrlWrite (setBit v 0 true))
/-- HELLO (R444). -/
def execHello (pairid : Word32) (hash : BitVec 64) (roles : BitVec 8) (captain solo : Bool) (s : State) :
    Host.Outcome State Fault Refusal :=
  live s (s.hello { pairid := pairid, hash := hash, roles := roles, captain := captain, solo := solo })
/-- HEARTBEAT_SEND (R442). -/
def execHeartbeatSend (s : State) : Host.Outcome State Fault Refusal := live s s.beatSend
/-- HEARTBEAT_RECEIVE (R442). -/
def execHeartbeatReceive (st : Fin 8) (captain : Bool) (time : BitVec 64) (s : State) : Host.Outcome State Fault Refusal :=
  live s (s.beatReceive st captain time.toNat)
/-- HEARTBEAT_MISS (R442). -/
def execHeartbeatMiss (s : State) : Host.Outcome State Fault Refusal := live s s.beatMiss
/-- GONE (R443). -/
def execGone (s : State) : Host.Outcome State Fault Refusal := live s s.gone
/-- RECORD_POP (R446). -/
def execRecordPop (s : State) : Host.Outcome State Fault Refusal := live s s.recordPop
/-- REMOTE_RECORD (R446). -/
def execRemoteRecord (bits : BitVec 120) (poison : Bool) (s : State) : Host.Outcome State Fault Refusal :=
  live s (s.remoteRecord bits poison)
/-- MWIN_EXPIRY (R446). -/
def execMwinExpiry (s : State) : Host.Outcome State Fault Refusal := live s s.mwinExpiry
/-- YIELD (R449): written here, or the peer's frame arrives. -/
def execYieldCaptain (fromPeer : Bool) (s : State) : Host.Outcome State Fault Refusal :=
  live s (if fromPeer then s.yieldArrives else s.yieldCmd)
/-- YIELD_REPLY (R449). -/
def execYieldReply (s : State) : Host.Outcome State Fault Refusal := live s s.yieldReply
/-- LANE_DROP (R441). -/
def execLaneDrop (s : State) : Host.Outcome State Fault Refusal := live s s.laneDrop
/-- AEDADE_LINK_DOWN (R441). -/
def execAedadeLinkDown (s : State) : Host.Outcome State Fault Refusal := live s s.linkDown
/-- AEDADE_LINK_UP (R444). -/
def execAedadeLinkUp (lanes : Fin 5) (s : State) : Host.Outcome State Fault Refusal := live s (s.linkUp lanes)

end Sys2Proof.Machine
end

