-- ==== Sys2Proof/Machine/Clock.lean ====
section
/-! DEFINITION. Clock islands, machine time, the governor's registers, power gating, AVSBus
(R201 to R221, R484 to R486). -/

namespace Sys2Proof.Machine

/-- The clock registers of region `r` (R219). -/
def rclk (r : Nat) : Nat := regionBase r + 0x200
/-- Whether region `r` is freewheel. -/
def State.freewheel (s : State) (r : Nat) : Bool := s.rb (rclk r) 0
/-- Raises a source of R221. -/
def State.govRaises (s : State) (n : Nat) : State := s.raise (1984 + n)
/-- Writes a code to GOV_REASON. -/
def State.govReason (s : State) (c : Nat) : State := s.setRf (govBase + 4) 0 16 c

/-! Region clocks. -/

/-- The effective target of a freewheel region (R204). -/
def State.clockTarget (s : State) (r : Nat) : Nat :=
  let lo := s.rf (rclk r) 8 7
  if s.signals.therm then lo else max lo (min (s.rf (rclk r) 24 7) (s.rf (rclk r) 16 7))

/-- FNOW moves one code toward the effective target (R204). -/
def State.fnowStep (s : State) (r : Nat) : State :=
  if !s.freewheel r || s.pstate r == 2 then s
  else
    let n := s.rf (rclk r + 4) 0 7
    let t := s.clockTarget r
    s.setRf (rclk r + 4) 0 7 (if n < t then n + 1 else if t < n then n - 1 else n)

/-- STRETCH shows a trip of a freewheel region (R205). -/
def State.stretchNow (s : State) (r : Nat) : State :=
  s.setRb (rclk r + 4) 8 ((s.region r).trip && s.freewheel r)

/-- A droop trip (R205): source 1990 is raised once in a control cycle (R221). -/
def State.droop (s : State) (r : Nat) : State :=
  let n := s.noc.ns
  let s := s.count (regionBase r + 0x214)
  let s := if s.mtime.droopAt = some n then s else { s with mtime := { s.mtime with droopAt := some n } }.govRaises 6
  (s.onRegion r (fun x => { x with trip := true })).stretchNow r

/-- A droop trip ends (R205). -/
def State.droopEnd (s : State) (r : Nat) : State := (s.onRegion r (fun x => { x with trip := false })).stretchNow r

/-! Machine time. -/

/-- MT_STATUS.STATE: 1 FREE, 2 ACQUIRE, 3 LOCKED, 4 HOLDOVER. -/
def State.mtState (s : State) : Nat := s.rf (govBase + 8) 0 3
/-- MT_CTRL.SRC. -/
def State.mtSrc (s : State) : Nat := s.rf govBase 1 2
/-- Whether a discipline is at work. -/
def State.mtOn (s : State) : Bool := s.rb govBase 0 && s.mtSrc != 0

/-- A change of state, with its source (R210); in FREE no correction is applied (R207). -/
def State.mtGo (s : State) (x : Nat) : State :=
  if s.mtState = x then s
  else
    let t := s.now
    let s := { s with mtime := { s.mtime with good := 0, big := 0, edged := false, holdTold := false,
                                               holdFrom := if x = 4 then t else s.mtime.holdFrom } }
    let s := if x = 1 then { s.setRg (govBase + 0x1C) 0 with mtime := { s.mtime with hist := [] } } else s
    (s.setRf (govBase + 8) 0 3 x).govRaises 0

/-- The cadence entries that a forward step passes (R183, R218). -/
def State.cadPassed (s : State) : State :=
  let hit := (List.range 128).filter (fun n =>
    let e := evBase + 0x8000 + 0x20 * n
    s.rb (e + 8) 31 && decide (s.rg64 e < s.now) && !s.cadLate.contains n)
  { s with cadLate := s.cadLate ++ hit }

/-- An offset as the multiple of 4 ns nearest to it (R208). -/
def stepOf (off : Int) : Int :=
  let m := off % 4
  if m < 2 then off - m else if m = 2 then (if Config.stepUp off then off + 2 else off - 2) else off + 1

/-- The counter steps by an offset (R208). -/
def State.mtStep (s : State) (off : Int) : State :=
  let s := { s with now := ((s.now : Int) + stepOf off).toNat % 2 ^ 64 }
  let s := s.setRf (govBase + 8) 16 16 (min 65535 (s.rf (govBase + 8) 16 16 + 1))
  (s.govRaises 1).cadPassed.gridMoved

/-- An offset moves the state (R208). -/
def State.mtOffset (s : State) (off : Int) (mayStep : Bool) : State :=
  let n := off.natAbs
  let big := decide ((s.rg (govBase + 0x24)).toNat < n)
  let s := s.setRg (govBase + 0x18) (satInt32 off)
  if s.mtState = 2 then
    let s := if s.rb govBase 8 && big && mayStep then s.mtStep off else s
    let g := if n ≤ 100 then s.mtime.good + 1 else 0
    let s := { s with mtime := { s.mtime with good := g } }
    if 8 ≤ g then s.mtGo 3 else s
  else if s.mtState = 3 then
    let b := if big then s.mtime.big + 1 else 0
    let s := { s with mtime := { s.mtime with big := b } }
    if 4 ≤ b then s.mtGo 2 else s
  else s

/-- A correction of `v` ppb takes effect (R207, R210): those of the last 16 s are remembered. -/
def State.applyFadj (s : State) (v : Int) : State :=
  let n := s.noc.ns
  let h := s.mtime.hist
  let recent := h.takeWhile (fun e => n < e.1 + 16000000000)
  { s.setRg (govBase + 0x1C) (satInt32 v) with
    mtime := { s.mtime with hist := (n, v) :: recent ++ (h.drop recent.length).take 1 } }

/-- The corrections in effect at any time in the last 1 ms. -/
def State.fadjLately (s : State) : List Int :=
  let n := s.noc.ns
  let recent := s.mtime.hist.takeWhile (fun e => n < e.1 + 1000000)
  recent.map (·.2) ++ [((s.mtime.hist.drop recent.length).head?.map (·.2)).getD 0]

/-- The servo's correction: within ±250 ppm, and by no more than MAXSLEW ppb off any of the last 1 ms (R207). -/
def State.steer (s : State) : State :=
  let l := s.fadjLately
  let slew : Int := s.rf govBase 16 8
  let f := max (-250000) (min 250000 (Config.servo s.fresh))
  let f := max (l.foldl max (l.headD 0) - slew) (min (l.foldl min (l.headD 0) + slew) f)
  { s.applyFadj f with fresh := s.fresh + 1 }

/-- The sum of the corrections over the time from `lo` to `hi`, in ppb times ns, and that time. -/
def fadjSum (lo : Nat) : Nat → List (Nat × Int) → Int × Nat
  | _, [] => (0, 0)
  | hi, (t, v) :: rest =>
    let w := hi - max t lo
    if t ≤ lo then (v * w, w)
    else
      let a := fadjSum lo t rest
      (v * w + a.1, w + a.2)

/-- In holdover the synthesiser holds the average correction of the last 16 s (R210). -/
def State.holdFadj (s : State) : State :=
  let n := s.noc.ns
  let a := fadjSum (n - 16000000000) n s.mtime.hist
  if a.2 = 0 then s else s.applyFadj (a.1 / a.2)

/-- MT_SYNC_OFFSET (R207, R208, R210). -/
def State.syncOffset (s : State) (off : Int) : State :=
  if !s.mtOn || s.mtSrc != 2 then s
  else
    let s := s.setRb (govBase + 8) 5 true
    let s := if s.mtState = 4 then s.mtGo 2 else s
    (s.mtOffset off true).steer

/-- The offset of a PPS edge against the nearest multiple of a second (R207). -/
def ppsOffset (t : Nat) : Int :=
  let m := t % 1000000000
  if m ≤ 500000000 then -(m : Int) else 1000000000 - (m : Int)

/-- PPS_EDGE (R207 to R210): the first edge of an acquisition sets the phase, later ones are checked. -/
def State.ppsEdge (s : State) : State :=
  let s := (s.setRg64 (govBase + 0x28) s.now).setRb (govBase + 8) 4 true
  if !s.mtOn || s.mtSrc != 1 then s
  else
    let s := if s.mtState = 4 ∧ !s.mtime.refLost then s.mtGo 2 else s
    let off := ppsOffset s.now
    let locked := s.mtState == 3
    let first := !s.mtime.edged
    let s := { s with mtime := { s.mtime with edged := true } }
    let s := s.mtOffset off first
    if locked && decide (4 < off.natAbs) then (s.count (govBase + 0x30)).govRaises 2 else s

/-- The inputs that the discipline can lose (R210): Sync offsets, MT_PPS edges, MT_REF. -/
def State.inputLoss (s : State) (k : Nat) : State :=
  let s := s.setRb (govBase + 8) (if k = 0 then 5 else if k = 1 then 4 else 3) false
  let s := if k = 2 then { s with mtime := { s.mtime with refLost := true } } else s
  if s.mtOn && (s.mtSrc == 2) == (k == 0) then
    let b := 0x810000 + 0x4000 * s.rf govBase 4 2
    let s := if k = 0 then (s.event (b + 0xC) 5 21 (1541 + 24 * s.rf govBase 4 2)).holdFadj else s
    s.mtGo 4
  else s

/-- MT_REF shows edges again (R210). -/
def State.refReturn (s : State) : State :=
  let s := { s.setRb (govBase + 8) 3 true with mtime := { s.mtime with refLost := false } }
  if s.mtOn && s.mtSrc == 1 && s.mtState == 4 then s.mtGo 2 else s

/-- HOLDMAX_EXCEEDED (R210). -/
def State.holdMax (s : State) : State :=
  if s.mtState = 4 ∧ !s.mtime.holdTold ∧ s.mtime.holdFrom + 1000000000 * s.rf (govBase + 0x20) 0 16 < s.now then
    { s with mtime := { s.mtime with holdTold := true } }.govRaises 3
  else s

/-- MT_CTRL as a register (R220). -/
def mtCtrlSpec : RegSpec := { rw := 0xFFFF0100#32, rwl := 0x36#32, en := govBase }

/-- The codes that refuse a discipline (R211). -/
def State.mtCheck (s : State) : List Nat :=
  codeIf (s.mtSrc == 3 || (s.mtSrc == 2 && [0, 3].contains (s.rf (0x810000 + 0x4000 * s.rf govBase 4 2) 5 2))) 0x0E02

/-- A write of MT_CTRL (R208, R211). -/
def State.mtCtrlWrite (s : State) (v : Word32) : State :=
  let was := s.rb govBase 0
  if v.getLsbD 0 then
    let s := s.writeFields govBase mtCtrlSpec v
    if was then s
    else
      let (s, ok) := s.enableCheck govBase (govBase + 4) s.mtCheck
      if ok && s.mtSrc != 0 then s.mtGo 2 else s
  else
    let timed := was && (List.range 64).any (fun r => s.regionEn r && !s.freewheel r)
    if timed then (s.writeFields govBase mtCtrlSpec v).govReason 0x0E01
    else
      let src := s.mtSrc
      let s := (s.setRb govBase 0 false).writeFields govBase mtCtrlSpec v
      if was && src != 0 then s.mtGo 1 else s

/-! Sensors. -/

/-- A 12-bit two's complement temperature in units of 0.25 °C. -/
def quarterDeg (v : BitVec 12) : Int := v.toInt

/-- The reading of sensor `n`. -/
def State.temp (s : State) (n : Nat) : Int := quarterDeg (BitVec.ofNat 12 (s.rf (govBase + 0x200 + 4 * n) 0 12))

/-- A reading goes to TEMPn, and to RMON of a region (R219, R220). -/
def State.setTemp (s : State) (n : Nat) (v : BitVec 12) : State :=
  let s := s.setRf (govBase + 0x200 + 4 * n) 0 12 v.toNat
  if n < 64 then s.setRf (regionBase n + 0x210) 0 12 v.toNat else s

/-- SENSOR_REFRESH (R212). -/
def State.sensors (s : State) (vals : List (BitVec 12)) : State :=
  let s := ((vals.take 69).zipIdx).foldl (fun (s : State) e => s.setTemp e.2 e.1) s
  let warn : Int := 4 * (s.rf (govBase + 0x110) 0 8 : Int)
  let hot : Int := 4 * (s.rf (govBase + 0x110) 8 8 : Int)
  let temps := (List.range 69).map s.temp
  let isWarn := temps.any (fun t => warn ≤ t)
  let isHot := temps.any (fun t => hot ≤ t)
  let cool := temps.all (fun t => t < hot - 20)
  let s := { s with signals := { s.signals with therm := isHot || (s.signals.therm && !cool) } }
  let s := s.raiseIf (isWarn && !s.mtime.warnOff) 1988
  let s := s.raiseIf (isHot && !s.mtime.hotOff) 1989
  let s := { s with mtime := { s.mtime with
    warnOff := isWarn || (s.mtime.warnOff && !temps.all (fun t => t ≤ warn - 8)),
    hotOff := isHot || (s.mtime.hotOff && !temps.all (fun t => t ≤ hot - 8)) } }
  match temps.findIdx? (fun t => 500 ≤ t) with
  | none => s
  | some n =>
    if s.dead then s
    else
      let t := s.rf (govBase + 0x200 + 4 * n) 0 12
      ((s.lbAppend 0x0030 [(n, 4), (t, 4)]).raise 1989).enterFatal 3 n t

/-- A timing margin is measured (R213). -/
def State.margin (s : State) (r m : Nat) : State :=
  let s := s.setRf (regionBase r + 0x210) 16 6 m
  if !s.freewheel r && decide (m < s.rf (govBase + 0x10C) 0 6) then s.govRaises 7 else s

/-! Core voltage. -/

/-- Whether an enabled timed region has too little margin for a lower voltage (R213). -/
def State.marginGuard (s : State) : Bool :=
  (List.range 64).any (fun r => s.regionEn r && !s.freewheel r && decide (s.rf (regionBase r + 0x210) 16 6 < s.rf (govBase + 0x10C) 0 6))

/-- A lowering is refused (R213). -/
def State.vRefused (s : State) : State := (s.setRb (govBase + 0x114) 1 true).govRaises 11

/-- The next Voltage write of the series, of at most 50 mV, 10 µs after the last acknowledgement (R484). -/
def State.avsStep (s : State) : State :=
  match s.avs.goal, s.avs.sent with
  | some g, none =>
    if !s.booted || (s.avs.acked != 0 && s.now < s.avs.acked + 10000) then s
    else if g = s.avs.at_ then { s with avs := { s.avs with goal := none } }
    else if g < s.avs.at_ ∧ s.marginGuard then { s with avs := { s.avs with goal := none } }.vRefused
    else
      let v := if g < s.avs.at_ then max g (s.avs.at_ - 50) else min g (s.avs.at_ + 50)
      ({ s with avs := { s.avs with sent := some v } }).put (.avsWrite v)
  | _, _ => s

/-- A write of VTARGET (R213, R484). -/
def State.vtarget (s : State) (v : Nat) : State :=
  let o := govBase + 0x104
  let lo := max 650 (s.rf (govBase + 0x108) 0 10)
  let hi := min 850 (s.rf (govBase + 0x108) 16 10)
  if v < lo ∨ hi < v ∨ v % 5 ≠ 0 then s.govReason 0x0E03
  else if v < s.rf o 0 10 ∧ s.marginGuard then s.vRefused
  else if v = s.rf o 0 10 then s
  else
    let s := s.setRf o 0 10 v
    { s with avs := { s.avs with goal := some v } }.avsStep

/-- The end of an AVSBus transaction (R484): an acknowledged write is followed by a status read. -/
def State.avsEnd (s : State) (ok : Bool) : State :=
  if ok then
    match s.avs.sent with
    | none => s
    | some v =>
      let t := s.now
      let s := { s with avs := { s.avs with at_ := v, sent := none, acked := t, goal := if s.avs.goal = some v then none else s.avs.goal } }
      s.put .avsStatus
  else
    let s := { s with avs := { s.avs with sent := none, goal := if s.avs.sent.isSome then none else s.avs.goal } }
    (s.setRb (govBase + 0x114) 0 true).govRaises 8

/-! Power gating. -/

/-- The codes that refuse GATE (R214). -/
def State.gateCodes (s : State) (r : Nat) : List Nat :=
  let d := (s.region r).drl
  codeIf (s.regionEn r) 0x0150 ++
  codeIf ((List.range 32).any (fun c => s.owner r c == 2)) 0x0151 ++
  codeIf (d.st == .busy || d.st == .migrating) 0x0152 ++
  codeIf (s.borrowed r || s.bist == some (0, r)) 0x0153

/-- Whether master `m` may gate and wake region `r`: the governor, which is the puppeteer's, may with GATEOK
alone (R213). -/
def State.mayGate (s : State) (m : Master) (r : Nat) : Bool := m != .puppeteer || s.rb (regionBase r + 0x208) 2

/-- The next word from index `i` on that a plane scrubber may visit (R320), with whether a pass ended before
it: gated or failed regions are passed over whole, a borrowed bank by the word. -/
def State.nextWord (s : State) (p : Nat) : Nat → Nat → Bool → Option (Nat × Bool)
  | 0, _, _ => none
  | f + 1, i, w =>
    if 524288 ≤ i then s.nextWord p f 0 true
    else
      let q := i / 32768
      let r := regionOf p q
      if s.pstate r ≠ 0 ∨ s.rb (scrReg p + 0x20) q then s.nextWord p f ((q + 1) * 32768) w
      else if s.rb (memctl r (i / 1024 % 32)) (12 + i % 4) then s.nextWord p f (i + 1) w
      else some (i, w)

/-- Changes scrubber `u`. -/
def State.onScrub (s : State) (u : Nat) (f : Scrubber → Scrubber) : State :=
  { s with scrubs := mupd {} s.scrubs u f }

/-- The plane scrubber has no visit due while no word can be visited, and one at once when a word becomes
visitable again (R319). -/
def State.scrubSees (s : State) (p : Nat) : State :=
  let t := s.now
  if !s.rb (scrReg p) 0 then s
  else if (s.nextWord p 48 (s.rf (scrReg p + 8) 0 31) false).isNone then s.onScrub p (fun x => { x with due := none })
  else s.onScrub p (fun x => { x with due := some (x.due.getD t) })

/-- GATE (R214). -/
def State.gate (s : State) (m : Master) (r : Nat) : State :=
  if s.pstate r ≠ 0 || !s.mayGate m r then s
  else match lowestCode (s.gateCodes r) with
    | some c => s.regReason r c
    | none => ((s.setRf (regionBase r + 0x20C) 0 2 1).setRb (regionBase r + 0x208) 0 true).scrubSees (planeOf r)

/-- Whether router `r` has accepted a request for the region's cells and not answered it (R295). -/
def State.portBusy (s : State) (r : Nat) : Bool :=
  s.noc.moving.any (fun m => m.arrived && !m.pkt.vn && m.at_ == r && m.pkt.dport == 0) ||
  s.p1Wait.any (fun e => e.2.1 == r)

/-- The drain completes: power off (R29, R214, R215). -/
def State.gateDone (s : State) (r : Nat) : State :=
  if s.pstate r ≠ 1 || s.portBusy r then s
  else
    let s := ((s.onRegion r Region.cellsAtWake).dropCredits r).pinsRest r
    let s := s.setRf (regionBase r + 0xC) 0 8 0
    ((s.setRf (regionBase r + 0x20C) 0 2 2).setRb (regionBase r + 0x208) 0 false).govRaises 9

/-- WAKE (R123, R216). -/
def State.wakeUp (s : State) (m : Master) (r : Nat) : State :=
  if s.pstate r ≠ 2 || !s.mayGate m r then s
  else
    let s := (s.wakeCells r).clearLines (cellAddr r 0 0) 0x8000
    (s.setRf (regionBase r + 0x20C) 0 2 3).setRb (regionBase r + 0x208) 1 true

/-- The wake completes (R216). -/
def State.wakeDone (s : State) (r : Nat) : State :=
  if s.pstate r ≠ 3 then s
  else (((s.setRf (regionBase r + 0x20C) 0 2 0).setRb (regionBase r + 0x208) 1 false).scrubSees (planeOf r)).govRaises 10

/-! The commands. -/

/-- FNOW_STEP (R204). -/
def execFnowStep (r : Fin 64) (s : State) : Host.Outcome State Fault Refusal := live s (s.fnowStep r)
/-- DROOP_TRIP (R205). -/
def execDroopTrip (r : Fin 64) (s : State) : Host.Outcome State Fault Refusal := live s (s.droop r)
/-- DROOP_TRIP_END (R205). -/
def execDroopTripEnd (r : Fin 64) (s : State) : Host.Outcome State Fault Refusal := live s (s.droopEnd r)
/-- MT_SYNC_OFFSET (R208). -/
def execMtSyncOffset (off : Int) (s : State) : Host.Outcome State Fault Refusal := finish s (s.syncOffset off)
/-- PPS_EDGE (R209). -/
def execPpsEdge (s : State) : Host.Outcome State Fault Refusal := finish s s.ppsEdge
/-- MT_INPUT_LOSS (R210): 0 Sync offsets, 1 MT_PPS, 2 MT_REF. -/
def execMtInputLoss (k : Fin 3) (s : State) : Host.Outcome State Fault Refusal := finish s (s.inputLoss k)
/-- MT_REF_RETURN (R210). -/
def execMtRefReturn (s : State) : Host.Outcome State Fault Refusal := finish s s.refReturn
/-- HOLDMAX_EXCEEDED (R210). -/
def execHoldmaxExceeded (s : State) : Host.Outcome State Fault Refusal := finish s s.holdMax
/-- MT_ENABLE (R208): a write of MT_CTRL that sets EN. -/
def execMtEnable (v : Word32) (s : State) : Host.Outcome State Fault Refusal := finish s (s.mtCtrlWrite (setBit v 0 true))
/-- MT_DISABLE (R211): a write of MT_CTRL that clears EN. -/
def execMtDisable (v : Word32) (s : State) : Host.Outcome State Fault Refusal := finish s (s.mtCtrlWrite (setBit v 0 false))
/-- SENSOR_REFRESH (R212): the readings of the sensors from sensor 0 on. -/
def execSensorRefresh (vals : List (BitVec 12)) (s : State) : Host.Outcome State Fault Refusal := finish s (s.sensors vals)
/-- MARGIN_ALARM (R213). -/
def execMarginAlarm (r m : Fin 64) (s : State) : Host.Outcome State Fault Refusal := live s (s.margin r m)
/-- VTARGET_WRITE (R213). -/
def execVtargetWrite (v : Word32) (s : State) : Host.Outcome State Fault Refusal := finish s (s.vtarget (fld v 0 10))
/-- AVS_VOLTAGE_READ (R484): once RUNNING has risen. -/
def execAvsVoltageRead (mv : Fin 1024) (s : State) : Host.Outcome State Fault Refusal :=
  finish s (if s.booted then (s.setRf (govBase + 0x104) 16 10 mv).put .avsRead else s)
/-- AVS_STEP_WRITE (R484). -/
def execAvsStepWrite (s : State) : Host.Outcome State Fault Refusal := finish s s.avsStep
/-- AVS_TRANSACTION_END (R484). -/
def execAvsTransactionEnd (ok : Bool) (s : State) : Host.Outcome State Fault Refusal := finish s (s.avsEnd ok)
/-- GATE (R214). -/
def execGate (r : Master × Fin 64) (s : State) : Host.Outcome State Fault Refusal := live s (s.gate r.1 r.2)
/-- GATE_DONE (R214). -/
def execGateDone (r : Fin 64) (s : State) : Host.Outcome State Fault Refusal := live s (s.gateDone r)
/-- WAKE (R216). -/
def execWake (r : Master × Fin 64) (s : State) : Host.Outcome State Fault Refusal := live s (s.wakeUp r.1 r.2)
/-- WAKE_DONE (R216). -/
def execWakeDone (r : Fin 64) (s : State) : Host.Outcome State Fault Refusal := live s (s.wakeDone r)
/-- GOV_RAISE (R220). -/
def execGovRaise (v : Word32) (s : State) : Host.Outcome State Fault Refusal :=
  finish s (s.raiseIf (decide (fld v 0 6 < 52)) (1996 + fld v 0 6))
/-- SYSCLK_25M_STOP (R486): the clocks hold their frequencies; the board must drive POR_N low. -/
def execSysclk25mStop (s : State) : Host.Outcome State Fault Refusal :=
  finish s { s with signals := { s.signals with sysclk := false } }

end Sys2Proof.Machine
end

