-- ==== Sys2Proof/Machine/Ddr.lean ====
section
/-! DEFINITION. The DDR5 controllers: issue, refresh, self-refresh, freeze, training wheels, enable
(R336 to R358). -/

namespace Sys2Proof.Machine

/-- The ranks of a channel (R332). -/
def State.ranks (s : State) (c : Nat) : Nat := if s.rf (dramBase c + 8) 4 2 = 1 then 2 else 1
/-- A rank's refresh state. -/
def Dram.rank (d : Dram) (k : Nat) : Rank := if k = 0 then d.rank0 else d.rank1
/-- Sets it. -/
def Dram.setRank (d : Dram) (k : Nat) (x : Rank) : Dram := if k = 0 then { d with rank0 := x } else { d with rank1 := x }
/-- LIM (R341, R343). -/
def Rank.limit (x : Rank) : Nat := if x.doubled then 2 else 4
/-- Where the requests that wait at channel `c` go: the writes held, and the reads of the read queue. -/
def State.waitPlaces (s : State) (c : Nat) : List DramLoc :=
  ((s.dram c).wq.map (·.addr) ++ (s.readQueue c).map (fun e => e.2.pkt.addr)).map (fun a =>
    dramLoc (s.rg (dramBase c + 8)) ((s.dramPlace a).2 / 32))
/-- Whether a request to rank `k` waits. -/
def State.rankWaits (s : State) (c k : Nat) : Bool := (s.waitPlaces c).any (fun p => p.rank == k)
/-- Every bank of a rank precharged and refreshed, with REFab or the set of REFsb (R341): what it stood at
towards refresh management falls by the threshold. -/
def Dram.precharge (d : Dram) (k : Nat) : Dram :=
  { d with rows := mclear (64 * k) (64 * k + 64) d.rows,
           acts := (List.range 64).foldl (fun m i => mupd 0 m (64 * k + i) (fun n => n - Config.raaLimit)) d.acts }
/-- Whether the channel runs, with or without its zero-fill. -/
def Dram.live (d : Dram) : Bool := d.st == .run || d.st == .fill

/-! Issue and refresh. -/

/-- A refresh of rank `k` issued while no request to it waits (R341). -/
def State.restRefresh (s : State) (c k : Nat) : State :=
  let x := (s.dram c).rank k
  if s.rankWaits c k then s
  else if 0 < x.post then s.onDram c (fun d => (d.setRank k { x with post := x.post - 1 }).precharge k)
  else if x.pull < x.limit then s.onDram c (fun d => (d.setRank k { x with pull := x.pull + 1 }).precharge k)
  else s

/-- DRAM_ISSUE (R338, R341): a refresh of each rank for which no request waits, then the oldest write where a
write is next; where no request waits and no refresh is left, a burst of the zero-fill. A read is issued by its
own packet's command. -/
def State.dramIssue (s : State) (c : Nat) : State :=
  let d := s.dram c
  if !d.live then s
  else
    let owes := fun k : Nat => decide (0 < (d.rank k).post) || decide ((d.rank k).pull < (d.rank k).limit)
    let t := (List.range (s.ranks c)).foldl (fun s k => s.restRefresh c k) s
    if s.writeNext c then t.dramIssueOldest c
    else if s.waitPlaces c = [] ∧ d.st = .fill ∧ !(List.range (s.ranks c)).any owes then s.fillTo c (d.fillPos / 2 * 2 + 2)
    else t

/-- REFRESH_DUE at rank `k` (R341, R347). -/
def State.refreshDue (s : State) (c k : Nat) : State :=
  let d := s.dram c
  let x := d.rank k
  if s.ranks c ≤ k ∨ !(d.live || d.st == .frozen) then s
  else
    let forced := (s.onDram c (fun d => d.precharge k)).count (dramBase c + 0x58)
    if d.st = .frozen then forced
    else if 0 < x.pull then s.onDram c (fun d => d.setRank k { x with pull := x.pull - 1 })
    else if s.rankWaits c k ∧ x.post < x.limit then s.onDram c (fun d => d.setRank k { x with post := x.post + 1 })
    else forced

/-- MR4_POLL of rank `k` (R342, R343): the highest refresh rate that a component reports, 0 for 1x, 1 for 2x,
2 for more. -/
def State.mr4Poll (s : State) (c k rate : Nat) : State :=
  let d := s.dram c
  let x := d.rank k
  if s.ranks c ≤ k ∨ !(d.live || d.st == .frozen) then s
  else
    let s := if rate = 2 then s.dramEvent c 2 else s
    if rate ≠ 0 ∧ !x.doubled then
      (s.onDram c (fun d => (d.setRank k { post := 0, pull := min 2 x.pull, doubled := true }).precharge k)).dramEvent c 1
    else if rate = 0 ∧ x.doubled then (s.onDram c (fun d => d.setRank k { x with doubled := false })).dramEvent c 1
    else s

/-- PAGE_IDLE_PRECHARGE of a bank (R339). -/
def State.pageIdle (s : State) (c key : Nat) : State :=
  let b := dramBase c
  match mget none (s.dram c).rows key with
  | none => s
  | some (_, t) =>
    let wait := (s.waitPlaces c).any (fun p => p.key == key)
    if t + s.rf (b + 0x14) 0 13 ≤ s.now ∧ !wait then s.onDram c (fun d => { d with rows := mset none d.rows key none }) else s

/-- SELF_REFRESH_ENTRY (R344, R345); `cancelled` where a request comes before the commit point. -/
def State.selfRefresh (s : State) (c : Nat) (cancelled : Bool) : State :=
  let b := dramBase c
  let d := s.dram c
  let idle := 1000 * s.rf (b + 0x14) 18 14
  if !s.rb b 2 || idle == 0 || d.st != .run || s.waitPlaces c != [] || decide (s.now < d.idleFrom + idle) then s
  else
    let s := s.onDram c (fun d => { d with rows := [], acts := [], rank0 := { d.rank0 with post := 0 }, rank1 := { d.rank1 with post := 0 } })
    if cancelled then
      let t := s.now
      (s.onDram c (fun d => { d with idleFrom := t })).count (b + 0x54)
    else (s.onDram c (fun d => { d with st := .sref })).count (b + 0x50)

/-! Freeze. -/

/-- A write of UNFREEZE (R348). -/
def State.unfreeze (s : State) (c : Nat) : State :=
  if (s.dram c).st ≠ .frozen then s.setRf (dramBase c + 4) 0 16 0x0610
  else
    let n := (s.dram c).wq.length
    iter (fun s => s.dramIssueOldest c) n (s.onDram c (fun d => { d with st := .run }))

/-- DRAM_ALERT (R346): a parity error, or with `crc` a write CRC error at `a`. -/
def State.dramAlert (s : State) (c : Nat) (crc : Bool) (a rank sub : Nat) : State :=
  let d := s.dram c
  if !(d.live || d.st == .sref || d.st == .frozen) then s
  else
    let b := dramBase c
    let first := !s.rb (b + 0x30) 31 && d.st != .frozen
    let s := s.freeze c (if crc then 2 else 1) (if crc then a else 0)
    if first then (s.setRf (b + 0x30) 9 1 rank).setRf (b + 0x30) 8 1 sub else s

/-! The training wheels (R349, R357). -/

/-- A slot of a burst as its 320 bits (R310). -/
def State.rawSlot (s : State) (a : Nat) : BitVec 320 :=
  let d := lineAt s.mem (a / 32 * 32)
  let k := s.code a
  let chk := if k.wf = 0 ∧ k.err = 0 ∧ d = 0 then 0 else (lineEncode d ^^^ k.err).toNat
  BitVec.ofNat 320 (d.toNat + chk * 2 ^ 256 + k.wf.toNat * 2 ^ 275 + (addressGuard a ^^^ k.ag).toNat * 2 ^ 277 +
    k.rsv.toNat * 2 ^ 293)

/-- Stores 320 raw bits at a word: no code, flag or guard is added (R349). -/
def State.rawPut (s : State) (a : Nat) (v : BitVec 320) : State :=
  let d : Line := BitVec.ofNat 256 (fld v 0 256)
  let wf : BitVec 2 := BitVec.ofNat 2 (fld v 275 2)
  let chk : BitVec 19 := BitVec.ofNat 19 (fld v 256 19)
  let k : Code := { wf := wf, err := if wf = 0 ∧ chk = 0 ∧ d = 0 then 0 else lineEncode d ^^^ chk,
                    ag := addressGuard a ^^^ BitVec.ofNat 16 (fld v 277 16), rsv := BitVec.ofNat 27 (fld v 293 27) }
  { s with mem := putBytes s.mem (a / 32 * 32) d.toNat 32, codes := mset {} s.codes (a / 32) k }

/-- The bit that lane `k` carries in beat `n` of PRBS x^15 + x^14 + 1 seeded with k + 1. -/
def prbsBit (k n : Nat) : Bool :=
  (iter (fun v : Nat => v * 2 % 2 ^ 15 + (v / 2 ^ 14 + v / 2 ^ 13) % 2) n (k + 1)) / 2 ^ 14 % 2 == 1

/-- Beat `b` of burst `i` of the pattern, on 40 lanes. -/
def State.twBeat (s : State) (c i b : Nat) : BitVec 40 :=
  let o := dramBase c + 0x4100 + 8 * b
  if s.rf (dramBase c + 0x4000) 3 2 = 0 then
    BitVec.ofNat 40 ((s.rg o).toNat + s.rf (o + 4) 0 8 * 2 ^ 32)
  else (List.range 40).foldl (fun v k => setBit v k (prbsBit k (16 * i + b))) 0

/-- The first storage word of burst `i` of an operation: the bursts of subchannel SUB and rank RANK in their
order, from that of TW_ADDR on (R335, R349). -/
def State.twWord (s : State) (c i : Nat) : Nat :=
  let t := dramBase c + 0x4000
  let u := (s.rg (t + 4)).toNat % 2 ^ 31 / 4
  let sub := 2 * s.rf t 6 1
  if s.rf (dramBase c + 8) 4 2 = 1 then
    let v := u / 2 ^ 12 * 2 ^ 11 + u % 2 ^ 11 + i
    (v / 2 ^ 11 * 2 ^ 14 + s.rf t 5 1 * 2 ^ 13 + v % 2 ^ 11 * 4 + sub) % 2 ^ 31
  else (4 * (u + i) + sub) % 2 ^ 31

/-- A slot's 320 bits from its 8 beats. -/
def slotOfBeats (f : Nat → BitVec 40) : BitVec 320 :=
  (List.range 8).foldl (fun v b => setFld v (40 * b) 40 (f b).toNat) 0

/-- Writes the pattern of burst `i`. -/
def State.twWrite (s : State) (c i : Nat) : State :=
  let a := fun k : Nat => s.dramAddr c (32 * (s.twWord c i + k))
  (s.rawPut (a 0) (slotOfBeats (fun b => s.twBeat c i b))).rawPut (a 1) (slotOfBeats (fun b => s.twBeat c i (8 + b)))

/-- Reads burst `i` back and compares: `bad` are the bits that the components return inverted, by burst,
beat and lanes. -/
def State.twCompare (s : State) (c i : Nat) (bad : List (Nat × Nat × BitVec 40)) : State :=
  let got := fun b : Nat =>
    let v := s.rawSlot (s.dramAddr c (32 * (s.twWord c i + b / 8)))
    let x : BitVec 40 := BitVec.ofNat 40 (fld v (40 * (b % 8)) 40)
    (bad.filter (fun e => e.1 == i && e.2.1 == b)).foldl (fun x e => x ^^^ e.2.2) x
  let diff := (List.range 16).map (fun b => got b ^^^ s.twBeat c i b)
  let t := dramBase c
  (List.range 40).foldl (fun s k =>
    let n := (diff.filter (fun d => d.getLsbD k)).length
    if n = 0 then s
    else (s.setRb (t + 0x4200 + 4 * (k / 32)) (k % 32) true).setRf (t + 0x4300 + 4 * k) 0 16
      (min 65535 (s.rf (t + 0x4300 + 4 * k) 0 16 + n))) s

/-- The parts of a write of TW_CTRL with GO that every operation shares (R349): the writer, the state of the
channel; the operation itself is `f`. -/
def State.twGo (s : State) (m : Master) (c : Nat) (v : Word32) (f : State → State) : State :=
  let t := dramBase c + 0x4000
  let a := 0x4200000000 + t
  if m ≠ .puppeteer then s.answer m a 1 (64 + c) 0
  else if (s.dram c).twBusy then s
  else
    let s := s.writeFields t { rw := 0xFFFF007E#32 } v
    if (s.dram c).st ≠ .off ∧ (s.dram c).st ≠ .frozen then s.setRf (dramBase c + 4) 0 16 0x0611
    else if 2 ≤ fld v 3 2 ∨ fld v 1 2 = 3 then s
    else (f s).onDram c (fun d => { d with twBusy := true })

/-- WRRD: every burst written, then read back (R349). -/
def State.twWrrd (s : State) (c : Nat) (bad : List (Nat × Nat × BitVec 40)) : State :=
  let n := s.rf (dramBase c + 0x4000) 16 16 + 1
  let s := (List.range n).foldl (fun s i => s.twWrite c i) s
  (List.range n).foldl (fun s i => s.twCompare c i bad) s

/-- RD: every burst read and compared (R349). -/
def State.twRd (s : State) (c : Nat) (bad : List (Nat × Nat × BitVec 40)) : State :=
  (List.range (s.rf (dramBase c + 0x4000) 16 16 + 1)).foldl (fun s i => s.twCompare c i bad) s

/-- What the training wheels of channel `c` keep for the SUB and RANK of TW_CTRL (R357). -/
def State.twSide (s : State) (c : Nat) : Nat :=
  dramBase c + 0x4800 + 0x200 * (2 * s.rf (dramBase c + 0x4000) 5 1 + s.rf (dramBase c + 0x4000) 6 1)
/-- Where the delay that TW_DSEL names is kept (R357). -/
def State.twDelay (s : State) (c : Nat) : Nat := s.twSide c + 4 * s.rf (dramBase c + 0x4400) 0 7
/-- Where the MRR result of device `d` is kept: behind the delays. -/
def State.twMrr (s : State) (c d : Nat) : Nat := s.twSide c + 4 * (92 + d)

/-- CMD: the command of TW_CMD, and where it is an MRR the result of each device (R349, R357). -/
def State.twCmd (s : State) (c : Nat) (mrr : List (BitVec 8)) : State :=
  let t := dramBase c + 0x4000
  let s := s.put (.dramRaw c (s.rb t 5) (s.rb t 6) (s.rg (t + 8)))
  (mrr.take 10).zipIdx.foldl (fun s e => s.setRf (s.twMrr c e.2) 0 8 e.1.toNat) s

/-- TW_DONE (R349). -/
def State.twDone (s : State) (c : Nat) : State :=
  if (s.dram c).twBusy then
    ((s.onDram c (fun d => { d with twBusy := false })).setRb (dramBase c + 0x400C) 30 true).dramEvent c 4
  else s

/-- A write of DDR_TRAIN by master `m`: its bits act in ascending order (R9, R349 to R351, R356). -/
def State.ddrTrainWrite (s : State) (m : Master) (c : Nat) (v : Word32) : State × Nat :=
  if m ≠ .puppeteer ∧ m ≠ .loader then (s, 1)
  else
    let t := dramBase c + 0x20
    let s := if bit v 0 then s.setRb t 0 true else s
    let s := if bit v 1 then (s.setRb t 1 true).onDram c (fun d => { d with st := .failed }) else s
    (if bit v 2 then ((s.setRf t 0 2 0).setRb (dramBase c) 0 false).onDram c (fun _ => {}) else s, 0)

/-- A write of DDR_TRAIN as a command, answered to its master. -/
def State.ddrTrain (s : State) (m : Master) (c : Nat) (v : Word32) : State :=
  let r := s.ddrTrainWrite m c v
  r.1.answer m (0x4200000000 + dramBase c + 0x20) r.2 (64 + c) 0

/-! Zero-fill and enable. -/

/-- FILL_DONE (R352). -/
def State.fillDone (s : State) (c : Nat) : State :=
  if (s.dram c).st ≠ .fill then s
  else
    let s := s.fillTo c (s.dramCap c * 2 ^ 25)
    (s.onDram c (fun d => { d with st := .run, filled := true, skip := [] })).dramEvent c 3

/-- The check of R354. -/
def State.ddrCheck (s : State) (c : Nat) : List Nat :=
  let b := dramBase c
  let cfg := s.rg (b + 8)
  let cfg0 := s.rg (dramBase 0 + 8)
  let q := b + 0x18
  codeIf (fld cfg 4 2 == 3) 0x0601 ++ codeIf (fld cfg 0 3 == 7) 0x0602 ++
  codeIf (s.rb (dramBase 0 + 0xC) 0 && (fld cfg 0 3 != fld cfg0 0 3 || fld cfg 4 4 != fld cfg0 4 4)) 0x0603 ++
  codeIf (!s.rb (b + 0x20) 0) 0x0604 ++
  codeIf (decide (4000 < s.rf (b + 0x14) 0 13) || decide (10000 < s.rf (b + 0x14) 18 14) || s.rf q 0 6 == 0 ||
    decide (s.rf q 0 6 ≤ s.rf q 8 6) || s.rf q 16 16 == 0) 0x0605 ++
  codeIf ((s.dram c).st == .failed) 0x0607

/-- A write of DDR_CTRL (R348, R352, R354, R356). A channel that is disabled first issues the writes that it
has acknowledged. -/
def State.ddrCtrlWrite (s : State) (c : Nat) (v : Word32) : State :=
  let b := dramBase c
  let was := s.rb b 0
  let s := s.writeFields b { rw := 0x6#32 } v
  let s := if bit v 3 then s.unfreeze c else s
  if !v.getLsbD 0 then
    if was ∧ (s.dram c).st ≠ .frozen ∧ (s.dram c).st ≠ .failed then
      let s := iter (fun s => s.dramIssueOldest c) (s.dram c).wq.length s
      (s.setRb b 0 false).onDram c (fun d => if d.st = .frozen then d else { d with st := .off, rows := [] })
    else s.setRb b 0 false
  else if was then s
  else
    let (s, ok) := s.enableCheck b (b + 4) (s.ddrCheck c)
    if !ok then s
    else
      let t := s.now
      s.onDram c (fun d => { d with st := if d.st = .frozen then .frozen else if d.filled then .run else .fill, rank0 := {}, rank1 := {}, idleFrom := t })

/-! The commands. -/

/-- DRAM_ISSUE (R338). -/
def execDramIssue (c : Fin 4) (s : State) : Host.Outcome State Fault Refusal := finish s (s.dramIssue c)
/-- REFRESH_DUE (R341). -/
def execRefreshDue (c : Fin 4) (rank : Fin 2) (s : State) : Host.Outcome State Fault Refusal := finish s (s.refreshDue c rank)
/-- MR4_POLL (R342). -/
def execMr4Poll (c : Fin 4) (rank : Fin 2) (rate : Fin 3) (s : State) : Host.Outcome State Fault Refusal :=
  finish s (s.mr4Poll c rank rate)
/-- PAGE_IDLE_PRECHARGE (R339). -/
def execPageIdlePrecharge (c : Fin 4) (bank : Fin 128) (s : State) : Host.Outcome State Fault Refusal :=
  finish s (s.pageIdle c bank)
/-- SELF_REFRESH_ENTRY (R344). -/
def execSelfRefreshEntry (c : Fin 4) (cancelled : Bool) (s : State) : Host.Outcome State Fault Refusal :=
  finish s (s.selfRefresh c cancelled)
/-- UNFREEZE (R348). -/
def execUnfreeze (c : Fin 4) (s : State) : Host.Outcome State Fault Refusal := finish s (s.unfreeze c)
/-- TW_WRRD (R349): a write of TW_CTRL with GO and OP 0. -/
def execTwWrrd (m : Master) (c : Fin 4) (v : Word32) (bad : List (Nat × Nat × BitVec 40)) (s : State) :
    Host.Outcome State Fault Refusal := finish s (s.twGo m c (setFld v 1 2 0) (fun s => s.twWrrd c bad))
/-- TW_RD (R349): a write of TW_CTRL with GO and OP 1. -/
def execTwRd (m : Master) (c : Fin 4) (v : Word32) (bad : List (Nat × Nat × BitVec 40)) (s : State) :
    Host.Outcome State Fault Refusal := finish s (s.twGo m c (setFld v 1 2 1) (fun s => s.twRd c bad))
/-- TW_CMD (R349): a write of TW_CTRL with GO and OP 2. -/
def execTwCmd (m : Master) (c : Fin 4) (v : Word32) (mrr : List (BitVec 8)) (s : State) :
    Host.Outcome State Fault Refusal := finish s (s.twGo m c (setFld v 1 2 2) (fun s => s.twCmd c mrr))
/-- TW_DONE (R349). -/
def execTwDone (c : Fin 4) (s : State) : Host.Outcome State Fault Refusal := finish s (s.twDone c)
/-- CHRST (R356). -/
def execChrst (m : Master) (c : Fin 4) (s : State) : Host.Outcome State Fault Refusal := finish s (s.ddrTrain m c 4#32)
/-- DDR_TRAINED (R350). -/
def execDdrTrained (m : Master) (c : Fin 4) (s : State) : Host.Outcome State Fault Refusal := finish s (s.ddrTrain m c 1#32)
/-- DDR_FAIL (R351). -/
def execDdrFail (m : Master) (c : Fin 4) (s : State) : Host.Outcome State Fault Refusal := finish s (s.ddrTrain m c 2#32)
/-- DDR_ENABLE (R354): a write of DDR_CTRL that sets EN. -/
def execDdrEnable (c : Fin 4) (v : Word32) (s : State) : Host.Outcome State Fault Refusal :=
  finish s (s.ddrCtrlWrite c (setBit v 0 true))
/-- FILL_DONE (R352). -/
def execFillDone (c : Fin 4) (s : State) : Host.Outcome State Fault Refusal := finish s (s.fillDone c)
/-- DRAM_ALERT (R346). -/
def execDramAlert (c : Fin 4) (crc : Bool) (a : Addr) (rank sub : Fin 2) (s : State) : Host.Outcome State Fault Refusal :=
  finish s (s.dramAlert c crc a.toNat rank sub)

end Sys2Proof.Machine
end

