-- ==== Sys2Proof/Machine/Cxp.lean ====
section
/-! DEFINITION. The CoaXPress receivers: stream packets, history ring, trigger packets, mailbox
(R373 to R377, R385, R389, R390). -/

namespace Sys2Proof.Machine

/-- The registers of receiver `i` (R389). -/
def cxpReg (i : Nat) : Nat := 0x820000 + 0x400 * i
/-- Receiver `i`. -/
def State.cxp (s : State) (i : Nat) : CxpRx := mget {} s.cxps i
/-- Changes receiver `i`. -/
def State.onCxp (s : State) (i : Nat) (f : CxpRx → CxpRx) : State := { s with cxps := mset {} s.cxps i (f (s.cxp i)) }
/-- CXP_CTRL.EN. -/
def State.cxpOn (s : State) (i : Nat) : Bool := s.rb (cxpReg i) 0
/-- Sets a CXP_EVT bit and raises its source when enabled (R389, R390). -/
def State.cxpEvent (s : State) (i k : Nat) : State := s.event (cxpReg i + 0x44) k (16 + k) (1632 + 6 * i + k)
/-- The connections of a device by NCONN. -/
def nconnOf (n : Nat) : Nat := if n = 0 then 1 else if n = 1 then 2 else 4

/-! Samples. -/

/-- The depth of a pixel in bits (R389). -/
def pixelBits (d : Nat) : Nat := 8 + 2 * d

/-- The endpoint code of receiver `i`'s stream (R134, R374). -/
def cxpCode (i : Nat) : Nat := 0x2000 + i

/-- A sample for the receiver's queue; a full buffer drops the rest of the frame and closes the line (R375). -/
def State.cxpPush (s : State) (i : Nat) (c : Chan) : State :=
  if (s.cxp i).dropping then s
  else if Config.cxpFull (s.heldBy (cxpCode i)).length then
    let s := s.hold (cxpCode i) [{ v := 0, e := true, p := true }]
    let s := s.count (cxpReg i + 0x34)
    (s.onCxp i (fun x => { x with dropping := true })).cxpEvent i 2
  else s.hold (cxpCode i) [c]

/-- Writes the history word built so far (R376): sample `a` of the frame at word a div 12, slot a mod 12. -/
def State.cxpHistory (s : State) (i : Nat) : State :=
  let x := s.cxp i
  let b := cxpReg i
  let n := x.word.length
  if n = 0 then s
  else
    let word := (x.idx - 1) / 12
    let fw := s.rf (b + 0x18) 0 24
    let slot := x.frame % max 1 (s.rf (b + 0x1C) 0 16)
    let base := (s.rg (b + 0x10)).toNat + s.rf (b + 0x14) 0 8 * 2 ^ 32
    let l := x.word.zipIdx.map (fun e => (e.2, e.1))
    let s := s.onCxp i (fun x => { x with word := [] })
    if fw ≤ word then s
    else
      let (s, st) := s.wordPut (if h : i < 16 then .cxp ⟨i, h⟩ else .loader) (base + 32 * (slot * fw + word)) (shipMask l) 0 (shipLine l)
      if st = 0 then s else (s.count (b + 0x3C)).cxpEvent i 5

/-- One sample of the frame: to the queue, and to the ring while HEN is set (R374, R376). -/
def State.cxpSample (s : State) (i : Nat) (c : Chan) : State :=
  let s := s.cxpPush i c
  if !s.rb (cxpReg i) 11 then s
  else
    let fw := s.rf (cxpReg i + 0x18) 0 24
    let passed := decide (12 * fw ≤ (s.cxp i).idx)
    let s := if passed && !(s.cxp i).passed then (s.count (cxpReg i + 0x38)).onCxp i (fun x => { x with passed := true }) else s
    let s := s.onCxp i (fun x => { x with idx := x.idx + 1, word := if passed then x.word else x.word ++ [c] })
    if (s.cxp i).word.length = 12 then s.cxpHistory i else s

/-- The end of a frame (R376). -/
def State.cxpFrameEnd (s : State) (i : Nat) : State :=
  let s := s.cxpHistory i
  let x := s.cxp i
  let b := cxpReg i
  let s := s.setRg (b + 0x20) (BitVec.ofNat 32 x.frame)
  let s := s.setRf (b + 0x24) 0 16 (x.frame % max 1 (s.rf (b + 0x1C) 0 16))
  let s := s.setRg64 (b + 0x28) (x.first.getD 0)
  let s := s.onCxp i (fun x => { x with frame := x.frame + 1, active := false, dropping := false })
  s.cxpEvent i 0

/-- One pixel, lost or delivered (R374). -/
def State.cxpPixel (s : State) (i : Nat) (px : BitVec 16) (bad : Bool) : State :=
  let x := s.cxp i
  if !x.active then s
  else
    let pack := s.rb (cxpReg i) 10
    let v := if bad then 0 else px.toNat % 2 ^ pixelBits (s.rf (cxpReg i) 13 3)
    let lastCol := decide (x.xsize ≤ x.col + 1)
    let lastRow := decide (x.ysize ≤ x.row + 1)
    let step := fun x : CxpRx => { x with col := if lastCol then 0 else x.col + 1, row := if lastCol then x.row + 1 else x.row }
    let s :=
      if pack then
        match x.half with
        | some (w, wb) =>
          let p := wb || bad
          let c : Chan := { v := if p then 0 else BitVec.ofNat 20 (w + v * 2 ^ 10), e := lastCol, p := p }
          (s.onCxp i (fun x => { x with half := none })).cxpSample i c
        | none =>
          if lastCol then s.cxpSample i { v := BitVec.ofNat 20 v, e := true, p := bad }
          else s.onCxp i (fun x => { x with half := some (v, bad) })
      else s.cxpSample i { v := BitVec.ofNat 20 v, e := lastCol, p := bad }
    let s := s.onCxp i step
    if lastCol && lastRow then s.cxpFrameEnd i else s

/-- The master of the connection that receiver `i` is (R373). -/
def State.cxpMaster (s : State) (i : Nat) : Nat :=
  let hit := fun n : Nat => s.cxpOn (i / n * n) && nconnOf (s.rf (cxpReg (i / n * n)) 8 2) == n
  if hit 4 then i / 4 * 4 else if hit 2 then i / 2 * 2 else i

/-- CXP_STREAM_PACKET (R373 to R376). -/
def State.cxpPacket (s : State) (i : Nat) (p : CxpPacket) : State :=
  if !s.cxpOn i then s
  else
    let m := s.cxpMaster i
    match p with
    | .otherStream => s.count (cxpReg m + 0x30)
    | .header xs ys =>
      let t := s.now
      s.onCxp m (fun x => { x with xsize := xs.toNat, ysize := ys.toNat, row := 0, col := 0, half := none, idx := 0,
                                    word := [], active := true, dropping := false, passed := false, first := some t })
    | .pixels px bad =>
      let s := if bad then (s.count (cxpReg m + 0x30)).cxpEvent m 1 else s
      px.foldl (fun s v => s.cxpPixel m v bad) s

/-! Triggers and the mailbox. -/

/-- A raised source reaches the trigger watcher of receiver `i` (R377). -/
def State.cxpTrigger (s : State) (i src : Nat) : State :=
  let b := cxpReg i
  if !s.cxpOn i || !s.rb b 12 || s.rf b 16 11 != src then s
  else
    let t := s.now
    let l := (s.cxp i).trig.filter (fun e => t < e)
    if 5 ≤ l.length then (s.onCxp i (fun x => { x with trig := l })).count (b + 0x40)
    else
      let s := s.onCxp i (fun x => { x with trig := l ++ [l.foldl max t + Config.trigNs] })
      if s.booted then s.put (.cxpTrigger i) else s

/-- A write of MBX_CTRL with SEND (R389, R415). -/
def State.mbxSend (s : State) (i : Nat) (v : Word32) : State :=
  let b := cxpReg i
  let s := s.setRf (b + 0x140) 8 8 (fld v 8 8)
  let n := min 16 ((fld v 8 8 + 3) / 4)
  if s.booted then s.put (.cxpControl i (fld v 8 8) ((List.range n).map (fun k => s.rg (b + 0x100 + 4 * k)))) else s

/-- A control packet is received (R389). -/
def State.mbxReceive (s : State) (i : Nat) (ws : List Word32) (n : Nat) : State :=
  let b := cxpReg i
  if !s.cxpOn i then s
  else
    let s := ((ws.take 16).zipIdx).foldl (fun (s : State) e => s.setRg (b + 0x180 + 4 * e.2) e.1) s
    (s.setRg (b + 0x1C0) (BitVec.ofNat 32 (2 ^ 31 + n % 256))).cxpEvent i 4

/-! Enable. -/

/-- The codes of R385 that receiver `i` meets. -/
def State.cxpCheck (s : State) (i : Nat) : List Nat :=
  let b := cxpReg i
  let n := nconnOf (s.rf b 8 2)
  let base := (s.rg (b + 0x10)).toNat + s.rf (b + 0x14) 0 8 * 2 ^ 32
  let fw := s.rf (b + 0x18) 0 24
  let hf := s.rf (b + 0x1C) 0 16
  let depth := s.rf b 13 3
  let covered := [2, 4].any (fun k => i % k != 0 && nconnOf (s.rf (cxpReg (i / k * k)) 8 2) == k && !s.cxpOn (i / k * k))
  codeIf (i % n != 0 || covered) 0x0820 ++
  codeIf (s.rb b 11 && (base % 32 != 0 || fw == 0 || hf == 0 || !(base < 2 ^ 38 && s.dramWithin base (32 * fw * hf)))) 0x0821 ++
  codeIf (s.rf b 4 3 == 7 || 4 < depth || s.rf b 8 2 == 3 || (s.rb b 10 && 1 < depth)) 0x0822

/-- CXP_CTRL as a register (R389). -/
def cxpCtrlSpec (i : Nat) : RegSpec := { rw := 0x07FF1870#32, rwl := 0x0000E700#32, en := cxpReg i }

/-- A write of CXP_CTRL (R385, R389); frames are counted from enable (R376). -/
def State.cxpCtrlWrite (s : State) (i : Nat) (v : Word32) : State :=
  let b := cxpReg i
  let was := s.cxpOn i
  if v.getLsbD 0 then
    let s := s.writeFields b (cxpCtrlSpec i) v
    if was then s
    else
      let (s, ok) := s.enableCheck b (b + 4) (s.cxpCheck i)
      if ok then s.onCxp i (fun _ => {}) else s
  else (s.setRb b 0 false).writeFields b (cxpCtrlSpec i) v

/-! The commands. -/

/-- CXP_STREAM_PACKET (R374). -/
def execCxpStreamPacket (i : Fin 16) (p : CxpPacket) (s : State) : Host.Outcome State Fault Refusal := live s (s.cxpPacket i p)
/-- MBX_SEND (R389). -/
def execMbxSend (i : Fin 16) (v : Word32) (s : State) : Host.Outcome State Fault Refusal := live s (s.mbxSend i v)
/-- MBX_RECEIVE (R389). -/
def execMbxReceive (i : Fin 16) (words : List Word32) (len : Fin 256) (s : State) : Host.Outcome State Fault Refusal :=
  live s (s.mbxReceive i words len)
/-- CXP_ENABLE (R385): a write of CXP_CTRL that sets EN. -/
def execCxpEnable (i : Fin 16) (v : Word32) (s : State) : Host.Outcome State Fault Refusal :=
  live s (s.cxpCtrlWrite i (setBit v 0 true))
/-- CXP_LINK_CHANGE (R390). -/
def execCxpLinkChange (i : Fin 16) (up : Bool) (s : State) : Host.Outcome State Fault Refusal :=
  live s (if s.rb (cxpReg i + 8) 0 = up then s else (s.setRb (cxpReg i + 8) 0 up).cxpEvent i 3)

end Sys2Proof.Machine
end

