-- ==== Sys2Proof/Machine/Events.lean ====
section
/-! DEFINITION. The event controller: arrivals, routes, enable (R270 to R273). -/

namespace Sys2Proof.Machine

/-- EV_RTL of source `n` (R272); EV_RTH lies 4 above. -/
def routeReg (n : Nat) : Nat := evBase + 8 * n

/-- A source becomes pending at the cores of CMASK at level LEVEL (R270, R271). -/
def State.pendAt (s : State) (n : Nat) : State :=
  let r := s.rg (routeReg n)
  (setBits (BitVec.ofNat 17 (fld r 0 17)) 17).foldl
    (fun s k => s.onCore k (fun c => { c with pend := mset none c.pend n (some (fld r 24 4)) })) s

/-- An event reaches sequencer line `l` of region `r`: its pending bit (R95). -/
def State.lineArrives (s : State) (r l : Nat) : State := s.setRb (regionBase (s.physical r) + 0xC) l true

/-- The routes that a source's entry enables, in the fatal path MSI-X alone (R270, R471). -/
def State.routeSource (s : State) (n : Nat) : State :=
  if !s.rb (evBase + 0x4000) 0 then s
  else
    let h := s.rg (routeReg n + 4)
    let s := if s.dead then s else
      let s := if s.rb (routeReg n) 31 then s.pendAt n else s
      let s := if bit h 31 then s.lineArrives (fld h 24 6) (fld h 20 3) else s
      if bit h 18 then (s.schReady (fld h 0 16)).toEvent (fld h 0 16) else s
    if bit h 19 then s.msixRaise n else s

/-- Every derailleur whose DRL_TRIG names the source is armed (R174, R175). -/
def State.armBySource (s : State) (n : Nat) : State :=
  (List.range 64).foldl (fun s r =>
    let t := s.rg (regionBase r + 0x10C)
    if bit t 31 && fld t 0 11 == n then s.drlArm r (fld t 16 6) else s) s

/-- EVENT_SOURCE_ARRIVAL (R270): a raised source reaches the controller. -/
def State.sourceArrives (s : State) (n : Nat) : State :=
  if !s.raised.contains n then s
  else
    let s := { s with raised := s.raised.erase n }
    let s := if s.dead then s else (List.range 16).foldl (fun s i => s.cxpTrigger i n) (s.armBySource n)
    s.routeSource n

/-- A write of EV_RAISE by master `m` (R272). -/
def State.evRaise (s : State) (m : Master) (n : Nat) : State :=
  let a := 0x4200000000 + evBase + 0x4200
  if m = .puppeteer then (s.raise n).answer m a 0 73 0 else s.answer m a 1 73 0

/-- The codes that refuse a value of a route register (R272). -/
def routeCodes (high : Bool) (v : Word32) : List Nat :=
  if high then codeIf (v &&& ~~~ 0xBF7CFFFF#32 != 0) 0x0D01
  else codeIf (v &&& ~~~ 0x8F01FFFF#32 != 0) 0x0D01 ++ codeIf (bit v 31 && fld v 0 17 == 0) 0x0D02

/-- A write of a route register, performed where no code refuses it (R272). -/
def State.routeWrite (s : State) (n : Nat) (high : Bool) (v : Word32) : State :=
  match lowestCode (routeCodes high v) with
  | some c => s.setRf (evBase + 0x4004) 0 16 c
  | none => s.setRg (routeReg n + if high then 4 else 0) v

/-- The check of EV_CTRL at enable: every route (R272). -/
def State.evCheck (s : State) : List Nat :=
  (List.range 2048).flatMap (fun n => routeCodes false (s.rg (routeReg n)) ++ routeCodes true (s.rg (routeReg n + 4)))

/-- A write of EV_CTRL (R272). -/
def State.evCtrlWrite (s : State) (v : Word32) : State :=
  let b := evBase + 0x4000
  if !v.getLsbD 0 then s.setRb b 0 false
  else if s.rb b 0 then s else (s.enableCheck b (b + 4) s.evCheck).1

/-- EVENT_SOURCE_ARRIVAL (R270). -/
def execEventSourceArrival (src : Fin 2048) (s : State) : Host.Outcome State Fault Refusal := finish s (s.sourceArrives src)
/-- EV_RAISE (R272). -/
def execEvRaise (m : Master) (src : Fin 2048) (s : State) : Host.Outcome State Fault Refusal := finish s (s.evRaise m src)
/-- ROUTE_WRITE (R272): EV_RTL, or EV_RTH where `high`. -/
def execRouteWrite (src : Fin 2048) (high : Bool) (v : Word32) (s : State) : Host.Outcome State Fault Refusal :=
  finish s (s.routeWrite src high v)
/-- EV_CTRL_ENABLE (R272): a write of EV_CTRL that sets EN. -/
def execEvCtrlEnable (v : Word32) (s : State) : Host.Outcome State Fault Refusal := finish s (s.evCtrlWrite (setBit v 0 true))

end Sys2Proof.Machine
end

