-- ==== Sys2Proof/Machine/NocCtl.lean ====
section
/-! DEFINITION. Control of the network: routing tables, the flip of the epoch, timeouts, the trace
buffer, probes (R285, R290 to R294, R298, R299, R302, R303). -/

namespace Sys2Proof.Machine

/-- A router named by NOC_ROFF (R294). -/
def State.marked (s : State) (t : Nat) : Bool := s.rb (nocBase + 0x10 + 4 * (t / 32)) (t % 32)

/-- The links of a walk, each as the routers it joins. -/
def walkLinks : List Nat → List (Nat × Nat)
  | a :: b :: r => (a, b) :: walkLinks (b :: r)
  | _ => []

/-- The dependences of a list of links taken in turn (R291). -/
def linkDeps : List (Nat × Nat) → List ((Nat × Nat) × (Nat × Nat))
  | a :: b :: r => (a, b) :: linkDeps (b :: r)
  | _ => []

/-- Whether a graph has a cycle: the edges left when those into a node without outgoing edges are taken
away again and again. -/
def hasCycle : Nat → List ((Nat × Nat) × (Nat × Nat)) → Bool
  | 0, g => !g.isEmpty
  | f + 1, g => hasCycle f (g.filter (fun e => g.any (fun d => d.1 == e.2)))

/-- The codes of one walk of bank `b` from `t` to `d` (R291). -/
def State.walkCodes (s : State) (b : Nat) (off : List Nat) (t d : Nat) : List Nat :=
  let w := s.walk b d 24 t
  let last := (w.1.getLast?).getD t
  match w.2 with
  | .next _ => [0x0501]
  | .none_ => [0x0503]
  | .missing => codeIf (!portReserved last (s.rtEntry b last d)) 0x0503 ++ codeIf (w.1.any off.contains) 0x0503
  | .local_ => codeIf (last != d || w.1.any off.contains) 0x0503

/-- The pairs that the check walks. -/
def checkPairs (off : List Nat) : List (Nat × Nat) :=
  let on := (List.range 76).filter (fun t => !off.contains t)
  on.flatMap (fun t => (on.filter (· != t)).map (fun d => (t, d)))

/-- The codes of the check of bank `b` (R291). -/
def State.flipCodes (s : State) (b : Nat) (off : List Nat) : List Nat :=
  let ps := checkPairs off
  let deps := (ps.flatMap (fun p => linkDeps (walkLinks (s.walk b p.2 24 p.1).1))).eraseDups
  ps.flatMap (fun p => s.walkCodes b off p.1 p.2) ++
  codeIf (hasCycle deps.length deps) 0x0502 ++
  codeIf ((List.range 76).any (fun t => (List.range 76).any (fun d =>
    portReserved t (s.rtEntry b t d) || (off.contains d && s.rtEntry b t d != 0xF)))) 0x0505

/-- NOC_CTRL.FLIP written 1 (R291, R300). -/
def State.flipGo (s : State) : State :=
  if s.rb (nocBase + 4) 2 then s
  else if s.rb (nocBase + 4) 1 then
    let off := (List.range 76).filter s.marked
    (({ s with noc := { s.noc with checkOff := off } }).setRb (nocBase + 4) 2 true).setRb nocBase 1 true
  else (s.setRf (nocBase + 8) 0 16 0x0504).nocEvent 8

/-- Empties the trace buffer (R302). -/
def State.traceClear (s : State) : State :=
  ({ s with noc := { s.noc with trace := [] } }).setRg (nocBase + 0xF0) 0

/-- A write of NOC_CTRL (R302). -/
def State.nocCtrlWrite (s : State) (v : Word32) : State :=
  let s := s.writeFields nocBase { rw := 0xFFFF0008#32 } v
  let s := if v.getLsbD 2 then s.traceClear else s
  if v.getLsbD 1 then s.flipGo else s

/-- FLIP: NOC_CTRL written with FLIP 1. -/
def execFlip (v : Word32) (s : State) : Host.Outcome State Fault Refusal :=
  finish s (s.nocCtrlWrite (v ||| 2#32))

/-- TRCLR: NOC_CTRL written with TRCLR 1. -/
def execTrclr (v : Word32) (s : State) : Host.Outcome State Fault Refusal :=
  finish s (s.nocCtrlWrite (v ||| 4#32))

/-- The check ends: the lowest code, or the epoch inverts (R8, R291, R292). A router isolated before and not
marked now carries traffic again (R294). -/
def State.flipEnd (s : State) : State :=
  let s1 := (s.setRb (nocBase + 4) 2 false).setRb nocBase 1 false
  match lowestCode (s.flipCodes (1 - b2n s.epoch) s.noc.checkOff) with
  | some c => (s1.setRf (nocBase + 8) 0 16 c).nocEvent 8
  | none =>
    let s2 := { s1 with noc := { s1.noc with off := s1.noc.off.filter (fun t => s1.noc.checkOff.contains t) } }
    ((s2.setRb (nocBase + 4) 8 (!s.epoch)).setRb (nocBase + 4) 1 false).nocEvent 7

/-- FLIP_CHECK_DONE, while CHECKING is 1. -/
def execFlipCheckDone (s : State) : Host.Outcome State Fault Refusal :=
  finish s (if s.rb (nocBase + 4) 2 then s.flipEnd else s)

/-- The packets of the old epoch in flight (R292). -/
def State.oldPackets (s : State) : Nat := (s.noc.moving.filter (fun m => m.pkt.epoch != s.epoch)).length

/-- NOC_OLD, which saturates (R302). -/
def State.nocOld (s : State) : Nat := if s.rb (nocBase + 4) 1 then 0 else min 65535 s.oldPackets

/-- DRAINED: the last packet of the old epoch has gone; the marks of the check hold (R292, R294). -/
def execDrained (s : State) : Host.Outcome State Fault Refusal :=
  finish s (if !s.rb (nocBase + 4) 1 && s.oldPackets == 0 then
      (({ s with noc := { s.noc with off := s.noc.checkOff } }).setRb (nocBase + 4) 1 true).nocEvent 9
    else s)

/-- The bank in use, and the other one while DRAINED is 0 (R290). -/
def State.bankInUse (s : State) (b : Nat) : Bool := !s.rb (nocBase + 4) 1 || b == b2n s.epoch

/-- A write of a routing-table register; the loader writes both banks at boot (R289, R290). -/
def State.rtWrite (s : State) (m : Master) (b t k : Nat) (v : Word32) : State × Nat :=
  if s.bankInUse b && m != .loader then (s, 1)
  else (s.writeFields (rtReg b t (8 * k)) { rw := if k = 9 then 0x0000FFFF#32 else BitVec.allOnes 32 } v, 0)

/-- ROUTE_TABLE_WRITE: master `m` writes the entries for destinations 8k to 8k+7 of router `t` in a bank. -/
def execRouteTableWrite (m : Master) (bank : Bool) (t : Fin 76) (k : Fin 10) (v : Word32) (s : State) :
    Host.Outcome State Fault Refusal :=
  let (u, st) := s.rtWrite m (b2n bank) t k v
  finish s (u.answer m (0x4200000000 + rtReg (b2n bank) t (8 * k)) st 73 0)

/-- Whether a queue is enabled with a REG producer (R133). -/
def State.regProducer (s : State) (q : Nat) : Bool :=
  (mget {} s.queues q).on && s.rf (planeBase (q / 128) + q % 128 * 0x40 + 8) 0 16 == 0

/-- The codes of the check of probe `n` for PR_CTRL written with `v` (R303). -/
def State.probeCodes (s : State) (n : Nat) (v : Word32) : List Nat :=
  let t := fld v 16 7
  let port := fld v 8 4
  codeIf (75 < t || (port != 0xE && (port == 0xF || portReserved t port || portHop t port == .missing)) ||
    fld v 24 2 == 3 || fld v 28 2 == 3 || fld v 5 2 == 3) 0x0506 ++
  codeIf (fld v 28 2 == 2 && !s.regProducer (s.rf (probeReg n + 0x10) 0 9)) 0x0507

/-- A write of PR_CTRL of probe `n` (R8, R303). -/
def State.probeCtrlWrite (s : State) (n : Nat) (v : Word32) : State :=
  let o := probeReg n
  let f : RegSpec := { rwl := 0x3B7F0FE0#32, en := o, enBit := 31 }
  if !v.getLsbD 31 then (s.setRb o 31 false).writeFields o f v
  else if s.rb o 31 then s
  else
    let s := s.writeFields o f v
    match lowestCode (s.probeCodes n (s.rg o)) with
    | some c => s.setRf (nocBase + 8) 0 16 c
    | none => s.setRb o 31 true

/-- PROBE_ENABLE: PR_CTRL of probe `n` written with EN 1. -/
def execProbeEnable (n : Fin 8) (v : Word32) (s : State) : Host.Outcome State Fault Refusal :=
  finish s (s.probeCtrlWrite n (v ||| 0x80000000#32))

end Sys2Proof.Machine
end

