-- ==== Sys2Proof/Machine/RegRegion.lean ====
section
/-! DEFINITION. The region register block as masters read and write it (R104 to R110, R196, R197, R219). -/

namespace Sys2Proof.Machine

/-- The state code of SEQ_STATUS (R106). -/
def SeqState.code : SeqState → Nat
  | .off => 0 | .run => 1 | .stall => 2 | .wait => 3 | .take => 4 | .entry => 5 | .halted => 6

/-- SEQ_STATUS (R106). -/
def Region.seqStatus (x : Region) : Nat :=
  x.st.code + b2n x.h * 2 ^ 3 + b2n x.inh * 2 ^ 4 + b2n (x.stack.any (fun e => e.frozen)) * 2 ^ 5 +
  x.stack.length % 8 * 2 ^ 6 + x.pc % 256 * 2 ^ 9 + x.hcause % 16 * 2 ^ 17 + x.haltPc % 256 * 2 ^ 21 + b2n x.wto * 2 ^ 29

/-- EVT_RET (R107). -/
def Region.evtRetWord (x : Region) : Nat := b2n x.evtValid * 2 ^ 8 + x.evtRet % 256

/-- Four vectors of the active half from line `k` on (R107). -/
def Region.vectors (x : Region) (k : Nat) : Nat :=
  ((List.range 4).map (fun j => (mget 0 x.active.vec (k + j)).toNat * 2 ^ (8 * j))).sum

/-- LSTKn_CNT and LSTKn_ADR (R109). -/
def Region.lstk (x : Region) (n : Nat) (adr : Bool) : Nat :=
  match x.stack.reverse[n]? with
  | none => 0
  | some e => if adr then e.stop % 256 * 256 + e.start % 256 else 2 ^ 18 + b2n e.int * 2 ^ 17 + e.count % 2 ^ 17

/-- The code of a derailleur's state (R169). -/
def DrlState.code : DrlState → Nat
  | .empty => 0 | .busy => 1 | .loaded => 2 | .armed => 3 | .migrating => 4

/-- DRL_STATUS (R196). -/
def Derailleur.status (d : Derailleur) : Nat :=
  d.st.code + b2n d.marks * 2 ^ 7 + d.recAct % 64 * 2 ^ 8 + d.recInact % 64 * 2 ^ 16 + d.peer % 64 * 2 ^ 24 +
  b2n d.subof * 2 ^ 30 + b2n d.subst * 2 ^ 31

/-- The registers of the region block and how each takes a write. -/
def regionSpec (r o : Nat) : Option RegSpec :=
  match o with
  | 0x00 | 0x04 | 0x08 | 0x14 | 0x18 | 0x1C | 0x24 | 0x28 | 0x70 | 0x74 | 0x80 | 0x84 => some {}
  | 0x0C => some { w1c := 0xFF#32 }
  | 0x10 => some { rw := 0xFF#32 }
  | 0x20 => some { rw := 0xFFFF#32 }
  | 0x78 => some { w1c := 0x100#32 }
  | 0x100 | 0x104 | 0x108 | 0x118 | 0x11C => some {}
  | 0x10C => some { rw := 0x803F07FF#32 }
  | 0x110 => some { rw := 0x3F00#32, w1c := 0x3F#32 }
  | 0x200 => some { rw := 0x7F7F7F00#32, rwl := 3#32, en := regionBase r }
  | 0x204 | 0x20C | 0x210 => some {}
  | 0x208 => some { rw := 4#32 }
  | 0x214 => some { rw := 0xFFFFFFFF#32 }
  | _ =>
    if 0x30 ≤ o ∧ o < 0x50 ∧ o % 4 = 0 then some { rw := if o % 8 = 0 then 0x7FFFF#32 else 0xFFFF#32 }
    else if 0x50 ≤ o ∧ o < 0x70 ∧ o % 4 = 0 then some {}
    else none

/-- A register of the region block as it reads (R104 to R110, R196, R197, R219). -/
def State.regionRead (s : State) (r o : Nat) : Option Word32 :=
  let x := s.region r
  let w := fun n : Nat => some (BitVec.ofNat 32 n)
  match o with
  | 0x08 => w x.seqStatus
  | 0x14 => w x.evtRetWord
  | 0x18 => w (x.vectors 0)
  | 0x1C => w (x.vectors 4)
  | 0x104 => w x.drl.status
  | _ =>
    if 0x50 ≤ o ∧ o < 0x70 ∧ o % 4 = 0 then w (x.lstk ((o - 0x50) / 8) (o % 8 == 4))
    else (regionSpec r o).map (fun _ => s.rg (regionBase r + o))

/-- A write of DRL_CTRL: its fields, then its commands in ascending bit order (R170, R196). -/
def State.drlCtrlWrite (s : State) (r : Nat) (v : Word32) : State :=
  let rec_ := fld v 16 6
  let s := (s.setRf (regionBase r + 0x100) 24 6 (fld v 24 6)).drlRec r rec_
  let s := if v.getLsbD 0 then s.drlPreload r rec_ else s
  let s := if v.getLsbD 1 then s.drlArm r rec_ else s
  let s := if v.getLsbD 2 then s.drlDisarm r else s
  let s := if v.getLsbD 3 then s.drlSwap r rec_ else s
  let s := if v.getLsbD 4 then s.drlCommit r else s
  if v.getLsbD 5 then s.drlMigrate r (fld v 24 6) else s

/-- A write of RCLK_CTRL: a region written to freewheel starts at FMIN; one that owns a pin is not turned to
freewheel while the pins are active (R204, R219, R360). -/
def State.rclkWrite (s : State) (r : Nat) (v : Word32) : State :=
  let was := s.freewheel r
  let t := s.writeFields (rclk r) ((regionSpec r 0x200).getD {}) v
  match was, t.freewheel r with
  | false, true =>
    if s.rb mioBase 0 && s.ownsPin r then s.regReason r 0x0155
    else (t.setRf (rclk r + 4) 0 7 (t.rf (rclk r) 8 7)).stretchNow r
  | true, false => (t.setRf (rclk r + 4) 0 7 127).stretchNow r
  | _, _ => t

/-- A write of RPWR_CTRL (R214, R216, R219). -/
def State.rpwrWrite (s : State) (m : Master) (r : Nat) (v : Word32) : State :=
  let s := s.writeFields (rclk r + 8) { rw := 4#32 } v
  let s := if v.getLsbD 0 then s.gate m r else s
  if v.getLsbD 1 then s.wakeUp m r else s

/-- A write of REG_CTRL (R104). -/
def State.regCtrlWrite (s : State) (r : Nat) (v : Word32) : State :=
  if v.getLsbD 0 then s.regionEnable r v else s.regionDisable r v

/-- A write into the region block; nothing where no register lies there. -/
def State.regionWrite (s : State) (m : Master) (r o : Nat) (v : Word32) : Option State :=
  match o with
  | 0x00 => some (s.regCtrlWrite r v)
  | 0x100 => some (s.drlCtrlWrite r v)
  | 0x200 => some (s.rclkWrite r v)
  | 0x208 => some (s.rpwrWrite m r v)
  | _ =>
    (regionSpec r o).map (fun f =>
      if 0x30 ≤ o ∧ o < 0x50 ∧ !s.seqIdle r then s else s.writeFields (regionBase r + o) f v)

end Sys2Proof.Machine
end

