-- ==== Sys2Proof/Machine/Scrub.lean ====
section
/-! DEFINITION. The scrubbers: 0 to 3 of the planes, 4 to 7 of the DRAM channels (R319 to R326). -/

namespace Sys2Proof.Machine

/-- The words of a scrubber's pass (R319). -/
def State.scrubWords (s : State) (u : Nat) : Nat := if u < 4 then 524288 else s.dramCap (u - 4) * 2 ^ 25

/-- The place of a scrubber's next visit, with whether a pass ends before it; none while nothing can be
visited (R319, R320, R321). -/
def State.scrubNext (s : State) (u : Nat) : Option (Nat × Bool) :=
  let pos := s.rf (scrReg u + 8) 0 31
  if u < 4 then s.nextWord u 48 pos false
  else
    let d := s.dram (u - 4)
    if (d.st = .run ∨ d.st = .fill) ∧ 0 < s.scrubWords u then
      some (if s.scrubWords u ≤ pos then (0, true) else (pos, false))
    else none

/-- The internal address of word `i` of a scrubber. -/
def State.scrubAddr (s : State) (u i : Nat) : Nat :=
  if u < 4 then cellAddr (regionOf u (i / 32768)) (i / 1024 % 32) (i % 1024) else s.dramAddr (u - 4) (32 * i)

/-- A plane scrubber's visit of the word at `a` starts on port 1: its read phase in the next bank cycle in which
port 1 starts no other access of the bank, its rewrite two bank cycles later (R320, R322). -/
def State.scrubCell (s : State) (a : Nat) : State :=
  match cellOf a with
  | none => s
  | some (r, c, w) =>
    let u := (s.region r).portOneStart c w false
    s.onRegion r (fun x => { x.portOneTake c w u with fixes := x.fixes ++ [{ cell := c, word := w, left := u + 3 }] })

/-- The visit of the word at `a` of channel `c`, behind the requests to its burst (R321 to R323); a word that is
still to be filled is read without a DRAM access (R352). False where the channel froze in front of it. -/
def State.scrubDram (s : State) (c a : Nat) : State × Bool :=
  let l := (s.dramPlace a).2
  let s := s.drainBurst c a
  if (s.dram c).st = .frozen then (s, false)
  else if (s.dram c).unfilled l then (s, true)
  else
    let s := s.dramTouch c l
    let x := s.examine a
    if x.guard then ((s.scrubLog (4 + c) .guard a 0).freeze c 3 a, true)
    else match x.scrubs with
      | some (k, d, syn) => ((s.putLine a d).scrubLog (4 + c) k a syn, true)
      | none => (s, true)

/-- The visit of the word at `a` by scrubber `u`. -/
def State.scrubWord (s : State) (u a : Nat) : State × Bool :=
  if u < 4 then (s.scrubCell a, true) else s.scrubDram (u - 4) a

/-- SCRUB_VISIT (R319): a visit in front of which the channel froze is made again (R321). -/
def State.scrubVisit (s : State) (u : Nat) : State :=
  if !s.rb (scrReg u) 0 then s
  else match s.scrubNext u, (mget {} s.scrubs u).due with
    | some (i, wrapped), some due =>
      if s.now < due then s
      else
        match s.scrubWord u (s.scrubAddr u i) with
        | (s, false) => s
        | (s, true) =>
          let s := if wrapped then s.count (scrReg u + 0xC) else s
          let s := s.onScrub u (fun x => { x with due := some (due + 1000 * s.rf (scrReg u) 16 10) })
          if s.scrubWords u ≤ i + 1 then (s.setRf (scrReg u + 8) 0 31 0).count (scrReg u + 0xC)
          else s.setRf (scrReg u + 8) 0 31 (i + 1)
    | _, _ => s

/-- One scrubber at a second of machine time: the governor applies its bounds (R324, R325). -/
def State.scrubAdaptOne (s : State) (u : Nat) : State :=
  let b := scrReg u
  let ce := (s.rg (b + 0x14)).toNat
  let was := (mget {} s.scrubs u).ceLast
  let iv := s.rf b 16 10
  let s := s.onScrub u (fun x => { x with ceLast := ce })
  let want := if was < ce then (if s.rf (b + 0x10) 24 8 ≤ ce - was then iv / 2 else iv) else 2 * iv
  if !s.rb (govBase + 0x100) 2 then s
  else s.setRf b 16 10 (min (s.rf (b + 0x10) 0 10) (max (s.rf (b + 0x10) 12 10) want))

/-- SCRUB_ADAPT (R324): once per second of machine time. -/
def State.scrubAdapt (s : State) : State := (List.range 8).foldl (fun s u => s.scrubAdaptOne u) s

/-- The check at SCR_CTRL.EN (R326). -/
def State.scrubCheck (s : State) (u : Nat) : List Nat :=
  let b := scrReg u
  let off := fun n : Nat => decide (n < 1) || decide (1000 < n)
  codeIf (off (s.rf b 16 10) || off (s.rf (b + 0x10) 0 10) || off (s.rf (b + 0x10) 12 10) ||
    decide (s.rf (b + 0x10) 0 10 < s.rf (b + 0x10) 12 10)) (if u < 4 then 0x0209 else 0x0640)

/-- A write of SCR_CTRL (R319, R326). -/
def State.scrCtrlWrite (s : State) (u : Nat) (v : Word32) : State :=
  let b := scrReg u
  let was := s.rb b 0
  let s := s.writeFields b { rw := 0x03FF0000#32 } v
  if !v.getLsbD 0 then s.setRb b 0 false
  else if was then s
  else
    let (s, ok) := s.enableCheck b (b + 4) (s.scrubCheck u)
    let t := s.now
    if !ok then s
    else
      let s := s.onScrub u (fun x => { x with due := some t })
      if u < 4 then s.scrubSees u else s

/-- SCRUB_VISIT (R319). -/
def execScrubVisit (dram : Bool) (k : Fin 4) (s : State) : Host.Outcome State Fault Refusal :=
  live s (s.scrubVisit (if dram then k.val + 4 else k.val))
/-- SCRUB_ADAPT (R324). -/
def execScrubAdapt (s : State) : Host.Outcome State Fault Refusal := finish s s.scrubAdapt
/-- SCRUB_ENABLE (R326): a write of SCR_CTRL that sets EN. -/
def execScrubEnable (u : Fin 8) (v : Word32) (s : State) : Host.Outcome State Fault Refusal :=
  finish s (s.scrCtrlWrite u (setBit v 0 true))

end Sys2Proof.Machine
end

