-- ==== Sys2Proof/Machine/RegPlane.lean ====
section
/-! DEFINITION. The plane register block: queues, MEM-cell owners, line code, march test (R129 to R132, R156
to R160, R326, R477). -/

namespace Sys2Proof.Machine

/-- The registers of one queue and how each takes a write (R157, R158). -/
def queueSpec (b o : Nat) : Option RegSpec :=
  match o with
  | 0x08 | 0x0C | 0x14 | 0x24 =>
    some { rwl := if o = 0x14 then 0x00FFFFFF#32 else 0xFFFFFFFF#32, en := b }
  | 0x10 => some { rwl := 0xFF#32, en := b }
  | 0x18 => some { rwl := 0xF3FFF#32, en := b }
  | 0x1C | 0x20 => some { rw := 0x0FFFFFFF#32 }
  | 0x00 | 0x04 | 0x28 | 0x2C | 0x30 | 0x34 | 0x38 => some {}
  | _ => none

/-- Q_MARK (R158). -/
def Queue.markWord (x : Queue) : Nat :=
  x.marked % 2 ^ 28 + b2n x.mpend * 2 ^ 28 + b2n x.mark.isSome * 2 ^ 29 + b2n x.mlostf * 2 ^ 30

/-- Q_PKT (R143, R158). -/
def Queue.pktWord (x : Queue) : Nat := min 65535 x.pkts + x.tail.length % 32 * 2 ^ 16 + x.head.length % 32 * 2 ^ 21

/-- Q_NOTICE (R158). -/
def Queue.noticeWord (x : Queue) : Nat :=
  b2n x.hl + 2 * b2n x.ll + 4 * x.notice.toNat + x.hcnt % 256 * 2 ^ 8 + x.lcnt % 256 * 2 ^ 16

/-- A register of queue `q` as it reads, Q_DATA apart (R157, R158). -/
def State.queueRead (s : State) (q o : Nat) : Option Word32 :=
  let x := s.queue q
  match o with
  | 0x28 => some (BitVec.ofNat 32 (x.occ (s.simple q) % 2 ^ 28))
  | 0x2C => some (BitVec.ofNat 32 x.markWord)
  | 0x30 => some (BitVec.ofNat 32 x.pktWord)
  | 0x34 => some (BitVec.ofNat 32 x.noticeWord)
  | _ => (queueSpec (queueBase q) o).map (fun _ => s.rg (queueBase q + o))

/-- A write of Q_NOTICE (R9, R158). -/
def State.noticeWrite (s : State) (q : Nat) (v : Word32) : State :=
  s.onQueue q (fun x => { x with
    hcnt := fld v 8 8, lcnt := fld v 16 8, notice := x.notice &&& ~~~ BitVec.ofNat 6 (fld v 2 6) })

/-- A write of Q_CMD: its commands in the order FLUSH, REWIND, RELEASE, SETMARK (R153, R159). -/
def State.queueCmd (s : State) (q : Nat) (v : Word32) : State :=
  let s := s.timersFirst q 0
  let s := if bit v 0 then s.cmdFlush q else s
  let s := if bit v 2 then s.cmdRewind q else s
  let s := if bit v 3 then s.cmdRelease q else s
  if bit v 1 then s.cmdSetmark q else s

/-- A write of Q_CTRL (R155). -/
def State.qCtrlWrite (s : State) (q : Nat) (v : Word32) : State :=
  if bit v 0 then s.queueEnable q v else s.queueDisable q v

/-- A write of a register of queue `q`, Q_DATA apart. -/
def State.queueWrite (s : State) (q o : Nat) (v : Word32) : Option State :=
  match o with
  | 0x00 => some (s.qCtrlWrite q v)
  | 0x34 => some (s.noticeWrite q v)
  | 0x38 => some (s.queueCmd q v)
  | _ => (queueSpec (queueBase q) o).map (fun f => s.writeFields (queueBase q + o) f v)

/-- QE_NPENDn of plane `p` (R160). -/
def State.npend (s : State) (p n : Nat) : Word32 :=
  (List.range 32).foldl (fun (w : Word32) k => setBit w k ((s.queue (128 * p + 32 * n + k)).notice != 0)) 0

/-! Line code. -/

/-- The line-code registers and how each takes a write (R326). -/
def scrSpec (o : Nat) : Option RegSpec :=
  match o with
  | 0x00 | 0x04 | 0x08 | 0x20 => some {}
  | 0x0C | 0x14 | 0x18 => some { rw := 0xFFFFFFFF#32 }
  | 0x10 => some { rw := 0xFF3FF3FF#32 }
  | 0x1C => some { rw := 0xFF00#32 }
  | 0x24 => some { rw := 0xF0000#32, w1c := 0xF#32 }
  | _ =>
    if 0x100 ≤ o ∧ o < 0x200 ∧ o % 4 = 0 then some { w1c := if o % 16 = 8 then 0x80000000#32 else 0 } else none

/-- A line-code register of unit `u`. -/
def State.scrRead (s : State) (u o : Nat) : Option Word32 := (scrSpec o).map (fun _ => s.rg (scrReg u + o))

/-- A write of a line-code register of unit `u`. -/
def State.scrWrite (s : State) (u o : Nat) (v : Word32) : Option State :=
  if o = 0 then some (s.scrCtrlWrite u v) else (scrSpec o).map (fun f => s.writeFields (scrReg u + o) f v)

/-! The march test. -/

/-- A write of MT_CMD: its fields, GO, ABORT (R9, R459, R460). -/
def State.mtCmdWrite (s : State) (p : Nat) (v : Word32) : State :=
  let s := if bit v 0 then s.marchGo p v else s.writeFields (planeBase p + 0xE000) marchCmdSpec v
  if bit v 1 then s.marchAbort p else s

/-- The other registers of a plane and how each takes a write (R130 to R132, R160, R477). -/
def planeSpec (o : Nat) : Option RegSpec :=
  match o with
  | 0x2000 | 0x2004 | 0x2008 | 0x200C => some {}
  | 0x2010 => some { rw := 0xFFFFFFFF#32 }
  | 0x2014 => some { w1c := 0x80000000#32 }
  | 0xC800 => some {}
  | 0xC804 => some { w1c := 7#32 }
  | 0xC808 | 0xC80C | 0xC810 => some { rw := 0xFFFFFFFF#32 }
  | 0xC814 => some { w1c := 0x80000000#32 }
  | 0xE000 | 0xE008 | 0xE018 => some {}
  | 0xE004 => some { w1c := 0x40000000#32 }
  | 0xE00C => some { rw := 0xFFFF#32 }
  | 0xE010 | 0xE01C => some { rw := 0xFFFFFFFF#32 }
  | 0xE014 => some { w1c := 0x80000000#32 }
  | 0xE020 => some { rw := 0x30000#32, w1c := 3#32 }
  | _ => if 0xC000 ≤ o ∧ o < 0xC800 ∧ o % 4 = 0 then some {} else none

/-- A register of plane `p` as it reads, Q_DATA apart. -/
def State.planeRead (s : State) (p o : Nat) : Option Word32 :=
  if o < 0x2000 then s.queueRead (128 * p + o / 0x40) (o % 0x40)
  else if 0xD000 ≤ o ∧ o < 0xD200 then s.scrRead p (o - 0xD000)
  else (planeSpec o).map (fun _ =>
    if o < 0x2010 then s.npend p ((o - 0x2000) / 4)
    else if o = 0xE000 then setBit (s.rg (planeBase p + o)) 0 (s.rb (mtStat p) 31)
    else if o = 0xE004 then s.mtStatRead p
    else s.rg (planeBase p + o))

/-- A write of a register of plane `p`, Q_DATA apart. -/
def State.planeWrite (s : State) (p o : Nat) (v : Word32) : Option State :=
  if o < 0x2000 then s.queueWrite (128 * p + o / 0x40) (o % 0x40) v
  else if 0xD000 ≤ o ∧ o < 0xD200 then s.scrWrite p (o - 0xD000) v
  else (planeSpec o).map (fun f =>
    if 0xC000 ≤ o ∧ o < 0xC800 then
      let k := (o - 0xC000) / 4
      s.ownerWrite (regionOf p (k / 32)) (k % 32) v
    else if o = 0xE000 then s.mtCmdWrite p v
    else s.writeFields (planeBase p + o) f v)

end Sys2Proof.Machine
end

