-- ==== Sys2Proof/Machine/MlDsa.lean ====
section
/-! DEFINITION. ML-DSA-87 of FIPS 204, as the image loader and the puppeteer's engine use it (R269, R420, R431 to
R433). A polynomial is the list of its 256 coefficients modulo q, the lowest first; its transform is the list of its
values at the 256 odd powers of the root 1753, in bit-reversed order. -/

namespace Sys2Proof.Machine

/-- The modulus q. -/
def dsaQ : Nat := 8380417

/-- A polynomial or its transform. -/
abbrev Poly := List Nat

/-- The `n`th power of `x` modulo q. -/
def powQ (x : Nat) : Nat → Nat
  | 0 => 1
  | n + 1 => x * powQ x n % dsaQ

/-- A number of eight bits read from its other end. -/
def mirror8 (i : Nat) : Nat := (List.range 8).foldl (fun a j => 2 * a + i / 2 ^ j % 2) 0

/-- The points of the transform, and their inverses: the root has order 512. -/
def dsaPoints : List Nat := (List.range 256).map (fun i => powQ 1753 (2 * mirror8 i + 1))
def dsaInverses : List Nat := (List.range 256).map (fun i => powQ 1753 (511 - 2 * mirror8 i))

/-- Coefficient by coefficient. -/
def polyMul (a b : Poly) : Poly := List.zipWith (fun x y => x * y % dsaQ) a b
def polyAdd (a b : Poly) : Poly := List.zipWith (fun x y => (x + y) % dsaQ) a b
def polySub (a b : Poly) : Poly := List.zipWith (fun x y => (x + dsaQ - y) % dsaQ) a b

/-- The transform: the values at the points. -/
def transform (p : Poly) : Poly := dsaPoints.map (fun x => p.foldr (fun c acc => (c + x * acc) % dsaQ) 0)

/-- The sums of a list and of its products with rising powers of the inverse points, `n` of them; 8347681 is the
inverse of 256. -/
def sumsBack : Nat → Poly → Poly
  | 0, _ => []
  | n + 1, t => (8347681 * t.sum % dsaQ) :: sumsBack n (polyMul t dsaInverses)

/-- The polynomial of a transform. -/
def untransform (p : Poly) : Poly := sumsBack 256 p

/-- A residue of modulus `m` as the number nearest to 0. -/
def centred (m r : Nat) : Int := if m / 2 < r % m then (r % m : Int) - m else r % m

/-- A number, negative or not, as a residue modulo q. -/
def residue (x : Int) : Nat := (x % dsaQ).toNat

/-- The largest absolute value among the coefficients. -/
def polyNorm (p : Poly) : Nat := p.foldl (fun a c => max a (centred dsaQ c).natAbs) 0

/-! Bytes. -/

/-- Numbers of `w` bits each, packed from the lowest bit up. -/
def packBits (w : Nat) (l : List Nat) : List (BitVec 8) :=
  natBytes (w * l.length / 8) (l.foldr (fun c acc => c + 2 ^ w * acc) 0)

/-- `n` numbers of `w` bits each. -/
def unpackBits (w n : Nat) (l : List (BitVec 8)) : List Nat :=
  let x := messageNat l
  (List.range n).map (fun i => x / 2 ^ (w * i) % 2 ^ w)

/-- Part `i` of a list cut into parts of `n`. -/
def part {α : Type} (l : List α) (n i : Nat) : List α := (l.drop (n * i)).take n

/-- SHAKE128 with `n` output bytes. -/
def shake128 (n : Nat) (m : List (BitVec 8)) : List (BitVec 8) := sponge 168 0x1F n m

/-! Sampling. What is drawn from a stream is taken from a stretch of it long enough but with a chance below 2^-250. -/

/-- The 23-bit candidates of a stream of bytes. -/
def candidates : List (BitVec 8) → List Nat
  | a :: b :: c :: r => (a.toNat + 256 * b.toNat + 65536 * (c.toNat % 128)) :: candidates r
  | _ => []

/-- A uniform transform (RejNTTPoly). -/
def uniformPoly (seed : List (BitVec 8)) : Poly := ((candidates (shake128 1344 seed)).filter (· < dsaQ)).take 256

/-- A polynomial with coefficients from -2 to 2 (RejBoundedPoly). -/
def smallPoly (seed : List (BitVec 8)) : Poly :=
  ((((shake256 680 seed).flatMap (fun b => [b.toNat % 16, b.toNat / 16])).filter (· < 15)).take 256).map
    (fun b => residue (2 - (b % 5 : Nat)))

/-- Places the signs `h`, lowest first, of a challenge from coefficient `i` on. -/
def placeSigns : List (BitVec 8) → Nat → Nat → Poly → Poly
  | [], _, _, c => c
  | b :: r, i, h, c =>
    if 256 ≤ i then c
    else if i < b.toNat then placeSigns r i h c
    else placeSigns r (i + 1) (h / 2) ((c.set i (c.getD b.toNat 0)).set b.toNat (if h % 2 = 1 then dsaQ - 1 else 1))

/-- The challenge of 60 coefficients 1 or -1 (SampleInBall). -/
def challenge (seed : List (BitVec 8)) : Poly :=
  let l := shake256 544 seed
  placeSigns (l.drop 8) 196 (messageNat (l.take 8)) (List.replicate 256 0)

/-- Entry (r, s) of the matrix of a public seed (ExpandA). -/
def matrixAt (rho : List (BitVec 8)) (r s : Nat) : Poly := uniformPoly (rho ++ natBytes 1 s ++ natBytes 1 r)

/-- The product of the matrix with a vector of transforms, as transforms. -/
def matrixTimes (rho : List (BitVec 8)) (v : List Poly) : List Poly :=
  (List.range 8).map (fun r => v.zipIdx.foldl (fun acc e => polyAdd acc (polyMul (matrixAt rho r e.2) e.1)) (List.replicate 256 0))

/-- The mask of attempt `k` of a signature (ExpandMask). -/
def maskPolys (seed : List (BitVec 8)) (k : Nat) : List Poly :=
  (List.range 7).map (fun r =>
    (unpackBits 20 256 (shake256 640 (seed ++ natBytes 2 (7 * k + r)))).map (fun (z : Nat) => residue (524288 - (z : Int))))

/-! Rounding. -/

/-- High and low part of a residue around multiples of 2 × 261,888 (Decompose). -/
def splitRound (r : Nat) : Nat × Int :=
  let low := centred 523776 (r % dsaQ)
  if ((r % dsaQ : Nat) : Int) - low = (dsaQ : Int) - 1 then (0, low - 1) else ((((r % dsaQ : Nat) : Int) - low).toNat / 523776, low)

/-- The high part that a hint corrects (UseHint). -/
def hinted (h : Bool) (r : Nat) : Nat :=
  let (a, b) := splitRound r
  if !h then a else if 0 < b then (a + 1) % 16 else (a + 15) % 16

/-! Keys. -/

/-- A key pair: the public seed, the secret seed, the secret vectors, the low part of t, the public key. -/
structure DsaKey where
  rho : List (BitVec 8)
  secret : List (BitVec 8)
  s1 : List Poly
  s2 : List Poly
  t0 : List Poly
  pub : List (BitVec 8)

/-- The key pair of a seed (ML-DSA.KeyGen_internal). -/
def dsaKeyGen (seed : List (BitVec 8)) : DsaKey :=
  let h := shake256 128 (seed ++ [8#8, 7#8])
  let rho := h.take 32
  let s1 := (List.range 7).map (fun r => smallPoly ((h.drop 32).take 64 ++ natBytes 2 r))
  let s2 := (List.range 8).map (fun r => smallPoly ((h.drop 32).take 64 ++ natBytes 2 (7 + r)))
  let t := List.zipWith polyAdd ((matrixTimes rho (s1.map transform)).map untransform) s2
  let t0 := t.map (fun p => p.map (fun c => residue (centred 8192 c)))
  let t1 := t.map (fun p => p.map (fun (c : Nat) => ((c : Int) - centred 8192 c).toNat / 8192))
  { rho := rho, secret := h.drop 96, s1 := s1, s2 := s2, t0 := t0, pub := rho ++ t1.flatMap (packBits 10) }

/-! Signing. -/

/-- The message as it is signed, with a context. -/
def dsaMessage (ctx m : List (BitVec 8)) : List (BitVec 8) := natBytes 1 0 ++ natBytes 1 ctx.length ++ ctx ++ m

/-- The bytes of hints: the places of each polynomial, then how many there are up to each (HintBitPack). -/
def packHints (h : List (List Bool)) : List (BitVec 8) :=
  let places := h.map (fun p => (List.range 256).filter (fun j => p.getD j false))
  let all := places.flatMap (fun l => l.map (natBytes 1 ·))
  let ends := (List.range 8).map (fun i => ((places.take (i + 1)).map List.length).sum)
  all.flatten ++ List.replicate (75 - all.length) 0 ++ ends.flatMap (natBytes 1)

/-- One attempt at a signature with mask `y`, none where it is rejected (ML-DSA.Sign_internal). -/
def signAttempt (k : DsaKey) (mu : List (BitVec 8)) (y : List Poly) : Option (List (BitVec 8)) :=
  let w := (matrixTimes k.rho (y.map transform)).map untransform
  let seed := shake256 64 (mu ++ w.flatMap (fun p => packBits 4 (p.map (fun c => (splitRound c).1))))
  let c := transform (challenge seed)
  let times := fun v : List Poly => v.map (fun p => untransform (polyMul c (transform p)))
  let z := List.zipWith polyAdd y (times k.s1)
  let v := List.zipWith polySub w (times k.s2)
  let low := v.foldl (fun a p => p.foldl (fun a c => max a (splitRound c).2.natAbs) a) 0
  let ct0 := times k.t0
  let h := List.zipWith (fun p q => List.zipWith (fun a b => (splitRound a).1 != (splitRound ((a + b) % dsaQ)).1) p q) v ct0
  let many := (h.map (fun p => (p.filter id).length)).sum
  if 524168 ≤ (z.foldl (fun a p => max a (polyNorm p)) 0) ∨ 261768 ≤ low ∨ 261888 ≤ (ct0.foldl (fun a p => max a (polyNorm p)) 0) ∨
      75 < many then none
  else some (seed ++ z.flatMap (fun p => packBits 20 (p.map (fun c => (524288 - centred dsaQ c).toNat))) ++ packHints h)

/-- The first attempt from number `k` on that is not rejected, within `f` attempts. -/
def signFrom (key : DsaKey) (mu seed : List (BitVec 8)) : Nat → Nat → Option (List (BitVec 8))
  | 0, _ => none
  | f + 1, k =>
    match signAttempt key mu (maskPolys seed k) with
    | some s => some s
    | none => signFrom key mu seed f (k + 1)

/-- The signature of a message with context `ctx` and the 32 random bytes `rnd` of the hedged variant; none only
where 814 attempts were all rejected, with a chance below 2^-256. -/
def dsaSign (key : DsaKey) (ctx m rnd : List (BitVec 8)) : Option (List (BitVec 8)) :=
  let mu := shake256 64 (shake256 64 key.pub ++ dsaMessage ctx m)
  signFrom key mu (shake256 64 (key.secret ++ rnd ++ mu)) 814 0

/-! Verification. -/

/-- The hints that 83 bytes spell, none where they have not the form that packing gives (HintBitUnpack). -/
def unpackHints (l : List (BitVec 8)) : Option (List (List Bool)) :=
  let x := l.map BitVec.toNat
  let end_ := fun i => if i = 0 then 0 else x.getD (75 + i - 1) 0
  let places := fun i => (x.take (end_ (i + 1))).drop (end_ i)
  let rising := fun p : List Nat => (List.range (p.length - 1)).all (fun j => p.getD j 0 < p.getD (j + 1) 0)
  if (List.range 8).all (fun i => end_ i ≤ end_ (i + 1) && end_ (i + 1) ≤ 75 && rising (places i)) &&
      ((x.take 75).drop (end_ 8)).all (· == 0) then
    some ((List.range 8).map (fun i => (List.range 256).map (fun j => (places i).contains j)))
  else none

/-- Whether a signature over a message verifies under a public key, with an empty context (R420, R433). -/
def dsaValid (m sig pub : List (BitVec 8)) : Bool :=
  let rho := pub.take 32
  let t1 := (List.range 8).map (fun i => unpackBits 10 256 (part (pub.drop 32) 320 i))
  let seed := sig.take 64
  let z := (List.range 7).map (fun i =>
    (unpackBits 20 256 (part (sig.drop 64) 640 i)).map (fun (v : Nat) => residue (524288 - (v : Int))))
  match unpackHints (sig.drop 4544) with
  | none => false
  | some h =>
    let mu := shake256 64 (shake256 64 pub ++ dsaMessage [] m)
    let c := transform (challenge seed)
    let high := t1.map (fun p => polyMul c (transform (p.map (fun x => x * 8192 % dsaQ))))
    let w := (List.zipWith polySub (matrixTimes rho (z.map transform)) high).map untransform
    let w1 := List.zipWith (fun p q => List.zipWith hinted p q) h w
    decide (pub.length = 2592) && decide (sig.length = 4627) && decide (z.foldl (fun a p => max a (polyNorm p)) 0 < 524168) &&
      seed == shake256 64 (mu ++ w1.flatMap (packBits 4))

end Sys2Proof.Machine
end

