-- ==== Sys2Proof/Machine/ShaMld.lean ====
section
/-! DEFINITION. The puppeteer's SHA3 and ML-DSA engines (R269, R316, R431 to R433). -/

namespace Sys2Proof.Machine

/-- The digest of a message by ALG: SHA3-256, SHA3-512, SHAKE256 of OLEN bytes (R433). -/
def shaOut (alg olen : Nat) (m : List (BitVec 8)) : List (BitVec 8) :=
  if alg = 0 then sha3Of256 m else if alg = 1 then sha3Of512 m else shake256 (min 64 olen) m

/-- A write of SHA_CTRL with GO (R433). -/
def State.shaGo (s : State) (v : Word32) : State :=
  if s.rb (engBase + 0x18) 0 then s
  else
    let s := s.writeFields engBase { rw := 0x36#32 } v
    let alg := s.rf engBase 4 2
    let a := (s.rg (engBase + 8)).toNat + s.rf (engBase + 0xC) 0 8 * 2 ^ 32
    let (s, x) := s.bytesGet .puppeteer a (s.rg (engBase + 0x10)).toNat
    let s := s.setRb (engBase + 0x18) 0 true
    if x.status ≠ 0 ∨ x.bad ∨ alg = 3 then { s with sha := { s.sha with ends := some none } }
    else
      let m := (if s.rb engBase 1 then s.sha.msg else []) ++ x.bytes.map (·.1)
      let o := if s.rb engBase 2 then shaOut alg (s.rf (engBase + 0x14) 0 7) m else []
      { s with sha := { msg := m, ends := some (some o) } }

/-- Stores bytes in consecutive registers from `o` on. -/
def State.regBytes (s : State) (o : Nat) (l : List (BitVec 8)) : State :=
  (List.range (l.length / 4)).foldl (fun s k => s.setRg (o + 4 * k) (BitVec.ofNat 32 (bytesNat ((l.drop (4 * k)).take 4)))) s

/-- A digest into SHA_OUT, a word at a time; bytes beyond its length keep what they held. -/
def State.shaStore (s : State) (l : List (BitVec 8)) : State :=
  l.zipIdx.foldl (fun s e => s.setRf (engBase + 0x40 + e.2 / 4 * 4) (8 * (e.2 % 4)) 8 e.1.toNat) s

/-- SHA_DONE (R433). -/
def State.shaDone (s : State) : State :=
  match s.sha.ends with
  | none => s
  | some r =>
    let s := ({ s with sha := { s.sha with ends := none } } : State).setRb (engBase + 0x18) 0 false
    match r with
    | none => s.setRb (engBase + 0x18) 2 true
    | some o => (s.shaStore o).setRb (engBase + 0x18) 1 true

/-- The identity key pair, which the engine derives from IDSEED, byte 0 the least significant (R431). -/
def State.identity (s : State) : DsaKey := dsaKeyGen (natBytes 32 s.otp.seed.toNat)

/-- The identity public key (R431). -/
def State.idKey (s : State) : List (BitVec 8) := s.identity.pub

/-- A signature with the identity key, a context and fresh random bytes (R432). -/
def State.signs (s : State) (ctx m : List (BitVec 8)) : State × Option (List (BitVec 8)) :=
  ({ s with fresh := s.fresh + 1 }, dsaSign s.identity ctx m (natBytes 32 (Config.signRandom s.fresh).toNat))

/-- Bytes at a puppeteer core address: none where the access fails or delivers poison (R433). -/
def State.mldRead (s : State) (reg n : Nat) : State × Option (List (BitVec 8)) :=
  match s.coreRange 16 (s.rg reg).toNat n with
  | none => (s, none)
  | some a =>
    let (s, x) := s.bytesGet .puppeteer a n
    (s, if x.status ≠ 0 ∨ x.bytes.any (·.2) then none else some (x.bytes.map (·.1)))

/-- An ML-DSA operation starts: a GO while BUSY is ignored (R433). -/
def State.mldGo (s : State) (op : Nat) (f : State → State × MldJob) : State :=
  if s.mld.isSome then s
  else
    let (s, j) := f ((s.setRf (engBase + 0x100) 1 2 op).setRb (engBase + 0x114) 0 true)
    { s with mld := some j }

/-- VERIFY: message, signature and key are read (R433). -/
def State.mldVerify (s : State) : State × MldJob :=
  let (s, m) := s.mldRead (engBase + 0x108) 64
  let (s, g) := s.mldRead (engBase + 0x10C) 4627
  let (s, k) := s.mldRead (engBase + 0x110) 2592
  match m, g, k with
  | some m, some g, some k => (s, { valid := some (dsaValid m g k) })
  | _, _, _ => (s, { err := true })

/-- SIGN with the identity key and context KWFW (R432, R433). -/
def State.mldSign (s : State) : State × MldJob :=
  let (s, m) := s.mldRead (engBase + 0x108) 64
  match m, s.coreRange 16 (s.rg (engBase + 0x10C)).toNat 4627 with
  | some m, some a => match s.signs [0x4B#8, 0x57#8, 0x46#8, 0x57#8] m with
    | (s, some g) => (s, { dst := a, bytes := g })
    | (s, none) => (s, { err := true })
  | _, _ => (s, { err := true })

/-- PUBKEY (R433). -/
def State.mldPubkey (s : State) : State × MldJob :=
  match s.coreRange 16 (s.rg (engBase + 0x110)).toNat 2592 with
  | some a => (s, { dst := a, bytes := s.idKey })
  | none => (s, { err := true })

/-- MLD_DONE (R433): the outcome and the output bytes. -/
def State.mldDone (s : State) : State :=
  match s.mld with
  | none => s
  | some j =>
    let s := ({ s with mld := none } : State).setRb (engBase + 0x114) 0 false
    let (s, st, _) := s.bytesPut .puppeteer j.dst (j.bytes.map some) false
    let s := match j.valid with
      | some b => s.setRb (engBase + 0x114) 2 b
      | none => s
    s.setRb (engBase + 0x114) (if j.err ∨ st ≠ 0 then 3 else 1) true

/-- SHA_GO (R433). -/
def execShaGo (v : Word32) (s : State) : Host.Outcome State Fault Refusal := finish s (s.shaGo v)
/-- SHA_DONE (R433). -/
def execShaDone (s : State) : Host.Outcome State Fault Refusal := finish s s.shaDone
/-- VERIFY (R433). -/
def execVerify (s : State) : Host.Outcome State Fault Refusal := finish s (s.mldGo 0 State.mldVerify)
/-- SIGN (R433). -/
def execSign (s : State) : Host.Outcome State Fault Refusal := finish s (s.mldGo 1 State.mldSign)
/-- PUBKEY (R433). -/
def execPubkey (s : State) : Host.Outcome State Fault Refusal := finish s (s.mldGo 2 State.mldPubkey)
/-- MLD_DONE (R433). -/
def execMldDone (s : State) : Host.Outcome State Fault Refusal := finish s s.mldDone

end Sys2Proof.Machine
end

