-- ==== Sys2Proof/Machine/RegControl.lean ====
section
/-! DEFINITION. The registers of the scheduler, the event controller, the network, the control cores, the
test block, the governor, the boot and security block, the tandem block and the DRAM channels as masters
read and write them. -/

namespace Sys2Proof.Machine

/-! The scheduler (R244 to R246). -/

/-- The scheduler's registers and how each takes a write. -/
def schSpec (o : Nat) : Option RegSpec :=
  match o with
  | 0x00 | 0x04 | 0x14 | 0x18 | 0x34 | 0x38 | 0x40 | 0x44 | 0x50 | 0x68 | 0x6C | 0x140 | 0x144 | 0x148 | 0x14C => some {}
  | 0x08 => some { rwl := 0xFFFFFFFF#32, en := schBase }
  | 0x0C => some { rwl := 0xFF#32, en := schBase }
  | 0x10 | 0x20 | 0x24 | 0x60 | 0x64 => some { rw := 0xFFFFFFFF#32 }
  | 0x30 => some { rw := 0xFFFF#32 }
  | 0x54 => some { rw := 0x1F00#32, w1c := 0x1F#32 }
  | 0x58 | 0x5C => some { w1c := 0x80000000#32 }
  | _ =>
    if 0x100 ≤ o ∧ o < 0x140 ∧ o % 4 = 0 then some { rw := 0xFFFF#32 }
    else if 0x200 ≤ o ∧ o < 0x300 ∧ o % 4 = 0 then some {}
    else none

/-- A scheduler register as it reads (R246). -/
def State.schRead (s : State) (o : Nat) : Option Word32 :=
  let id := s.rf (schBase + 0x30) 0 16
  let t := s.taskPeek id
  let w := fun n : Nat => some (BitVec.ofNat 32 n)
  match o with
  | 0x34 => w (t.status (mget none s.sched.tasks id).isSome)
  | 0x38 => some t.arg
  | 0x40 => w t.wake
  | 0x44 => w (t.wake / 2 ^ 32)
  | 0x50 => w (s.sched.dlyOn % 2 ^ 13 + s.sched.rdyOn % 2 ^ 12 * 2 ^ 16 + b2n s.sched.spillErr * 2 ^ 31)
  | 0x144 | 0x148 | 0x14C =>
    let j := (o - 0x144) / 4
    some ((List.range 32).foldl (fun (v : Word32) k => setBit v k (s.sched.waiting.any (fun e => e.1 == 32 * j + k))) 0)
  | _ =>
    if 0x200 ≤ o ∧ o < 0x300 ∧ o % 4 = 0 then w (mget {} s.sched.lvls ((o - 0x200) / 4)).ids.length
    else (schSpec o).map (fun _ => s.rg (schBase + o))

/-- A write of SCH_CMD (R230, R231, R245). -/
def State.schCmdWrite (s : State) (v : Word32) : State :=
  let id := fld v 0 16
  let opnd := s.rg (schBase + 0x10)
  let a : SchAns := match fld v 28 4 with
    | 1 => s.schDefine id (fld v 16 6) (fld v 22 4) (bit v 26) opnd
    | 2 => s.schUndefine id
    | 3 => s.schReady id
    | 4 => s.schDelay id (s.now + opnd.toNat)
    | 5 => s.schDelay id (s.rg64 (schBase + 0x20))
    | 6 => s.schCancel id
    | 7 => s.schSetarg id opnd
    | _ => { s := s, code := if s.schOn then 0x0416 else 0x0415 }
  a.toReg

/-- A write of a scheduler register. -/
def State.schWrite (s : State) (o : Nat) (v : Word32) : Option State :=
  match o with
  | 0x00 => some (s.schCtrlWrite v)
  | 0x14 => some (s.schCmdWrite v)
  | 0x140 => some (s.tkoffWrite v)
  | _ => (schSpec o).map (fun f => s.writeFields (schBase + o) f v)

/-! The event controller and the cadence table (R199, R272). -/

/-- The cadence table's registers and how each takes a write (R199). -/
def cadSpec (o : Nat) : Option RegSpec :=
  if 0x8000 ≤ o ∧ o < 0x9000 then
    match o % 0x20 with
    | 0x00 | 0x04 | 0x10 | 0x14 => some { rw := 0xFFFFFFFF#32 }
    | 0x08 => some { rw := 0x8F3F000F#32 }
    | _ => none
  else if o = 0x9000 then some { rw := 1#32 }
  else if o = 0x9004 then some { w1c := 0x80000000#32 }
  else none

/-- EV_PENDk of the core that EV_PSEL names (R272). -/
def State.evPend (s : State) (k : Nat) : Word32 :=
  let c := s.core (s.rf (evBase + 0x4008) 0 5)
  (List.range 32).foldl (fun (v : Word32) j => setBit v j (mget none c.pend (32 * k + j)).isSome) 0

/-- A write of EV_PENDk: pending bits cleared (R271, R272). -/
def State.evPendWrite (s : State) (k : Nat) (v : Word32) : State :=
  let n := s.rf (evBase + 0x4008) 0 5
  if n < 17 then
    s.onCore n (fun c => { c with pend := (List.range 32).foldl (fun m j => if bit v j then mdel (32 * k + j) m else m) c.pend })
  else s

/-- An event-controller register as it reads. -/
def State.evRead (s : State) (o : Nat) : Option Word32 :=
  if o < 0x4000 ∧ o % 4 = 0 then some (s.rg (evBase + o))
  else if 0x4100 ≤ o ∧ o < 0x4200 ∧ o % 4 = 0 then some (if s.rf (evBase + 0x4008) 0 5 < 17 then s.evPend ((o - 0x4100) / 4) else 0)
  else if o = 0x4000 ∨ o = 0x4004 ∨ o = 0x4008 then some (s.rg (evBase + o))
  else if o = 0x4200 then some 0
  else (cadSpec o).map (fun _ => s.rg (evBase + o))

/-- A write of the cadence table (R183, R185, R199). -/
def State.cadRegWrite (s : State) (o : Nat) (f : RegSpec) (v : Word32) : State :=
  let t := s.writeFields (evBase + o) f v
  if o < 0x9000 then t.cadWritten ((o - 0x8000) / 0x20) (o % 0x20 == 8 && v.getLsbD 31)
  else if o = 0x9000 ∧ s.rb (evBase + o) 0 = false ∧ v.getLsbD 0 then t.cadRise
  else t

/-- A write of an event-controller register: EV_RAISE is the puppeteer's (R272). -/
def State.evWrite (s : State) (m : Master) (o : Nat) (v : Word32) : Option (State × Nat) :=
  if o < 0x4000 ∧ o % 4 = 0 then some (s.routeWrite (o / 8) (o % 8 == 4) v, 0)
  else if 0x4100 ≤ o ∧ o < 0x4200 ∧ o % 4 = 0 then some (s.evPendWrite ((o - 0x4100) / 4) v, 0)
  else match o with
    | 0x4000 => some (s.evCtrlWrite v, 0)
    | 0x4004 => some (s, 0)
    | 0x4008 => some (s.writeFields (evBase + o) { rw := 0x1F#32 } v, 0)
    | 0x4200 => some (if m = .puppeteer then (s.raise (fld v 0 11), 0) else (s, 1))
    | _ => (cadSpec o).map (fun f => (s.cadRegWrite o f v, 0))

/-! The network (R301 to R303). -/

/-- The network's registers and how each takes a write, routing tables apart. -/
def nocSpec (o : Nat) : Option RegSpec :=
  match o with
  | 0x00 | 0x04 | 0x08 | 0x0C | 0xF0 => some {}
  | 0x10 | 0x14 | 0x60 | 0x64 | 0x68 | 0xF4 => some { rw := 0xFFFFFFFF#32 }
  | 0x18 => some { rw := 0xFFF#32 }
  | 0x70 => some { w1c := 0x80000000#32 }
  | 0x74 => some { rw := 0x07FF0000#32, w1c := 0x7FF#32 }
  | _ =>
    if 0x24 ≤ o ∧ o ≤ 0x40 ∧ o % 4 = 0 then some { rw := 0xFFFFFFFF#32 }
    else if 0x100 ≤ o ∧ o < 0x300 then
      let b := nocBase + o - o % 0x40
      match o % 0x40 with
      | 0x00 => some {}
      | 0x04 | 0x08 | 0x0C => some { rwl := 0xFFFFFFFF#32, en := b, enBit := 31 }
      | 0x10 => some { rwl := 0x1FF#32, en := b, enBit := 31 }
      | 0x14 | 0x18 | 0x1C | 0x20 | 0x24 | 0x28 => some { rw := 0xFFFFFFFF#32 }
      | _ => none
    else if 0x8000 ≤ o ∧ o < 0x10000 ∧ o % 4 = 0 then some {}
    else none

/-- The bank, router and register index of a routing-table offset (R301). -/
def rtPlace (o : Nat) : Option (Nat × Nat × Nat) :=
  let p := o - 0x10000
  let b := p / 0x4000
  let t := p % 0x4000 / 0x40
  let k := p % 0x40 / 4
  if 0x10000 ≤ o ∧ b < 2 ∧ t < 76 ∧ k < 10 ∧ o % 4 = 0 then some (b, t, k) else none

/-- A network register as it reads. -/
def State.nocRead (s : State) (o : Nat) : Option Word32 :=
  if o = 0x0C then some (BitVec.ofNat 32 s.nocOld)
  else if 0x8000 ≤ o ∧ o < 0x10000 ∧ o % 4 = 0 then
    some (BitVec.ofNat 32 (fld (mget 0 s.noc.trace ((o - 0x8000) / 16)) (8 * (o % 16)) 32))
  else match rtPlace o with
    | some _ => some (s.rg (nocBase + o))
    | none => (nocSpec o).map (fun _ => s.rg (nocBase + o))

/-- A write of a network register. -/
def State.nocWrite (s : State) (m : Master) (o : Nat) (v : Word32) : Option (State × Nat) :=
  match rtPlace o with
  | some (b, t, k) => some (s.rtWrite m b t k v)
  | none =>
    if o = 0 then some (s.nocCtrlWrite v, 0)
    else if 0x100 ≤ o ∧ o < 0x300 ∧ o % 0x40 = 0 then some (s.probeCtrlWrite ((o - 0x100) / 0x40) v, 0)
    else (nocSpec o).map (fun f => (s.writeFields (nocBase + o) f v, 0))

/-! The control cores (R268, R329). -/

/-- The registers of core `n` and how each takes a write. -/
def ccSpec (n o : Nat) : Option RegSpec :=
  match o with
  | 0x00 | 0x04 | 0x10 | 0x14 | 0x18 => some {}
  | 0x08 => some { rwl := 0xFFFFE001#32, en := ccReg n }
  | 0x0C => some { rwl := 0xFFFFFFFE#32, en := ccReg n }
  | 0x1C => some { rw := 0xFFFFFFFF#32 }
  | _ => none

/-- A register of core `n` as it reads. -/
def State.ccRead (s : State) (n o : Nat) : Option Word32 :=
  if o = 0x10 then some (BitVec.ofNat 32 (s.ccStatus n)) else (ccSpec n o).map (fun _ => s.rg (ccReg n + o))

/-- A write of a register of core `n`. -/
def State.ccWrite (s : State) (n o : Nat) (v : Word32) : Option State :=
  if o = 0 then some (s.ccCtrlWrite n v) else (ccSpec n o).map (fun f => s.writeFields (ccReg n + o) f v)

/-! The test block (R476). -/

/-- The test block's registers and how each takes a write. -/
def testSpec (o : Nat) : Option RegSpec :=
  match o with
  | 0x00 | 0x0C | 0x34 | 0x44 | 0x48 | 0x4C | 0x50 => some {}
  | 0x04 => some { rw := 0x007F0300#32 }
  | 0x08 => some { w1c := 3#32 }
  | 0x10 => some { rw := 0xF0000#32, w1c := 0xF#32 }
  | 0x20 | 0x24 | 0x28 | 0x2C | 0x38 => some { rw := 0xFFFFFFFF#32 }
  | 0x30 | 0x40 => some { rw := 0xFFFF#32 }
  | _ => none

/-- A test-block register as it reads: GO reads 1 while the BIST runs (R9). -/
def State.testRead (s : State) (o : Nat) : Option Word32 :=
  (testSpec o).map (fun _ => if o = 4 then setBit (s.rg (testBase + 4)) 0 s.bist.isSome else s.rg (testBase + o))

/-- A write of a test-block register; LB_ADATA, LB_ACMD and FTL_CTRL are the puppeteer's (R476). -/
def State.testWrite (s : State) (m : Master) (o : Nat) (v : Word32) : Option (State × Nat) :=
  if ((0x20 ≤ o ∧ o ≤ 0x30) ∨ o = 0x40) ∧ o % 4 = 0 ∧ m ≠ .puppeteer then some (s, 1)
  else if o = 4 ∧ bit v 0 then some (s.bistGo v, 0)
  else if o = 0x30 ∧ bit v 31 then some (s.lbCommand m v, 0)
  else if o = 0x40 ∧ bit v 31 then some (s.fatalRequest m v, 0)
  else (testSpec o).map (fun f => (s.writeFields (testBase + o) f v, 0))

/-! The governor (R220). -/

/-- The governor's registers and how each takes a write. -/
def govSpec (o : Nat) : Option RegSpec :=
  match o with
  | 0x00 | 0x04 | 0x08 | 0x10 | 0x14 | 0x18 | 0x1C | 0x28 | 0x2C | 0x104 | 0x118 => some {}
  | 0x20 => some { rw := 0xFFFF#32 }
  | 0x24 | 0x30 => some { rw := 0xFFFFFFFF#32 }
  | 0x100 => some { rw := 0x1F#32 }
  | 0x108 => some { rw := 0x03FF03FF#32 }
  | 0x10C => some { rw := 0x3F#32 }
  | 0x110 | 0x11C => some { rw := 0xFFFF#32 }
  | 0x114 => some { w1c := 3#32 }
  | _ => if 0x200 ≤ o ∧ o ≤ 0x310 ∧ o % 4 = 0 then some {} else none

/-- A governor register as it reads (R206, R210). -/
def State.govRead (s : State) (o : Nat) : Option Word32 :=
  match o with
  | 0x10 => some (BitVec.ofNat 32 s.now)
  | 0x14 => some (BitVec.ofNat 32 (s.now / 2 ^ 32))
  | 0x20 =>
    let t := if s.mtState = 4 then min 65535 ((s.now - s.mtime.holdFrom) / 1000000000) else 0
    some (setFld (s.rg (govBase + 0x20)) 16 16 t)
  | _ => (govSpec o).map (fun _ => s.rg (govBase + o))

/-- A write of a governor register. -/
def State.govWrite (s : State) (o : Nat) (v : Word32) : Option State :=
  match o with
  | 0x00 => some (s.mtCtrlWrite v)
  | 0x104 => some (s.vtarget (fld v 0 10))
  | 0x118 => some (s.raiseIf (fld v 0 6 < 52) (1996 + fld v 0 6))
  | _ => (govSpec o).map (fun f => s.writeFields (govBase + o) f v)

/-! Boot and security (R200, R435). -/

/-- A 32-bit word of a list of bytes. -/
def wordAt (l : List (BitVec 8)) (k : Nat) : Word32 := BitVec.ofNat 32 (bytesNat ((l.drop (4 * k)).take 4))

/-- OTP_STATUS (R435). -/
def Otp.status (x : Otp) : Nat :=
  x.svnf % 128 + x.keyv.toNat * 2 ^ 8 + x.keyrev.toNat * 2 ^ 12 + b2n x.prov * 2 ^ 16 + b2n x.lock * 2 ^ 17

/-- A boot and security register as it reads; what the fuses give is there from step 1 of a boot on (R416). -/
def State.bootRead (s : State) (o : Nat) : Option Word32 :=
  if o % 4 ≠ 0 then none
  else if !s.signals.porN ∧ (o = 0x2C ∨ (0x140 ≤ o ∧ o < 0x160) ∨ (0x200 ≤ o ∧ o < 0x300)) then some 0
  else if o = 0x2C then some (BitVec.ofNat 32 s.otp.status)
  else if 0x140 ≤ o ∧ o < 0x160 then some (wordAt (sha3Of256 s.idKey) ((o - 0x140) / 4))
  else if 0x200 ≤ o ∧ o < 0x300 then
    some (BitVec.ofNat 32 (fld (mget 0 s.otp.hash ((o - 0x200) / 0x40)) (8 * (o % 0x40)) 32))
  else if o ≤ 0x30 ∨ (0x100 ≤ o ∧ o < 0x140) ∨ (0x1000 ≤ o ∧ o < 0x1010) then some (s.rg (bootBase + o))
  else none

/-- A write of a boot and security register: BOOT_EVT alone takes one. -/
def State.bootWrite (s : State) (o : Nat) (v : Word32) : Option State :=
  if o = 0x30 then some (s.writeFields (bootBase + o) { rw := 0xF0000#32, w1c := 0xF#32 } v)
  else (s.bootRead o).map (fun _ => s)

/-! The tandem block (R452). -/

/-- The tandem registers and how each takes a write. -/
def tdmSpec (o : Nat) : Option RegSpec :=
  match o with
  | 0x00 | 0x04 | 0x08 | 0x28 | 0x2C => some {}
  | 0x10 | 0x14 => some { rwl := 0xFFFFFFFF#32, en := tdmBase }
  | 0x18 => some { rwl := 0x1FF#32, en := tdmBase }
  | 0x1C => some { rw := 0xFFFF0000#32, rwl := 0xFFFF#32, en := tdmBase }
  | 0x20 | 0x38 | 0x3C | 0x40 => some { rw := 0xFFFFFFFF#32 }
  | 0x24 => some { w1c := 0x80000000#32 }
  | 0x30 => some { rw := 0x03FF0000#32, w1c := 0x3FF#32 }
  | _ => none

/-- A tandem register as it reads: YIELD reads 1 until its reply (R9, R449). -/
def State.tdmRead (s : State) (o : Nat) : Option Word32 :=
  (tdmSpec o).map (fun _ => if o = 0 then setBit (s.rg tdmBase) 2 s.tandem.yielding else s.rg (tdmBase + o))

/-- A write of a tandem register; a write of MCNT makes MTHR act again (R447, R452). -/
def State.tdmWrite (s : State) (o : Nat) (v : Word32) : Option State :=
  match o with
  | 0x00 => some (let s := s.tdmCtrlWrite v; if bit v 2 then s.yieldCmd else s)
  | 0x20 => some ((s.setRg (tdmBase + 0x20) v).onTandem (fun t => { t with acted := false }))
  | _ => (tdmSpec o).map (fun f => s.writeFields (tdmBase + o) f v)

/-! The DRAM channels (R355 to R358). -/

/-- The registers of channel `c` and how each takes a write; training-wheels registers from 0x4000. -/
def ddrSpec (c o : Nat) : Option RegSpec :=
  let b := dramBase c
  match o with
  | 0x00 | 0x04 | 0x10 | 0x1C | 0x20 | 0x34 | 0x38 | 0x40 | 0x44 => some {}
  | 0x08 => some { rwl := 0x1F7#32, en := b }
  | 0x0C => if c = 0 then some {} else none
  | 0x14 => some { rwl := 0xFFFC1FFF#32, en := b }
  | 0x18 => some { rwl := 0xFFFF3F3F#32, en := b }
  | 0x24 => some { rw := 0x1F0000#32, w1c := 0x1F#32 }
  | 0x30 => some { w1c := 0x80000000#32 }
  | 0x50 | 0x54 | 0x58 => some { rw := 0xFFFFFFFF#32 }
  | 0x4000 => some { rw := 0xFFFF007E#32 }
  | 0x4004 => some { rw := 0x7FFFFFFF#32 }
  | 0x4008 => some { rw := 0x1FFFFFFF#32 }
  | 0x400C => some { w1c := 0x40000000#32 }
  | 0x4010 => some {}
  | 0x4200 => some { w1c := 0xFFFFFFFF#32 }
  | 0x4204 => some { w1c := 0xFF#32 }
  | 0x4400 => some { rw := 0x7F#32 }
  | 0x4404 => some { rw := 0x3FF#32 }
  | _ =>
    if 0x4100 ≤ o ∧ o < 0x4180 ∧ o % 4 = 0 then some { rw := if o % 8 = 0 then 0xFFFFFFFF#32 else 0xFF#32 }
    else if 0x4300 ≤ o ∧ o < 0x43A0 ∧ o % 4 = 0 then some { rw := 0xFFFF#32 }
    else none

/-- The code of a channel's state (R356). -/
def DdrState.code : DdrState → Nat
  | .off => 0 | .fill => 1 | .run => 2 | .sref => 3 | .frozen => 4 | .failed => 5

/-- DDR_STATUS (R356). -/
def State.ddrStatus (s : State) (c : Nat) : Nat :=
  let d := s.dram c
  let cap := if s.rb (dramBase c) 0 && d.st != .failed then s.dramCap c else 0
  d.st.code + b2n (d.rank0.doubled || d.rank1.doubled) * 2 ^ 4 + d.rank0.post % 8 * 2 ^ 8 + d.rank0.pull % 8 * 2 ^ 12 +
  d.rank1.post % 8 * 2 ^ 16 + d.rank1.pull % 8 * 2 ^ 20 + cap % 128 * 2 ^ 24

/-- A register of channel `c` as it reads. -/
def State.ddrRead (s : State) (c o : Nat) : Option Word32 :=
  let w := fun n : Nat => some (BitVec.ofNat 32 n)
  if 0x8000 ≤ o then if o < 0x8200 then s.scrRead (4 + c) (o - 0x8000) else none
  else match o with
    | 0x0C => if c = 0 then w ((s.rg (dramBase 0 + 0xC)).toNat + s.dramTotal % 512 * 2 ^ 16) else none
    | 0x10 => w (s.ddrStatus c)
    | 0x1C => w ((s.dram c).fillPos % 2 ^ 31 + b2n (s.dram c).filled * 2 ^ 31)
    | 0x4000 => some (setBit (s.rg (dramBase c + o)) 0 (s.dram c).twBusy)
    | 0x4010 =>
      let k := s.rf (dramBase c + 0x4400) 0 7
      some (if 80 ≤ k ∧ k < 90 then s.rg (s.twMrr c (k - 80)) else 0)
    | 0x4404 => some (s.rg (s.twDelay c))
    | _ => (ddrSpec c o).map (fun _ => s.rg (dramBase c + o))

/-- A write of TW_CTRL: its fields, and the operation where GO is set (R349). -/
def State.twCtrlWrite (s : State) (m : Master) (c : Nat) (v : Word32) : State :=
  if bit v 0 then
    s.twGo m c v (fun s => match fld v 1 2 with
      | 0 => s.twWrrd c []
      | 1 => s.twRd c []
      | _ => s.twCmd c [])
  else s.writeFields (dramBase c + 0x4000) { rw := 0xFFFF007E#32 } v

/-- A write of a register of channel `c`; DDR_TRAIN and the training wheels are the puppeteer's, and the
loader's at boot (R349, R356). -/
def State.ddrWrite (s : State) (m : Master) (c o : Nat) (v : Word32) : Option (State × Nat) :=
  if 0x8000 ≤ o then if o < 0x8200 then (s.scrWrite (4 + c) (o - 0x8000) v).map (·, 0) else none
  else if 0x4000 ≤ o ∧ m ≠ .puppeteer ∧ m ≠ .loader then (s.ddrRead c o).map (fun _ => (s, 1))
  else match o with
    | 0x00 => some (s.ddrCtrlWrite c v, 0)
    | 0x0C => if c ≠ 0 then none else some (if m = .loader then s.setRb (dramBase 0 + 0xC) 0 (bit v 0) else s, 0)
    | 0x20 => some (s.ddrTrainWrite m c v)
    | 0x4000 => some (s.twCtrlWrite m c v, 0)
    | 0x4404 => some (s.writeFields (s.twDelay c) { rw := 0x3FF#32 } v, 0)
    | _ => (ddrSpec c o).map (fun f => (s.writeFields (dramBase c + o) f v, 0))

end Sys2Proof.Machine
end

