-- ==== Sys2Proof/Machine/HostCfg.lean ====
section
/-! DEFINITION. The configuration space of the PCI Express function (R391 to R393, R399, R409, R410, R424).
R393 names its items and the subset of the base specification; where the items lie, and the fields of the
base specification beside them, are the family's layout (PRESUMED, log entry 60). -/

namespace Sys2Proof.Machine

/-- Whether the boot has failed and the recovery function is presented (R424). -/
def State.rescue (s : State) : Bool := s.rf bootBase 0 4 == 8

/-- The capabilities of R393 in the low 256 bytes, as offset and ID: Power Management, PCI Express, MSI-X. -/
def lowCaps : List (Nat × Nat) := [(0x40, 0x01), (0x50, 0x10), (0xB0, 0x11)]

/-- The extended capabilities of R393, as offset and ID: Device Serial Number, AER, Secondary PCI Express, Data
Link Feature, Physical Layer 16.0, 32.0 and 64.0 GT/s, Lane Margining, Data Object Exchange. -/
def extCaps : List (Nat × Nat) :=
  [(0x100, 0x03), (0x110, 0x01), (0x160, 0x19), (0x1A0, 0x25), (0x1B0, 0x26), (0x1E0, 0x2A), (0x210, 0x31),
   (0x240, 0x27), (0x2B0, 0x2E)]

/-- The offset of the capability that follows the one at `o`, 0 after the last. -/
def nextCap : List (Nat × Nat) → Nat → Nat
  | a :: b :: l, o => if a.1 = o then b.1 else nextCap (b :: l) o
  | _, _ => 0

/-- The first doubleword of a capability at `o`, where one begins there. -/
def capHead (o : Nat) : Option Nat :=
  match lowCaps.find? (fun e => e.1 == o), extCaps.find? (fun e => e.1 == o) with
  | some e, _ => some (e.2 + nextCap lowCaps o * 2 ^ 8)
  | none, some e => some (e.2 + 2 ^ 16 + nextCap extCaps o * 2 ^ 20)
  | none, none => none

/-- The bits that a write of a doubleword sets: Command, cache line size, the three BARs by their sizes (R394,
R410), interrupt line, power state, device control, the MSI-X enable and function mask. -/
def cfgMask (rescue : Bool) (o : Nat) : Word32 :=
  match o with
  | 0x04 => 0x00000446#32
  | 0x0C => 0x000000FF#32
  | 0x10 => if rescue then 0xFF000000#32 else 0xFC000000#32
  | 0x14 => 0xFFFFFFFF#32
  | 0x1C => if rescue then 0#32 else 0xFFFFFFC0#32
  | 0x20 => if rescue then 0#32 else 0xF8000000#32
  | 0x24 => if rescue then 0#32 else 0xFFFFFFFF#32
  | 0x3C => 0x000000FF#32
  | 0x44 => 0x00000003#32
  | 0x58 => 0x000078FF#32
  | 0xB0 => 0xC0000000#32
  | _ => 0#32

/-- What the writable bits of a doubleword hold until the host writes them: device control resets with relaxed
ordering and no-snoop permitted and reads of 512 bytes. -/
def cfgReset (o : Nat) : Word32 := if o = 0x58 then 0x00002810#32 else 0#32

/-- The bits of a doubleword that are fixed (R391, R393, R394, R399, R410). -/
def State.cfgFixed (s : State) (o : Nat) : Word32 :=
  let r := s.rescue
  match o with
  | 0x00 => if r then 0x88411F3D#32 else 0x88401F3D#32
  | 0x04 => 0x00100000#32
  | 0x08 => 0x120000A1#32
  | 0x10 => 0x4#32
  | 0x18 => if r then 0#32 else 0xC#32
  | 0x20 => if r then 0#32 else 0x4#32
  | 0x2C => s.host.subsys
  | 0x34 => 0x40#32
  | 0x50 => BitVec.ofNat 32 ((capHead 0x50).getD 0 + 2 * 2 ^ 16)
  | 0x54 => 0x10000002#32
  | 0xB0 => BitVec.ofNat 32 ((capHead 0xB0).getD 0 + (if r then 0 else 2047) * 2 ^ 16)
  | 0xB4 => 0x01000000#32
  | 0xB8 => 0x01008000#32
  | 0x104 => wordAt (sha3Of256 s.idKey) 0
  | 0x108 => wordAt (sha3Of256 s.idKey) 1
  | o => BitVec.ofNat 32 ((capHead o).getD 0)

/-- What a doubleword of configuration space reads. MSI-X enable and function mask are those that R399 looks
at; the interrupt pin reads 0, none. -/
def State.cfgRead (s : State) (o : Nat) : Word32 :=
  let x := s.cfgFixed o ||| (mget (cfgReset o) s.host.cfg o &&& cfgMask s.rescue o)
  if o = 0xB0 then setBit (setBit x 31 s.host.msixOn) 30 s.host.fmask else x

/-- A doubleword of configuration space is written; a change of MSI-X enable or function mask sends the pending
messages that it lets pass (R399). -/
def State.cfgWrite (s : State) (o : Nat) (v : Word32) : State :=
  if o = 0xB0 then s.msixUnmask (.control (v.getLsbD 31) (v.getLsbD 30))
  else s.onHost (fun h => { h with cfg := mset (cfgReset o) h.cfg o (v &&& cfgMask s.rescue o) })

/-- A configuration read of `n` bytes at `o`, inside one doubleword. Until the boot has decided between the
functions it gets Request Retry Status (R424). -/
def State.cfgGet (s : State) (o n tag : Nat) : State :=
  if !s.booted && !s.rescue then s.put (.completion tag 2 [] false)
  else s.put (.completion tag 0 (((natBytes 4 (s.cfgRead (o / 4 * 4)).toNat).drop (o % 4)).take n) false)

/-- A configuration write of the bytes that are enabled, inside one doubleword. -/
def State.cfgPut (s : State) (o : Nat) (l : List (Option (BitVec 8))) : State :=
  if !s.booted && !s.rescue then s
  else
    let old := s.cfgRead (o / 4 * 4)
    let v := l.zipIdx.foldl (fun v e => match e.1 with
      | some x => setFld v (8 * ((o + e.2) % 4)) 8 x.toNat
      | none => v) old
    s.cfgWrite (o / 4 * 4) v

end Sys2Proof.Machine
end

