-- ==== Sys2Proof/Machine/Dma.lean ====
section
/-! DEFINITION. The DMA channels (R400 to R406, R411, R413). -/

namespace Sys2Proof.Machine

/-- The ring size 2^K of channel `c`. -/
def State.ringLen (s : State) (c : Nat) : Nat := 2 ^ s.rf (dmaReg c + 0x10) 0 5
/-- HEAD. -/
def State.dmaHead (s : State) (c : Nat) : Nat := s.rf (dmaReg c + 0x14) 0 16
/-- TAIL, bits at and above K ignored. -/
def State.dmaTail (s : State) (c : Nat) : Nat := s.rf (dmaReg c + 0x18) 0 16 % s.ringLen c
/-- DMA_STAT.STATE. -/
def State.dmaState (s : State) (c : Nat) : Nat := s.rf (dmaReg c + 0x1C) 0 3
/-- Sets DMA_STAT.STATE. -/
def State.setDma (s : State) (c x : Nat) : State := s.setRf (dmaReg c + 0x1C) 0 3 x
/-- The descriptor in progress of channel `c`. -/
def State.job (s : State) (c : Nat) : Option DmaJob := mget none s.host.jobs c
/-- Sets the descriptor in progress. -/
def State.setJob (s : State) (c : Nat) (j : Option DmaJob) : State := s.onHost (fun h => { h with jobs := mset none h.jobs c j })

/-- A descriptor's fields, and whether a reserved bit is set (R401). -/
def descOf (v : BitVec 256) : Desc × Bool :=
  ({ op := fld v 0 4, irq := bit v 8, stope := bit v 9, hro := bit v 10, len := fld v 32 32, haddr := fld v 64 64, iaddr := fld v 128 40 },
   fld v 4 4 != 0 || fld v 11 21 != 0 || fld v 168 24 != 0)

/-- The end of the window in which an internal address lies (R403). -/
def State.windowEnd (s : State) (a : Nat) : Option Nat :=
  if a < 2 ^ 38 then if a < s.dramTotal * 2 ^ 30 then some (s.dramTotal * 2 ^ 30) else none
  else if 0x4000000000 ≤ a ∧ a < 0x4004000000 then some (a / 0x100000 * 0x100000 + 0x100000)
  else none

/-- The enabled queue that has channel `c` as its producer or consumer (R134, R402). -/
def State.dmaQueue (s : State) (c : Nat) (prod : Bool) : Option Nat := s.queueOf (if prod then 0 else 16) (dmaCode c)

/-- The codes of R403 found before any byte is moved. -/
def State.descCodes (s : State) (c : Nat) (d : Desc) (reserved : Bool) : List Nat :=
  let block := d.op == 1 || d.op == 2
  let queue := d.op == 3 || d.op == 4
  codeIf (d.op == 0 || 4 < d.op || reserved) 0x0730 ++ codeIf (d.len == 0) 0x0731 ++
  codeIf (block && match s.windowEnd d.iaddr with
    | some e => decide (e < d.iaddr + d.len)
    | none => false) 0x0732 ++
  codeIf (block && (s.windowEnd d.iaddr).isNone) 0x0733 ++
  codeIf (queue && (d.len % 4 != 0 || (s.dmaQueue c (d.op == 3)).isNone)) 0x0734

/-- Whether a data write of a descriptor goes out with relaxed ordering, and with no-snoop: HRO asks for both, and
the host permits each in the device control register (R391, R401). -/
def State.dmaOrder (s : State) (d : Desc) (k : Nat) : Bool := d.hro && (s.cfgRead 0x58).getLsbD k

/-- A data write of a descriptor to the host (R404). -/
def State.hostData (s : State) (d : Desc) (addr data n : Nat) (ep : Bool) : State :=
  s.put (.memWrite addr data n ep (s.dmaOrder d 4) (s.dmaOrder d 11))

/-- The write-back of the descriptor at HEAD (R401, R404). -/
def State.writeBack (s : State) (c : Nat) (j : DmaJob) (code : Nat) : State :=
  let ring := s.rg64 (dmaReg c + 8)
  s.put (.memWrite (ring + 32 * s.dmaHead c + 0x18) (j.done % 2 ^ 32 + (code + b2n j.pois * 2 ^ 30 + 2 ^ 31) * 2 ^ 32) 8
    false false false)

/-- A descriptor ends in error (R403). -/
def State.dmaError (s : State) (c : Nat) (j : DmaJob) (code : Nat) : State :=
  (s.writeBack c j code).dmaStop c code

/-- HEAD goes past a descriptor, modulo the ring. -/
def State.dmaAdvance (s : State) (c : Nat) : State :=
  s.setRf (dmaReg c + 0x14) 0 16 ((s.dmaHead c + 1) % s.ringLen c)

/-- The state in which a channel rests: EN that was cleared takes effect now (R413). -/
def State.dmaRest (s : State) (c : Nat) : State := s.setDma c (if s.rb (dmaReg c) 0 then 1 else 0)

/-- A descriptor ends without error (R400, R401). -/
def State.dmaFinish (s : State) (c : Nat) (j : DmaJob) : State :=
  let s := (((s.writeBack c j 0).count (dmaReg c + 0x20)).setJob c none).dmaAdvance c
  let s := s.dmaRest c
  if j.desc.irq then s.event (dmaReg c + 0x24) 0 16 (1408 + 2 * c) else s

/-- DESCRIPTOR_START (R400): the channel has fetched the descriptor at HEAD; none where the host's
completion was an error. -/
def State.descStart (s : State) (c : Nat) (v : Option (BitVec 256)) : State :=
  if !s.rb (dmaReg c) 0 || s.dmaHead c == s.dmaTail c || s.dmaState c != 1 then s
  else
    let s := s.setDma c 2
    match v with
    | none => s.dmaError c { desc := (descOf 0).1 } 0x0735
    | some v =>
      let (d, reserved) := descOf v
      match lowestCode (s.descCodes c d reserved) with
      | some k => s.dmaError c { desc := d } k
      | none => s.setJob c (some { desc := d })

/-- The unit of up to 512 bytes that D2H moves next (R402, R404, R405). -/
def State.d2hUnit (s : State) (c : Nat) (j : DmaJob) : State × DmaJob × Nat :=
  let n := min 512 (j.desc.len - j.done)
  let (s, x) := s.bytesGet (.dma (Fin.ofNat 16 c)) (j.desc.iaddr + j.done) n
  if x.status ≠ 0 then (s, j, x.status)
  else
    let ep := x.bytes.any (·.2)
    let s := s.hostData j.desc (j.desc.haddr + j.done) (bytesNat (x.bytes.map (·.1))) n ep
    (s, { j with done := j.done + n, pois := j.pois || ep }, 0)

/-- Up to `f` units of D2H; a status other than 0 ends them. -/
def State.d2hUnits (s : State) (c : Nat) : Nat → DmaJob → State × DmaJob × Nat
  | 0, j => (s, j, 0)
  | f + 1, j =>
    if j.desc.len ≤ j.done then (s, j, 0)
    else match s.d2hUnit c j with
      | (s, j, 0) => s.d2hUnits c f j
      | r => r

/-- A sample as a word in the layout of Q_DATA with V set (R159, R402). -/
def sampleWord (c : Chan) : Nat := c.v.toNat + b2n c.e * 2 ^ 20 + b2n c.p * 2 ^ 21 + 2 ^ 31

/-- Popped samples written to the host (R402, R405). -/
def State.q2hWrite (s : State) (c : Nat) (j : DmaJob) (l : List Chan) : State × DmaJob :=
  if l = [] then (s, j)
  else
    let ep := l.any (·.p)
    let s := s.dropTaken (dmaCode c) l.length
    let s := s.hostData j.desc (j.desc.haddr + j.done) (l.foldr (fun c acc => sampleWord c + 2 ^ 32 * acc) 0) (4 * l.length) ep
    (s, { j with done := j.done + 4 * l.length, pois := j.pois || ep })

/-- What is left of an H2Q descriptor's samples that the queue has not yet accepted. -/
def State.h2qLeft (s : State) (c : Nat) : Nat := (s.heldBy (dmaCode c)).length

/-- DESCRIPTOR_END (R402, R404): where all has been moved, the descriptor ends; D2H and Q2H move what is
left. -/
def State.descEnd (s : State) (c : Nat) : State :=
  match s.job c with
  | none => s
  | some j =>
    match j.desc.op with
    | 1 => if j.done = j.desc.len then s.dmaFinish c j else s
    | 2 => match s.d2hUnits c (j.desc.len / 512 + 1) j with
      | (s, j, 0) => s.dmaFinish c j
      | (s, j, _) => s.dmaError c j 0x0736
    | 3 => if 4 * j.got = j.desc.len ∧ s.h2qLeft c = 0 then s.dmaFinish c { j with done := j.desc.len } else s
    | _ =>
      let l := q2hTake j.desc (s.takenBy (dmaCode c))
      if q2hWhole j.desc l then
        let (s, j) := s.q2hWrite c j l
        s.dmaFinish c j
      else s

/-- DMA_HOST_COMPLETION (R402, R403, R405): data from the host with its EP bit, or none for UR, CA or a
timeout. -/
def State.hostCompletion (s : State) (c : Nat) (r : Option (List (BitVec 8) × Bool)) : State :=
  match s.job c with
  | none => s
  | some j =>
    if j.desc.op ≠ 1 ∧ j.desc.op ≠ 3 then s
    else match r with
      | none => s.dmaError c { j with done := if j.desc.op = 3 then 4 * (j.got - s.h2qLeft c) else j.done } 0x0735
      | some (l, ep) =>
        if j.desc.op = 1 then
          let l := l.take (j.desc.len - j.done)
          let (s, st, n) := s.bytesPut (.dma (Fin.ofNat 16 c)) (j.desc.iaddr + j.done) (l.map some) ep
          let j := { j with done := j.done + n, pois := j.pois || ep }
          if st ≠ 0 then s.dmaError c j 0x0736 else s.setJob c (some j)
        else
          let ws := (List.range (min (l.length / 4) (j.desc.len / 4 - j.got))).map (fun k =>
            bytesNat ((l.drop (4 * k)).take 4))
          let cs := ws.map (fun w => ({ v := BitVec.ofNat 20 w, e := w.testBit 20, p := w.testBit 21 || ep } : Chan))
          (s.hold (dmaCode c) cs).setJob c (some { j with got := j.got + cs.length, pois := j.pois || cs.any (·.p) })

/-- A write of ABORT (R406): it takes effect after `units` further units of a D2H. -/
def State.dmaAbort (s : State) (c units : Nat) : State :=
  match s.job c with
  | none => s
  | some j =>
    match j.desc.op with
    | 2 => match s.d2hUnits c units j with
      | (s, j, 0) => s.dmaError c j 0x0737
      | (s, j, _) => s.dmaError c j 0x0736
    | 3 =>
      s.dmaError c { j with done := 4 * (j.got - s.h2qLeft c) } 0x0737
    | 4 =>
      let (s, j) := s.q2hWrite c j (q2hTake j.desc (s.takenBy (dmaCode c)))
      s.dmaError c j 0x0737
    | _ => s.dmaError c j 0x0737

/-- A write of RESUME (R403). -/
def State.dmaResume (s : State) (c : Nat) : State := if s.dmaState c = 3 then (s.dmaAdvance c).dmaRest c else s

/-- The check of R413. -/
def State.dmaCheck (s : State) (c : Nat) : List Nat :=
  let k := s.rf (dmaReg c + 0x10) 0 5
  codeIf (decide (k < 2) || decide (16 < k)) 0x0720 ++ codeIf (s.rf (dmaReg c + 8) 0 5 != 0) 0x0721

/-- A write of DMA_CTRL: the commands in ascending bit order, then EN (R9, R413). -/
def State.dmaCtrlWrite (s : State) (c : Nat) (v : Word32) : State :=
  let b := dmaReg c
  let s := if bit v 1 then s.dmaAbort c 0 else s
  let s := if bit v 2 then s.dmaResume c else s
  if !v.getLsbD 0 then
    let s := s.setRb b 0 false
    if s.dmaState c = 1 then s.setDma c 0 else s
  else if s.rb b 0 then s
  else
    let (s, ok) := s.enableCheck b (b + 4) (s.dmaCheck c)
    if ok ∧ s.dmaState c = 0 then s.setDma c 1 else s

/-! The commands. -/

/-- DMA_TAIL_WRITE (R400). -/
def execDmaTailWrite (c : Fin 16) (v : BitVec 16) (s : State) : Host.Outcome State Fault Refusal :=
  finish s (s.setRf (dmaReg c + 0x18) 0 16 v.toNat)
/-- DESCRIPTOR_START (R400). -/
def execDescriptorStart (c : Fin 16) (d : Option (BitVec 256)) (s : State) : Host.Outcome State Fault Refusal :=
  live s (s.descStart c d)
/-- DESCRIPTOR_END (R404). -/
def execDescriptorEnd (c : Fin 16) (s : State) : Host.Outcome State Fault Refusal := live s (s.descEnd c)
/-- DMA_ABORT (R406). -/
def execDmaAbort (c : Fin 16) (units : Fin 8388608) (s : State) : Host.Outcome State Fault Refusal := live s (s.dmaAbort c units)
/-- DMA_RESUME (R403). -/
def execDmaResume (c : Fin 16) (s : State) : Host.Outcome State Fault Refusal := live s (s.dmaResume c)
/-- DMA_ENABLE (R413): a write of DMA_CTRL that sets EN. -/
def execDmaEnable (c : Fin 16) (v : Word32) (s : State) : Host.Outcome State Fault Refusal :=
  live s (s.dmaCtrlWrite c (setBit v 0 true))
/-- DMA_HOST_COMPLETION (R403). -/
def execDmaHostCompletion (c : Fin 16) (r : Option (List (BitVec 8) × Bool)) (s : State) : Host.Outcome State Fault Refusal :=
  live s (s.hostCompletion c r)

end Sys2Proof.Machine
end

