-- ==== Sys2Proof/Machine/Eth.lean ====
section
/-! DEFINITION. The Ethernet ports: receive and transmit streams, bridge, frame tap, TSN tables
(R378 to R388, R390, R440). -/

namespace Sys2Proof.Machine

/-- The registers of port `p` (R387). -/
def ethReg (p : Nat) : Nat := 0x810000 + 0x4000 * p
/-- Port `p`. -/
def State.eth (s : State) (p : Nat) : EthPort := mget {} s.eths p
/-- Changes port `p`. -/
def State.onEth (s : State) (p : Nat) (f : EthPort → EthPort) : State := { s with eths := mset {} s.eths p (f (s.eth p)) }
/-- ETH_CTRL.EN. -/
def State.ethOn (s : State) (p : Nat) : Bool := s.rb (ethReg p) 0
/-- Sets an ETH_EVT bit and raises its source when enabled (R390). -/
def State.ethEvent (s : State) (p k : Nat) : State := s.event (ethReg p + 0xC) k (16 + k) (1536 + 24 * p + k)

/-! Frames. -/

/-- A frame, from the destination MAC to the last payload byte. -/
abbrev Frame := List (BitVec 8)
/-- Bytes `i` and `i + 1`, the first one the higher (network order). -/
def Frame.u16 (f : Frame) (i : Nat) : Nat := (f.getD i 0).toNat * 256 + (f.getD (i + 1) 0).toNat
/-- Whether a frame carries a VLAN tag. -/
def Frame.tagged (f : Frame) : Bool := f.u16 12 == 0x8100
/-- The VLAN ID of a tagged frame. -/
def Frame.vid (f : Frame) : Option Nat := if f.tagged then some (f.u16 14 % 4096) else none
/-- The priority of a tagged frame. -/
def Frame.pcp (f : Frame) : Nat := f.u16 14 / 8192
/-- Where the EtherType behind the VLAN tag stands. -/
def Frame.typeAt (f : Frame) : Nat := if f.tagged then 16 else 12
/-- The sequence number of a frame with an 802.1CB redundancy tag. -/
def Frame.rtag (f : Frame) : Option Nat := if f.u16 f.typeAt = 0xF1C1 then some (f.u16 (f.typeAt + 4)) else none
/-- The EtherType behind the tags. -/
def Frame.etype (f : Frame) : Nat := f.u16 (if f.rtag.isSome then f.typeAt + 6 else f.typeAt)

/-- The samples of a frame: two bytes each, bit 16 on one that holds one byte, E on the last (R381). -/
def frameSamples : Frame → List Chan
  | [] => []
  | [a] => [{ v := BitVec.ofNat 20 (a.toNat + 2 ^ 16), e := true }]
  | [a, b] => [{ v := BitVec.ofNat 20 (a.toNat + 256 * b.toNat), e := true }]
  | a :: b :: r => { v := BitVec.ofNat 20 (a.toNat + 256 * b.toNat) } :: frameSamples r

/-- The bytes of a sample of a transmit packet (R381). -/
def sampleBytes (c : Chan) : Frame :=
  if c.v.getLsbD 16 then [BitVec.ofNat 8 (fld c.v 0 8)] else [BitVec.ofNat 8 (fld c.v 0 8), BitVec.ofNat 8 (fld c.v 8 8)]

/-- The time of one byte on the wire of port `p`, in ps (R378, R379). -/
def State.bytePs (s : State) (p : Nat) : Nat :=
  match s.rf (ethReg p) 1 3 with
  | 0 => 800
  | 1 => 3200
  | 2 => 8000
  | _ => [8000, 80000, 800000].getD (s.rf (ethReg p + 8) 2 2) 8000

/-- Port `p` sends a frame; a frame with a bad or replaced FCS is marked so (R316, R382). -/
def State.sendFrame (s : State) (p : Nat) (f : Frame) (badFcs : Bool) : State :=
  (s.put (.frame p f badFcs)).count (ethReg p + 0x14)

/-- A frame with poisoned bytes was sent by port `p` (R316). -/
def State.poisonSent (s : State) (p : Nat) : State := (s.count (ethReg p + 0x1C)).ethEvent p 2

/-! The tap of a pair, `p` even (R383, R440). -/

/-- TAP_WIN: ROFF, RLEN, WOFF, WLEN. -/
def State.tapWin (s : State) (p : Nat) : Nat × Nat × Nat × Nat :=
  let w := s.rg (ethReg p + 0x104)
  (fld w 0 8, fld w 8 8, fld w 16 8, fld w 24 8)

/-- The tap's samples of a frame: header, then RLEN / 2 samples from byte ROFF. -/
def State.tapSamples (s : State) (p seq : Nat) (odd : Bool) (f : Frame) : List Chan :=
  let (roff, rlen, _, _) := s.tapWin p
  let n := s.fresh
  let byte := fun k => match f[k]? with
    | some b => b
    | none => Config.tapPast k n
  { v := BitVec.ofNat 20 (b2n odd + seq % 65536 * 16), e := rlen / 2 == 0 } ::
    frameSamples ((List.range (rlen / 2 * 2)).map (fun i => byte (roff + i)))

/-- The pair sends on a tapped frame. -/
def State.tapSend (s : State) (p : Nat) (t : TapFrame) (f : Frame) (bad : Bool) : State :=
  s.sendFrame (if t.odd then p else p + 1) f (!t.good || bad)

/-- A frame whose replacement is late goes out unchanged, or stomped (R383); unchanged where the device is
not acting captain (R440). -/
def State.tapLate (s : State) (p : Nat) (t : TapFrame) : State :=
  if s.captain then
    ((s.tapSend p t t.bytes (s.rb (ethReg p + 0x100) 30)).count (ethReg p + 0x10C)).ethEvent p 3
  else s.tapSend p t t.bytes false

/-- The frames at the tap whose byte WOFF has fallen due. -/
def State.tapFlush (s : State) (p : Nat) : State :=
  let due := (s.eth p).tap.filter (fun t => t.due ≤ s.now)
  let s := due.foldl (fun s t => s.tapLate p t) s
  let now := s.now
  s.onEth p (fun x => { x with tap := x.tap.filter (fun t => now < t.due) })

/-- Bytes WOFF onwards of a frame replaced, as far as the frame reaches. -/
def Frame.replaced (f : Frame) (o : Nat) (b : Frame) : Frame :=
  f.zipIdx.map (fun e => if o ≤ e.2 ∧ e.2 < o + b.length then b.getD (e.2 - o) 0 else e.1)

/-- A replacement packet reaches the tap of pair `p`. -/
def State.tapTake (s : State) (p : Nat) (cs : List Chan) : State :=
  let seq := fld ((cs.head?.map (·.v)).getD 0) 4 16
  match (s.eth p).tap.find? (fun t => t.seq == seq) with
  | none => s
  | some t =>
    let (_, _, woff, wlen) := s.tapWin p
    let s := if s.captain then s.onEth p (fun x => { x with tap := x.tap.erase t }) else s
    if !s.captain then s
    else if cs.length ≠ 1 + wlen / 2 then ((s.count (ethReg p + 0x110)).ethEvent p 4).tapLate p t
    else
      let bad := cs.any (·.p)
      let s := s.tapSend p t (Frame.replaced t.bytes woff ((cs.drop 1).flatMap (fun c =>
        [BitVec.ofNat 8 (fld c.v 0 8), BitVec.ofNat 8 (fld c.v 8 8)]))) bad
      if bad then s.poisonSent (if t.odd then p else p + 1) else s

/-- The first whole packet that the consumer of endpoint code `e` has taken. -/
def State.packet (s : State) (e : Nat) : Option (List Chan) :=
  ((s.takenBy e).findIdx? (·.e)).map (fun i => (s.takenBy e).take (i + 1))

/-- The endpoint codes of the tap of the pair of even port `p` and of stream `k` of port `p` (R134, R381, R383). -/
def tapCode (p : Nat) : Nat := 0x3000 + 32 + p / 2
/-- The code of stream `k` of port `p`. -/
def macCode (p k : Nat) : Nat := 0x3000 + 8 * p + k

/-- TAP_REPLACEMENT (R383). -/
def State.tapReplacement (s : State) (p : Nat) : State :=
  let s := s.tapFlush p
  match s.packet (tapCode p) with
  | none => s
  | some cs => (s.dropTaken (tapCode p) cs.length).tapTake p cs

/-- A frame of a pair at its tap. -/
def State.tapFrame (s : State) (p : Nat) (odd : Bool) (f : Frame) (good : Bool) : State :=
  let seq := (s.eth p).seq
  let s := (s.onEth p (fun x => { x with seq := (x.seq + 1) % 65536 })).count (ethReg p + 0x108)
  let l := s.tapSamples p seq odd f
  let s := { s with fresh := s.fresh + 1 }
  let s := s.hold (tapCode p) l
  let (_, _, woff, _) := s.tapWin p
  let due := s.now + s.rf (ethReg p + 0x100) 16 10 + woff * s.bytePs p / 1000
  let t : TapFrame := { seq := seq, odd := odd, bytes := f, good := good, due := due }
  if s.captain then s.onEth p (fun x => { x with tap := x.tap ++ [t] }) else s.tapSend p t f false

/-! Receive (R378, R381, R388). -/

/-- A meter passes a frame of `n` bytes, or not; the bucket holds 1/8000 byte units (R388). -/
def State.meterPass (s : State) (p j n : Nat) : State × Bool :=
  let r := s.rg (ethReg p + 0x2400 + 4 * j)
  let cap := fld r 16 16 * 8000
  let had := match mget none (s.eth p).meters j with
    | none => cap
    | some (v, t) => min cap (v + (s.now - t) * fld r 0 16)
  let ok := decide (n * 8000 ≤ had)
  let v := some (if ok then had - n * 8000 else had, s.now)
  (s.onEth p (fun x => { x with meters := mset none x.meters j v }), ok)

/-- The Qci stream filters: the first valid one that a frame matches limits its size and meters it. -/
def State.qciPass (s : State) (p : Nat) (f : Frame) : State × Bool :=
  let reg := fun i => ethReg p + 0x2000 + 8 * i
  match (List.range 64).find? (fun i => s.rb (reg i) 31 && f.vid == some (s.rf (reg i) 16 12) && f.pcp == s.rf (reg i) 28 3) with
  | none => (s, true)
  | some i =>
    let big := s.rf (reg i + 4) 20 12
    if big ≠ 0 ∧ big < f.length then (s, false) else s.meterPass p (s.rf (reg i + 4) 0 5) f.length

/-- The FRER entry of a pair for stream `k` of its even port and a frame, by a bit of the entry (R388). -/
def State.frerEntry (s : State) (p k b : Nat) (f : Frame) : Option Nat :=
  let reg := fun i => ethReg (p / 2 * 2) + 0x3000 + 8 * i
  (List.range 32).find? (fun i => s.rb (reg i) 31 && s.rb (reg i) b && s.rf (reg i) 0 2 == k && f.vid == some (s.rf (reg i) 16 12))

/-- Vector recovery of 802.1CB: the entry after sequence number `q`, and whether the frame passes, is a
duplicate, or is out of sequence. -/
def Frer.recover (x : Frer) (hist q : Nat) : Frer × Bool × Bool :=
  match x.last with
  | none => ({ x with last := some q, hist := 1 }, true, false)
  | some l =>
    let d := sx 16 (q + 65536 - l)
    if (hist : Int) ≤ d ∨ d ≤ -(hist : Int) then (x, false, true)
    else if 0 < d then ({ x with last := some q, hist := (x.hist <<< d.toNat) ||| 1#32 }, true, false)
    else if x.hist.getLsbD (-d).toNat then (x, false, false)
    else ({ x with hist := setBit x.hist (-d).toNat true }, true, false)

/-- Recovery of a received frame for stream `k`: whether it is delivered. -/
def State.frerPass (s : State) (p k : Nat) (f : Frame) : State × Bool :=
  match s.frerEntry p k 29 f with
  | none => (s, true)
  | some i =>
    let e := p / 2 * 2
    match f.rtag with
    | none => ((s.count (ethReg p + 0x28)).ethEvent p 7, false)
    | some q =>
      let (x, pass, bad) := (mget {} (s.eth e).frer i).recover (s.rf (ethReg e + 0x3000 + 8 * i + 4) 0 5 + 1) q
      let s := s.onEth e (fun y => { y with frer := mset {} y.frer i x })
      (if bad then (s.count (ethReg p + 0x28)).ethEvent p 7 else s, pass)

/-- Bytes that the receive buffer of port `p` holds. -/
def State.rxHeld (s : State) (p : Nat) : Nat :=
  ((List.range 4).map (fun k => 2 * (s.heldBy (macCode p k)).length)).sum

/-- A frame dropped at reception (R381). -/
def State.rxDrop (s : State) (p : Nat) : State := (s.count (ethReg p + 0x20)).ethEvent p 9

/-- The receive stream whose filter a frame matches. -/
def State.rxStream (s : State) (p : Nat) (f : Frame) : Option Nat :=
  let reg := fun k => ethReg p + 0x40 + 4 * k
  (List.range 4).find? (fun k => s.rb (reg k) 31 && s.rf (reg k) 0 16 == f.etype &&
    (!s.rb (reg k) 30 || f.vid == some (s.rf (reg k) 16 12)))

/-- A frame received whole with a good FCS goes to its stream (R381). -/
def State.rxDeliver (s : State) (p : Nat) (f : Frame) : State :=
  let (s, ok) := s.qciPass p f
  if !ok then (s.count (ethReg p + 0x24)).ethEvent p 6
  else match s.rxStream p f with
    | none => s.rxDrop p
    | some k =>
      let (s, ok) := s.frerPass p k f
      if !ok then s
      else if 32768 < s.rxHeld p + (f.length + 1) / 2 * 2 ∨ 2000 < f.length ∨ f = [] then s.rxDrop p
      else s.hold (macCode p k) (frameSamples f)

/-- A frame of a bridged pair leaves on the other port (R382). -/
def State.bridge (s : State) (p : Nat) (f : Frame) (good : Bool) : State :=
  let e := p / 2 * 2
  if !s.rb (ethReg e) 4 || !s.ethOn (if p % 2 = 1 then e else e + 1) || !s.booted then s
  else
    let s := s.tapFlush e
    if s.rb (ethReg e + 0x100) 31 && f.etype == s.rf (ethReg e + 0x100) 0 16 && !s.dead then s.tapFrame e (p % 2 == 1) f good
    else s.sendFrame (if p % 2 = 1 then e else e + 1) f (!good)

/-- ETH_FRAME_RECEIVE (R381 to R384). -/
def State.ethReceive (s : State) (p : Nat) (f : Frame) (good : Bool) : State :=
  if !s.ethOn p then s
  else
    let s := if good then s.count (ethReg p + 0x10) else (s.count (ethReg p + 0x18)).ethEvent p 1
    let s := s.bridge p f good
    if good && !s.dead then s.rxDeliver p f else s

/-! Transmit (R381, R388). -/

/-- The gates at time `t`, and the ns until the entry ends: none where the gates do not operate. -/
def GateList.at_ (g : GateList) (t : Nat) : Option (BitVec 8 × Nat) :=
  let pos := (t - g.base) % max 1 g.cycle
  let rec look (l : List (BitVec 8 × Nat)) (from_ : Nat) : Option (BitVec 8 × Nat) :=
    match l with
    | [] => none
    | [(m, _)] => some (m, g.cycle - pos)
    | (m, n) :: r => if pos < from_ + n then some (m, min (from_ + n) g.cycle - pos) else look r (from_ + n)
  look g.entries 0

/-- Whether the gate of a class stays open for `n` ns from `t`. -/
def GateList.openFor (g : GateList) (c : Nat) : Nat → Nat → Nat → Bool
  | 0, _, _ => true
  | f + 1, t, n =>
    match g.at_ t with
    | none => true
    | some (m, left) => m.getLsbD c && (decide (n ≤ left) || g.openFor c f (t + max 1 left) (n - max 1 left))

/-- Whether class `c` of port `p` may send `bytes` bytes now (R381, R388). -/
def State.gateOpen (s : State) (p c bytes : Nat) : Bool :=
  if !s.rb (ethReg p + 0x200) 0 then true
  else match (s.eth p).oper with
    | none => true
    | some g => decide (s.now < g.base) || g.openFor c 257 s.now ((bytes + 24) * s.bytePs p / 1000)

/-- The redundancy tag of sequence number `q` behind the VLAN tag of a frame. -/
def Frame.withRtag (f : Frame) (q : Nat) : Frame :=
  f.take f.typeAt ++ [0xF1#8, 0xC1#8, 0#8, 0#8, BitVec.ofNat 8 (q / 256), BitVec.ofNat 8 q] ++ f.drop f.typeAt

/-- Padded to 60 bytes (R381). -/
def Frame.padded (f : Frame) : Frame := f ++ List.replicate (60 - f.length) 0

/-- A local frame leaves port `p`. -/
def State.sendLocal (s : State) (p : Nat) (f : Frame) (bad : Bool) : State :=
  let s := s.sendFrame p f bad
  if bad then s.poisonSent p else s

/-- The packet at the front of transmit stream `k` is sent, or waits for its gate (R381). -/
def State.ethTransmit (s : State) (p k : Nat) : State :=
  if !s.ethOn p || !s.running then s
  else match s.packet (macCode p k) with
    | none => s
    | some cs =>
      let f : Frame := cs.flatMap sampleBytes
      let tc := s.rf (ethReg p + 0x50 + 4 * k) 0 3
      let gone := s.dropTaken (macCode p k) cs.length
      if 2000 < f.length then (gone.count (ethReg p + 0x2C)).ethEvent p 10
      else if !s.gateOpen p tc (max 60 f.length) then s
      else
        let bad := cs.any (·.p)
        match (if p % 2 = 0 then s.frerEntry p k 30 f else none) with
        | none => gone.sendLocal p f.padded bad
        | some i =>
          let n := (mget {} (s.eth p).frer i).next
          let g := (f.withRtag n).padded
          let s := gone.onEth p (fun x => { x with frer := mupd {} x.frer i (fun y => { y with next := (n + 1) % 65536 }) })
          let s := s.sendLocal p g bad
          if s.ethOn (p + 1) then s.sendLocal (p + 1) g bad else s

/-- Whether the next Sync of a master port is due: 2^-SYNCINT s after the last one (R380). -/
def State.syncDue (s : State) (p : Nat) : Bool :=
  match (s.eth p).synced with
  | none => true
  | some t => decide (s.now < t) || decide (t + 1000000000 / 2 ^ s.rf (ethReg p) 9 3 ≤ s.now)

/-- SYNC_TRANSMIT (R380). -/
def State.syncTransmit (s : State) (p : Nat) : State :=
  if s.ethOn p && s.running && s.rf (ethReg p) 5 2 == 2 && s.syncDue p then
    (s.onEth p (fun x => { x with synced := some s.now })).put (.ptpSync p s.now)
  else s

/-! Link state and the gate lists. -/

/-- SGMII_AN_WORD (R379), under the SGMII convention: bit 15 link, bit 12 full duplex, [11:10] speed. -/
def State.anWord (s : State) (p : Nat) (w : BitVec 16) : State :=
  if !s.ethOn p || s.rf (ethReg p) 1 3 != 3 || !s.rb (ethReg p) 14 then s
  else
    let old := s.rg (ethReg p + 8)
    let s := s.setRb (ethReg p + 8) 0 (bit w 15 && bit w 12)
    let s := if fld w 10 2 = 3 then s else s.setRf (ethReg p + 8) 2 2 (2 - fld w 10 2)
    let s := s.put (.sgmiiAck p w)
    if s.rg (ethReg p + 8) = old then s else s.ethEvent p 0

/-- A write of GCL_CTRL.CHG (R385, R388). -/
def State.configChange (s : State) (p : Nat) : State :=
  let b := ethReg p
  let len := s.rf (b + 0x200) 8 8
  let cyc := s.rf (b + 0x210) 0 30
  if len = 0 ∨ 128 < len ∨ cyc = 0 ∨ 1000000000 < cyc then s.setRf (b + 4) 0 16 0x0813
  else
    let base := s.rg64 (b + 0x208)
    let at_ := if s.now < base then base else base + ((s.now - base) / cyc + 1) * cyc
    let l := (List.range len).map (fun i =>
      (BitVec.ofNat 8 (s.rf (b + 0x1000 + 4 * i) 24 8), 8 * s.rf (b + 0x1000 + 4 * i) 0 24))
    s.onEth p (fun x => { x with next := some { base := at_, cycle := cyc, entries := l } })

/-- GCL_ACTIVATE (R388). -/
def State.gclActivate (s : State) (p : Nat) : State :=
  match (s.eth p).next with
  | none => s
  | some g => if g.base ≤ s.now then (s.onEth p (fun x => { x with oper := some g, next := none })).ethEvent p 8 else s

/-- TAP_WINDOW of port `p`, its tap enabled or not (R385). -/
def State.tapCodes (s : State) (p : Nat) (tap : Bool) : List Nat :=
  let (_, rlen, woff, wlen) := s.tapWin p
  let tdly := s.rf (ethReg p + 0x100) 16 10
  let badLen := fun n : Nat => n % 2 == 1 || n == 0 || decide (64 < n)
  codeIf (p % 2 == 0 && ((tap && (badLen rlen || badLen wlen || decide (256 < woff + wlen))) ||
    ((tap || s.rb (ethReg p) 4) && (decide (tdly < 100) || decide (900 < tdly))))) 0x0812

/-- The codes of R385 that port `p` meets. -/
def State.ethCheck (s : State) (p : Nat) : List Nat :=
  let b := ethReg p
  let e := ethReg (p / 2 * 2)
  let o := ethReg (p / 2 * 2 + 1)
  let mode := s.rf b 1 3
  codeIf (decide (4 ≤ mode) || (p % 2 == 1 && s.rb b 4) || (s.rb e 4 && s.rf e 1 3 != s.rf o 1 3)) 0x0810 ++
  codeIf (s.rf b 5 2 == 3 || (s.rf b 5 2 == 1 && (List.range 4).any (fun q => q != p && s.ethOn q && s.rf (ethReg q) 5 2 == 1))) 0x0811 ++
  s.tapCodes p (s.rb (b + 0x100) 31) ++
  codeIf (s.rf b 12 2 == 3 || (mode != 3 && (s.rb b 14 || s.rf b 12 2 != 0))) 0x0814

/-- ETH_CTRL as a register (R387). -/
def ethCtrlSpec (p : Nat) : RegSpec := { rw := 0xE00#32, rwl := 0x70FE#32, en := ethReg p }

/-- A write of ETH_CTRL (R379, R385). -/
def State.ethCtrlWrite (s : State) (p : Nat) (v : Word32) : State :=
  let b := ethReg p
  if v.getLsbD 0 then
    let was := s.ethOn p
    let s := s.writeFields b (ethCtrlSpec p) v
    if was then s
    else
      let (s, ok) := s.enableCheck b (b + 4) (s.ethCheck p)
      if ok then (s.setRf (b + 8) 2 2 (if s.rf b 1 3 = 3 ∧ !s.rb b 14 then s.rf b 12 2 else 0)).onEth p
        (fun x => { x with tap := [], synced := none }) else s
  else (s.setRb b 0 false).writeFields b (ethCtrlSpec p) v

/-! The commands. Forwarding goes on in the fatal path (R470). -/

/-- ETH_FRAME_RECEIVE (R381). -/
def execEthFrameReceive (p : Fin 4) (bytes : List (BitVec 8)) (good : Bool) (s : State) : Host.Outcome State Fault Refusal :=
  finish s (s.ethReceive p bytes good)
/-- TAP_REPLACEMENT (R383): at the pair of port 2 × `pair`. -/
def execTapReplacement (pair : Fin 2) (s : State) : Host.Outcome State Fault Refusal := finish s (s.tapReplacement (2 * pair))
/-- ETH_TRANSMIT (R381). -/
def execEthTransmit (p k : Fin 4) (s : State) : Host.Outcome State Fault Refusal := finish s (s.ethTransmit p k)
/-- SYNC_TRANSMIT (R380). -/
def execSyncTransmit (p : Fin 4) (s : State) : Host.Outcome State Fault Refusal := finish s (s.syncTransmit p)
/-- SGMII_AN_WORD (R379). -/
def execSgmiiAnWord (p : Fin 4) (w : BitVec 16) (s : State) : Host.Outcome State Fault Refusal := finish s (s.anWord p w)
/-- CONFIG_CHANGE (R388): CHG written 1; ignored while a change is pending (R9). -/
def execConfigChange (p : Fin 4) (s : State) : Host.Outcome State Fault Refusal :=
  finish s (if (s.eth p).next.isSome then s else s.configChange p)
/-- GCL_ACTIVATE (R388). -/
def execGclActivate (p : Fin 4) (s : State) : Host.Outcome State Fault Refusal := finish s (s.gclActivate p)
/-- ETH_ENABLE (R385): a write of ETH_CTRL that sets EN. -/
def execEthEnable (p : Fin 4) (v : Word32) (s : State) : Host.Outcome State Fault Refusal :=
  finish s (s.ethCtrlWrite p (setBit v 0 true))
/-- ETH_LINK_CHANGE (R390). -/
def execEthLinkChange (p : Fin 4) (up : Bool) (s : State) : Host.Outcome State Fault Refusal :=
  finish s (if s.rb (ethReg p + 8) 0 = up then s else (s.setRb (ethReg p + 8) 0 up).ethEvent p 0)

end Sys2Proof.Machine
end

