-- ==== Sys2Proof/Machine/Mio.lean ====
section
/-! DEFINITION. The machine I/O block: edges, pads, generators, software I/O, time stamps, its enable
(R359 to R372, R385, R386, R505). -/

namespace Sys2Proof.Machine

/-- The registers of TSU channel `k` (R386). -/
def tsuReg (k : Nat) : Nat := mioBase + 0x3000 + 0x20 * k

/-- An edge at pin `p` reaches the time-stamp channels that capture it (R371). -/
def State.tsuEdge (s : State) (p : Nat) (level : Bool) : State :=
  (List.range 8).foldl (fun s k =>
    let b := tsuReg k
    if s.rb b 31 && s.rf b 0 9 == p && s.rf b 24 2 == (if level then 0 else 1) && s.pinOwn p == 9 && s.rb mioBase 0 then
      ((s.setRg64 (b + 8) s.now).setRb (b + 4) 0 true).raise (1472 + k)
    else s) s

/-- PIN_EDGE (R43, R371, R505): the outside drives pin `p`, or lets it go; an edge is a change of the level
at the pad. -/
def State.pinEdge (s : State) (p : Nat) (drive : Option Bool) : State :=
  let was := s.padLevel p
  let s := ({ s with pads := mupd {} s.pads p (fun x => { x with ext := drive }) } : State).keepPad p
  if s.padLevel p = was then s
  else
    let late := Config.edgeLate s.fresh
    let s := { s with fresh := s.fresh + 1 }
    (s.captureEdge p (!was) late).tsuEdge p (!was)

/-- The cycles until the next sample in the output stage of a slot reaches its pad (R43). -/
def State.untilPad (s : State) (r k : Nat) : Nat :=
  leastOf (((s.region r).pinOut.filter (fun g => g.slot == k)).map (fun g => g.left))

/-- TSU_COMPARE (R371): once per value of TSU_TIME. -/
def State.tsuCompare (s : State) (k : Nat) : State :=
  let b := tsuReg k
  let p := s.rf b 0 9
  let mode := s.rf b 24 2
  if s.rb b 31 && decide (2 ≤ mode) && s.pinOwn p == 9 && s.rb mioBase 0 && !s.tsuDone.contains k && decide (s.rg64 (b + 8) ≤ s.now) then
    let s := { s with tsuDrive := mset none s.tsuDrive p (some (mode == 2)), tsuDone := s.tsuDone ++ [k] }
    ((s.setRb (b + 4) 0 true).keepPad p).raise (1472 + k)
  else s

/-- Changes what slot `k` of region `r` holds. -/
def State.onSlot (s : State) (r k : Nat) (f : SlotState → SlotState) : State :=
  s.onRegion r (fun x => { x with slots := mupd {} x.slots k f })

/-- The keeper of the pad behind a slot takes its level. -/
def State.keepSlot (s : State) (r k : Nat) : State :=
  match s.slotPin r k with
  | some p => s.keepPad p
  | none => s

/-- PWM_LOAD_POINT (R363, R364, R366): slot `k` takes the last compare value at the load point that machine time
has reached, a centre or a boundary of its carrier. -/
def State.pwmLoad (s : State) (r k : Nat) : State :=
  let v := (s.region r).active.slot k
  if slotFunc v ≠ 0x3 then s
  else
    let g := s.grid r
    (s.onSlot r k (fun y => y.pwmTake (slotParam v 8 20) g (driveOf (bit v 0) (bit v 4)))).keepSlot r k

/-- The grid cycle from which the word of a frame is presented at an SSIDAT slot (R369). -/
def ssiDue (clk dat : BitVec 64) (start : Nat) : Nat :=
  start + 5 + slotParam clk 8 8 / 2 + slotParam clk 16 5 * slotParam clk 8 8 + slotParam dat 16 4

/-- One received word of an SSI frame at an SSIDAT slot: the word, and whether its pad was low at the
first falling edge (R369). -/
def State.ssiWord (s : State) (r clk : Nat) (e : Nat × Word32 × Bool) : State :=
  let h := (s.region r).active
  let v := h.slot e.1
  let y := mget {} (s.region r).slots clk
  let frames := y.frames
  if slotFunc v = 0xA ∧ slotParam v 8 6 = clk ∧ (mget {} (s.region r).slots e.1).frames ≠ frames ∧
      ssiDue (h.slot clk) v y.ssiFrom ≤ s.grid r then
    let n := slotParam (h.slot clk) 16 5 + 1
    let w := (if slotInv v then ~~~ e.2.1 else e.2.1).toNat % 2 ^ n
    let s := s.onSlot r e.1 (fun y => { y with
      frames := frames, presented := { v := BitVec.ofNat 20 (w / 2 ^ slotParam v 20 5 % 2 ^ 20) } })
    if xor e.2.2 (slotInv v) then s.event (mioBase + 8) 1 17 1481 else s
  else s

/-- SSI_WORD_READY (R369): the words of the last frame of SSICLK slot `clk` that are due are presented. -/
def State.ssiReady (s : State) (r clk : Nat) (ws : List (Nat × Word32 × Bool)) : State :=
  if slotFunc ((s.region r).active.slot clk) = 0x9 then ws.foldl (fun s e => s.ssiWord r clk e) s else s

/-- Whether an SDDAT slot of DIV and SKEW has a capture to make at grid cycle `g`: SKEW cycles after the last rising
edge, at a multiple of DIV since the clock started at `from_`, none having been made since (R367). -/
def sdDue (div skew from_ seen g : Nat) : Bool :=
  let edge := (g - skew) / div * div
  decide (skew ≤ g) && decide (from_ ≤ edge) && decide (seen < edge + skew)

/-- SDDAT_CAPTURE (R367): at the grid cycle SKEW cycles after a rising edge, once for each; the bit is readable
from the fifth cycle after. -/
def State.sdCapture (s : State) (r k : Nat) : State :=
  let x := s.region r
  let v := x.active.slot k
  let clk := slotParam v 8 6
  let w := x.active.slot clk
  let y := mget {} x.slots clk
  let g := s.grid r
  match s.slotPin r k with
  | none => s
  | some p =>
    if slotFunc v = 0x5 ∧ slotFunc w = 0x4 ∧ y.clkOn ∧ sdDue (slotParam w 8 8) (slotParam v 16 4) y.seen (mget {} x.slots k).seen g then
      let b := xor (s.padLevel p) (slotInv v)
      ({ s with fresh := s.fresh + 1 } : State).onRegion r (fun x => { x with
        slots := mupd {} x.slots k (fun y => { y with seen := g }),
        pinWay := x.pinWay ++ [{ slot := k, left := 5, level := b }] })
    else s

/-- A write of SWIO_OUT (0 to 15) or SWIO_OE (16 to 31) (R371). -/
def State.swioWrite (s : State) (k : Nat) (v : Word32) : State :=
  let o := if k < 16 then mioBase + 0x2000 + 4 * k else mioBase + 0x2040 + 4 * (k - 16)
  let s := s.setRg o v
  ((List.range 32).filter (fun j => s.pinOwn (32 * (k % 16) + j) == 8)).foldl (fun s j => s.keepPad (32 * (k % 16) + j)) s

/-! Enable. -/

/-- The perimeter regions (R359). -/
def perimeterRegions : List Nat := (List.range 8).flatMap bankRegions

/-- The codes of R385 that pin `p` meets. -/
def State.pinCodes (s : State) (p : Nat) : List Nat :=
  let own := s.pinOwn p
  let std := s.rf (pinReg p) 4 2
  codeIf ((5 ≤ own && own ≤ 7) || 9 < own || s.rf (pinReg p) 6 2 == 3 || 2 ≤ std) 0x0801 ++
  codeIf (own == 4 && (bankRegions (p / 64)).length == 3) 0x0802 ++
  codeIf (p % 2 == 0 && (std == 1 || s.rf (pinReg (p + 1)) 4 2 == 1) &&
    (std != s.rf (pinReg (p + 1)) 4 2 || own != s.pinOwn (p + 1))) 0x0803 ++
  codeIf (match s.pinRegion p with
    | some r => s.rb (regionBase r + 0x200) 0
    | none => false) 0x0806

/-- The codes of R385 that the time-stamp channels meet. -/
def State.tsuCodes (s : State) : List Nat :=
  let on := (List.range 8).filter (fun k => s.rb (tsuReg k) 31)
  codeIf (on.any (fun k => s.pinOwn (s.rf (tsuReg k) 0 9) != 9 ||
    on.any (fun j => j != k && s.rf (tsuReg j) 0 9 == s.rf (tsuReg k) 0 9))) 0x0804

/-- The codes of R385 that time-stamp channel `k` meets as its EN rises. -/
def State.tsuCheck (s : State) (k : Nat) : List Nat :=
  let p := s.rf (tsuReg k) 0 9
  codeIf (s.pinOwn p != 9 || (List.range 8).any (fun j => j != k && s.rb (tsuReg j) 31 && s.rf (tsuReg j) 0 9 == p)) 0x0804

/-- The check of the machine I/O block (R360, R385). -/
def State.mioCheck (s : State) : List Nat := (List.range 512).flatMap s.pinCodes ++ s.tsuCodes

/-- The keepers take the levels now at their pads. -/
def State.keepAll (s : State) : State :=
  ((List.range 512).filter (fun p => s.rf (pinReg p) 8 2 == 3)).foldl (fun s p => s.keepPad p) s

/-- A write of MIO_CTRL (R360, R385). -/
def State.mioCtrlWrite (s : State) (v : Word32) : State :=
  if v.getLsbD 0 then
    if s.rb mioBase 0 then s
    else
      let (s, ok) := s.enableCheck mioBase (mioBase + 4) s.mioCheck
      if ok then s.keepAll else s
  else if perimeterRegions.any s.regionEn then s.setRf (mioBase + 4) 0 16 0x0805
  else if s.rb mioBase 0 then s.keepAll.setRb mioBase 0 false
  else s

/-! The commands. -/

/-- PIN_EDGE (R43). -/
def execPinEdge (pin : Fin 512) (drive : Option Bool) (s : State) : Host.Outcome State Fault Refusal :=
  finish s (s.pinEdge pin drive)
/-- PAD_OUTPUT (R43): in a region that runs, samples reach their pads within the cycles of its instructions. -/
def execPadOutput (r slot : Fin 64) (s : State) : Host.Outcome State Fault Refusal :=
  live s (s.restingCycles r (s.untilPad r slot))
/-- TSU_COMPARE (R371). -/
def execTsuCompare (k : Fin 8) (s : State) : Host.Outcome State Fault Refusal := live s (s.tsuCompare k)
/-- PWM_LOAD_POINT (R366). -/
def execPwmLoadPoint (row col : Fin 8) (slot : Fin 64) (s : State) : Host.Outcome State Fault Refusal :=
  live s (s.pwmLoad (8 * row.val + col.val) slot)
/-- SSI_WORD_READY (R369). -/
def execSsiWordReady (r clk : Fin 64) (words : List (Fin 64 × Word32 × Bool)) (s : State) :
    Host.Outcome State Fault Refusal :=
  live s (s.ssiReady r clk (words.map (fun e => (e.1.val, e.2.1, e.2.2))))
/-- SDDAT_CAPTURE (R367). -/
def execSddatCapture (r slot : Fin 64) (s : State) : Host.Outcome State Fault Refusal := live s (s.sdCapture r slot)
/-- SWIO_WRITE (R371). -/
def execSwioWrite (k : Fin 32) (v : Word32) (s : State) : Host.Outcome State Fault Refusal := finish s (s.swioWrite k v)
/-- MIO_ENABLE (R360): a write of MIO_CTRL that sets EN. -/
def execMioEnable (v : Word32) (s : State) : Host.Outcome State Fault Refusal := finish s (s.mioCtrlWrite (setBit v 0 true))
/-- MIO_DISABLE (R360): a write of MIO_CTRL that clears EN. -/
def execMioDisable (v : Word32) (s : State) : Host.Outcome State Fault Refusal := finish s (s.mioCtrlWrite (setBit v 0 false))

end Sys2Proof.Machine
end

