-- ==== Sys2Proof/Machine/Staging.lean ====
section
/-! DEFINITION. Recipe staging (R407, R408), and the key-hash rule (R425). -/

namespace Sys2Proof.Machine

/-- The key slot whose fused hash a public key has (R425). -/
def Otp.keySlot (x : Otp) (key : List (BitVec 8)) : Option Nat :=
  (List.range 4).find? (fun k => bit x.keyv k && !bit x.keyrev k &&
    (mget 0 x.hash k).toNat == bytesNat (sha3Of512 key))

/-- The bytes `n` long from `o` on in a list. -/
def slice (l : List (BitVec 8)) (o n : Nat) : List (BitVec 8) := (l.drop o).take n
/-- A number of `n` bytes at offset `o`, least significant byte first. -/
def numAt (l : List (BitVec 8)) (o n : Nat) : Nat := bytesNat (slice l o n)
/-- Whether `n` bytes from `o` on are all 0. -/
def zerosAt (l : List (BitVec 8)) (o n : Nat) : Bool := (slice l o n).all (· == 0)

/-- Whether a directory block keeps the form of R163. -/
def dirGood (l : List (BitVec 8)) : Bool :=
  decide (numAt l 0 4 < 2) && zerosAt l 0x10 0xFF0

/-- Whether the layout of a manifest for recipe `n` is right (R407, R408 step 2). -/
def manifestGood (l : List (BitVec 8)) (n : Nat) : Bool :=
  slice l 0 4 == [0x4B#8, 0x57#8, 0x52#8, 0x53#8] && numAt l 4 2 == 1 && numAt l 6 1 == n && zerosAt l 7 1 &&
  zerosAt l 0x10 48 && dirGood (slice l 0x40 0x2000) && zerosAt l 0x3253 13

/-- STG_STAT as a refusal leaves it (R408, R412). -/
def State.stageRefuse (s : State) (code : Nat) : State :=
  let o := pciBase + 0x2C
  ((s.setRf o 0 16 code).setRb o 29 true).pciEvent 7

/-- A write of STG_CMD with GO (R408): the manifest is handed over unless a staging is in progress. -/
def State.stgGo (s : State) (v : Word32) : State :=
  let s := s.setRf (pciBase + 0x28) 16 6 (fld v 16 6)
  if s.host.staging.isSome then s.stageRefuse 0x0740
  else
    let a := (s.rg (pciBase + 0x20)).toNat + s.rf (pciBase + 0x24) 0 8 * 2 ^ 32
    (s.onHost (fun h => { h with staging := some (a, fld v 16 6) })).setRb (pciBase + 0x2C) 31 true

/-- Steps 2 to 7 (R408): the first that fails, over the bytes of the manifest and their poison. -/
def State.stageCode (s : State) (n : Nat) (l : List (BitVec 8 × Bool)) : Option Nat :=
  let b := l.map (·.1)
  let key := slice b 0x3260 2592
  if !manifestGood b n then some 0x0741
  else if numAt b 8 4 ≠ 0x7A108840 ∨ numAt b 0xC 4 % 2 = 0 then some 0x0746
  else if ((l.take 0x2040) ++ l.drop 0x3260).any (·.2) then some 0x0745
  else if (s.otp.keySlot key).isNone then some 0x0743
  else if !dsaValid (sha3Of512 (b.take 0x2040)) (slice b 0x2040 4627) key then some 0x0742
  else if (List.range 64).any (fun r =>
    let d := (s.region r).drl
    (match d.job with
      | .preload _ => true
      | _ => false) && d.recInact == n) then some 0x0744
  else none

/-- STAGING_DONE (R408): the steps, and the directory block written last to first. -/
def State.stagingDone (s : State) : State :=
  match s.host.staging with
  | none => s
  | some (a, n) =>
    let s := (s.onHost (fun h => { h with staging := none })).setRb (pciBase + 0x2C) 31 false
    if a % 32 ≠ 0 ∨ 2 ^ 38 ≤ a ∨ !s.dramWithin a 0x3C80 then s.stageRefuse 0x0741
    else
      let (s, x) := s.bytesGet .puppeteer a 0x3C80
      if x.status ≠ 0 then s.stageRefuse 0x0745
      else match s.stageCode n x.bytes with
        | some c => s.stageRefuse c
        | none =>
          let dir := slice (x.bytes.map (·.1)) 0x40 0x2000
          let put := fun (s : State) (o : Nat) (l : List (BitVec 8)) =>
            (s.bytesPut .puppeteer (s.dirAddr n + o) (l.map some) false).1
          let s := put s 0 [0, 0, 0, 0]
          let s := put s 4 (dir.drop 4)
          let s := put s 0 (dir.take 4)
          (s.setRb (pciBase + 0x2C) 30 true).pciEvent 6

/-- STG_GO: STG_CMD written with GO 1 (R408). -/
def execStgGo (v : Word32) (s : State) : Host.Outcome State Fault Refusal := live s (s.stgGo (v ||| 1#32))
/-- STAGING_DONE (R408). -/
def execStagingDone (s : State) : Host.Outcome State Fault Refusal := live s s.stagingDone

end Sys2Proof.Machine
end

