-- ==== Sys2Proof/Machine/RegIo.lean ====
section
/-! DEFINITION. The registers of machine I/O, Ethernet, CoaXPress, PCIe and DMA and of the puppeteer's
engines as masters read and write them (R386 to R389, R412, R413, R433). -/

namespace Sys2Proof.Machine

/-! Machine I/O (R386). -/

/-- The machine I/O registers and how each takes a write. -/
def mioSpec (o : Nat) : Option RegSpec :=
  if o % 4 ≠ 0 then none
  else if o = 0x00 ∨ o = 0x04 then some {}
  else if o = 0x08 then some { rw := 0x30000#32, w1c := 3#32 }
  else if o = 0x0C then some { w1c := 0x80000000#32 }
  else if o = 0x10 then some { rw := 0xFFFFFFFF#32 }
  else if 0x1000 ≤ o ∧ o < 0x1800 then some { rwl := 0xFFF#32, en := mioBase }
  else if 0x2000 ≤ o ∧ o < 0x2080 then some { rw := 0xFFFFFFFF#32 }
  else if 0x2080 ≤ o ∧ o < 0x20C0 then some {}
  else if 0x3000 ≤ o ∧ o < 0x3100 then
    match o % 0x20 with
    | 0x00 => some {}
    | 0x04 => some { w1c := 1#32 }
    | 0x08 | 0x0C => some { rw := 0xFFFFFFFF#32 }
    | _ => none
  else none

/-- A machine I/O register as it reads (R371, R386). -/
def State.mioRead (s : State) (o : Nat) : Option Word32 :=
  (mioSpec o).map (fun _ =>
    if 0x1000 ≤ o ∧ o < 0x1800 then setBit (s.rg (mioBase + o)) 16 (s.padLevel ((o - 0x1000) / 4))
    else if 0x2080 ≤ o ∧ o < 0x20C0 then
      (List.range 32).foldl (fun (w : Word32) j => setBit w j (s.padLevel (8 * (o - 0x2080) + j))) 0
    else s.rg (mioBase + o))

/-- A write of TSU_CTRL of channel `k` (R8, R9, R371, R385): a cleared EN clears first, a rising one is checked. -/
def State.tsuCtrlWrite (s : State) (k : Nat) (v : Word32) : State :=
  let o := tsuReg k
  let f : RegSpec := { rw := 0x03000000#32, rwl := 0x1FF#32, en := o, enBit := 31 }
  if !bit v 31 then (s.setRb o 31 false).writeFields o f v
  else if s.rb o 31 then s.writeFields o f v
  else
    let s := s.writeFields o f v
    match lowestCode (s.tsuCheck k) with
    | some c => s.setRf (mioBase + 4) 0 16 c
    | none => s.setRb o 31 true

/-- A write of a time-stamp register: a new TIME is a new compare (R371). -/
def State.tsuWrite (s : State) (o : Nat) (f : RegSpec) (v : Word32) : State :=
  if o % 0x20 = 0 then s.tsuCtrlWrite ((o - 0x3000) / 0x20) v
  else
    let s := s.writeFields (mioBase + o) f v
    if 8 ≤ o % 0x20 then { s with tsuDone := s.tsuDone.filter (· != (o - 0x3000) / 0x20) } else s

/-- A write of a machine I/O register. -/
def State.mioWrite (s : State) (o : Nat) (v : Word32) : Option State :=
  (mioSpec o).map (fun f =>
    if o = 0 then s.mioCtrlWrite v
    else if 0x2000 ≤ o ∧ o < 0x2080 then s.swioWrite ((o - 0x2000) / 4) v
    else if 0x3000 ≤ o then s.tsuWrite o f v
    else s.writeFields (mioBase + o) f v)

/-! Ethernet (R387, R388). -/

/-- The registers of port `p` and how each takes a write; tap and FRER registers on even ports only. -/
def ethSpec (p o : Nat) : Option RegSpec :=
  let b := ethReg p
  let even := p % 2 = 0
  if o % 4 ≠ 0 then none
  else if o = 0x00 ∨ o = 0x04 ∨ o = 0x08 then some {}
  else if o = 0x0C then some { rw := 0x07FF0000#32, w1c := 0x7FF#32 }
  else if o < 0x30 then some { rw := 0xFFFFFFFF#32 }
  else if 0x40 ≤ o ∧ o < 0x50 then some { rw := 0xCFFFFFFF#32 }
  else if 0x50 ≤ o ∧ o < 0x60 then some { rw := 7#32 }
  else if o = 0x60 then some { rw := 0x77777777#32 }
  else if o = 0x100 ∧ even then some { rw := 0x4000FFFF#32, rwl := 0x03FF0000#32, en := b }
  else if o = 0x104 ∧ even then some { rwl := 0xFFFFFFFF#32, en := b }
  else if 0x108 ≤ o ∧ o < 0x114 ∧ even then some { rw := 0xFFFFFFFF#32 }
  else if o = 0x200 then some { rw := 0xFF01#32 }
  else if o = 0x208 ∨ o = 0x20C then some { rw := 0xFFFFFFFF#32 }
  else if o = 0x210 then some { rw := 0x3FFFFFFF#32 }
  else if o = 0x214 then some { rwl := 0xFF#32, en := b }
  else if 0x1000 ≤ o ∧ o < 0x1200 then some { rw := 0xFFFFFFFF#32 }
  else if 0x2000 ≤ o ∧ o < 0x2200 then some { rw := if o % 8 = 0 then 0xFFFF0000#32 else 0xFFF0001F#32 }
  else if 0x2400 ≤ o ∧ o < 0x2480 then some { rw := 0xFFFFFFFF#32 }
  else if 0x3000 ≤ o ∧ o < 0x3100 ∧ even then some { rw := if o % 8 = 0 then 0xEFFF0003#32 else 0x1F#32 }
  else none

/-- A register of port `p` as it reads: CHG reads 1 until the new list operates (R9, R388). -/
def State.ethRead (s : State) (p o : Nat) : Option Word32 :=
  (ethSpec p o).map (fun _ =>
    if o = 0x200 then setBit (s.rg (ethReg p + o)) 1 (s.eth p).next.isSome else s.rg (ethReg p + o))

/-- A write of TAP_CTRL: EN falls by a write, and rises by one where the tap passes its check (R8, R383, R385). -/
def State.tapCtrlWrite (s : State) (p : Nat) (f : RegSpec) (v : Word32) : State :=
  let o := ethReg p + 0x100
  let was := s.rb o 31
  let s := s.writeFields o f v
  if !bit v 31 then s.setRb o 31 false
  else if was then s
  else match lowestCode (s.tapCodes p true) with
    | some c => s.setRf (ethReg p + 4) 0 16 c
    | none => s.setRb o 31 true

/-- A write of a register of port `p`. -/
def State.ethWrite (s : State) (p o : Nat) (v : Word32) : Option State :=
  if o = 0 then some (s.ethCtrlWrite p v)
  else (ethSpec p o).map (fun f =>
    if o = 0x100 then s.tapCtrlWrite p f v
    else
      let s := s.writeFields (ethReg p + o) f v
      if o = 0x200 ∧ bit v 1 ∧ (s.eth p).next.isNone then s.configChange p else s)

/-! CoaXPress (R389). -/

/-- The registers of receiver `i` and how each takes a write. -/
def cxpSpec (i o : Nat) : Option RegSpec :=
  let b := cxpReg i
  if o % 4 ≠ 0 then none
  else if o = 0x00 ∨ o = 0x04 ∨ o = 0x08 then some {}
  else if o = 0x10 then some { rwl := 0xFFFFFFFF#32, en := b }
  else if o = 0x14 then some { rwl := 0xFF#32, en := b }
  else if o = 0x18 then some { rwl := 0xFFFFFF#32, en := b }
  else if o = 0x1C then some { rwl := 0xFFFF#32, en := b }
  else if 0x20 ≤ o ∧ o < 0x30 then some {}
  else if 0x30 ≤ o ∧ o < 0x44 then some { rw := 0xFFFFFFFF#32 }
  else if o = 0x44 then some { rw := 0x3F0000#32, w1c := 0x3F#32 }
  else if 0x100 ≤ o ∧ o < 0x140 then some { rw := 0xFFFFFFFF#32 }
  else if o = 0x140 then some { rw := 0xFF00#32 }
  else if 0x180 ≤ o ∧ o < 0x1C0 then some {}
  else if o = 0x1C0 then some { w1c := 0x80000000#32 }
  else none

/-- A register of receiver `i` as it reads. -/
def State.cxpRead (s : State) (i o : Nat) : Option Word32 := (cxpSpec i o).map (fun _ => s.rg (cxpReg i + o))

/-- A write of a register of receiver `i`. -/
def State.cxpWrite (s : State) (i o : Nat) (v : Word32) : Option State :=
  if o = 0 then some (s.cxpCtrlWrite i v)
  else if o = 0x140 ∧ bit v 0 then some (s.mbxSend i v)
  else (cxpSpec i o).map (fun f => s.writeFields (cxpReg i + o) f v)

/-! PCIe and DMA (R412, R413). -/

/-- The PCIe and DMA registers and how each takes a write, offsets from the PCIe block. -/
def pciSpec (o : Nat) : Option RegSpec :=
  match o with
  | 0x00 => some {}
  | 0x08 => some { rw := 0x01FF0000#32, w1c := 0x1FF#32 }
  | 0x0C | 0x10 | 0x20 => some { rw := 0xFFFFFFFF#32 }
  | 0x14 => some { w1c := 0x80000000#32 }
  | 0x24 => some { rw := 0xFF#32 }
  | 0x28 => some { rw := 0x3F0000#32 }
  | 0x2C => some { w1c := 0x60000000#32 }
  | _ =>
    if 0x10000 ≤ o ∧ o < 0x10400 then
      let b := pciBase + o - o % 0x40
      match o % 0x40 with
      | 0x00 | 0x04 | 0x14 | 0x1C => some {}
      | 0x08 | 0x0C => some { rwl := 0xFFFFFFFF#32, en := b }
      | 0x10 => some { rwl := 0x1F#32, en := b }
      | 0x18 => some { rw := 0xFFFF#32 }
      | 0x20 => some { rw := 0xFFFFFFFF#32 }
      | 0x24 => some { rw := 0x30000#32, w1c := 3#32 }
      | _ => none
    else none

/-- A PCIe or DMA register as it reads: GO reads 1 while a staging is in progress (R9). -/
def State.pciRead (s : State) (o : Nat) : Option Word32 :=
  (pciSpec o).map (fun _ =>
    if o = 0x28 then setBit (s.rg (pciBase + o)) 0 s.host.staging.isSome else s.rg (pciBase + o))

/-- A write of a PCIe or DMA register. -/
def State.pciWrite (s : State) (o : Nat) (v : Word32) : Option State :=
  if o = 0x28 ∧ bit v 0 then some (s.stgGo v)
  else if 0x10000 ≤ o ∧ o < 0x10400 ∧ o % 0x40 = 0 then some (s.dmaCtrlWrite ((o - 0x10000) / 0x40) v)
  else (pciSpec o).map (fun f => s.writeFields (pciBase + o) f v)

/-! The puppeteer's engines (R433). -/

/-- The engines' registers and how each takes a write. -/
def engSpec (o : Nat) : Option RegSpec :=
  match o with
  | 0x00 => some { rw := 0x36#32 }
  | 0x08 | 0x10 | 0x108 | 0x10C | 0x110 => some { rw := 0xFFFFFFFF#32 }
  | 0x0C => some { rw := 0xFF#32 }
  | 0x14 => some { rw := 0x7F#32 }
  | 0x18 => some { w1c := 6#32 }
  | 0x100 => some { rw := 6#32 }
  | 0x114 => some { w1c := 0xA#32 }
  | _ => if 0x40 ≤ o ∧ o < 0x80 ∧ o % 4 = 0 then some {} else none

/-- An engine register as it reads: GO reads 1 while BUSY (R9). -/
def State.engRead (s : State) (o : Nat) : Option Word32 :=
  (engSpec o).map (fun _ =>
    if o = 0 then setBit (s.rg engBase) 0 (s.rb (engBase + 0x18) 0)
    else if o = 0x100 then setBit (s.rg (engBase + 0x100)) 0 s.mld.isSome
    else s.rg (engBase + o))

/-- A write of MLD_CTRL with GO; OP 3 is a bad operand (R433). -/
def State.mldCtrlGo (s : State) (v : Word32) : State :=
  match fld v 1 2 with
  | 0 => s.mldGo 0 State.mldVerify
  | 1 => s.mldGo 1 State.mldSign
  | 2 => s.mldGo 2 State.mldPubkey
  | n => s.mldGo n (fun s => (s, { err := true }))

/-- A write of an engine register. -/
def State.engWrite (s : State) (o : Nat) (v : Word32) : Option State :=
  if o = 0 ∧ bit v 0 then some (s.shaGo v)
  else if o = 0x100 ∧ bit v 0 then some (s.mldCtrlGo v)
  else (engSpec o).map (fun f => s.writeFields (engBase + o) f v)

end Sys2Proof.Machine
end

