-- ==== Sys2Proof/Machine/Registers.lean ====
section
/-! DEFINITION. Every register access: blocks, 64-bit accesses, the latches of 64-bit counters, statuses
(R3 to R6, R280, R282, R318). Offsets are from 0x42_0000_0000. -/

namespace Sys2Proof.Machine

/-- The router behind which a register block lies (R280). -/
def regRouter (o : Nat) : Option Nat :=
  if o < 0x400000 then some (o / 0x10000)
  else if o < 0x440000 then [27, 28, 35, 36][(o - 0x400000) / 0x10000]?
  else if 0x500000 ≤ o ∧ o < 0x540000 then some 73
  else if 0x600000 ≤ o ∧ o < 0x640000 then some (64 + (o - 0x600000) / 0x10000)
  else if 0x700000 ≤ o ∧ o < 0x720000 then some 72
  else if 0x800000 ≤ o ∧ o < 0x810000 then some 68
  else if 0x810000 ≤ o ∧ o < 0x820000 then some 69
  else if 0x820000 ≤ o ∧ o < 0x830000 then some 70
  else if 0x900000 ≤ o ∧ o < 0x910000 then some 75
  else if 0xA00000 ≤ o ∧ o < 0xA10000 then some 74
  else if 0xB00000 ≤ o ∧ o < 0xB10000 then some 73
  else if 0xC00000 ≤ o ∧ o < 0xC10000 then some 73
  else if 0xE00000 ≤ o ∧ o < 0xE10000 then some 75
  else none

/-- The queue whose Q_DATA lies at an offset (R156). -/
def qDataOf (o : Nat) : Option Nat :=
  if 0x400000 ≤ o ∧ o < 0x440000 ∧ o % 0x10000 < 0x2000 ∧ o % 0x40 = 0x3C then
    some (128 * ((o - 0x400000) / 0x10000) + o % 0x10000 / 0x40)
  else none

/-- A register as it reads, latches and Q_DATA apart; none where no register lies at the offset. -/
def State.regPeek (s : State) (o : Nat) : Option Word32 :=
  let k := o % 0x10000
  if o < 0x400000 then s.regionRead (o / 0x10000) k
  else if o < 0x440000 then s.planeRead ((o - 0x400000) / 0x10000) k
  else if o < 0x500000 then none
  else if o < 0x510000 then s.schRead k
  else if o < 0x520000 then s.evRead k
  else if o < 0x540000 then s.nocRead (o - 0x520000)
  else if 0x600000 ≤ o ∧ o < 0x640000 then s.ddrRead ((o - 0x600000) / 0x10000) k
  else if 0x700000 ≤ o ∧ o < 0x720000 then s.pciRead (o - 0x700000)
  else if 0x800000 ≤ o ∧ o < 0x810000 then s.mioRead k
  else if 0x810000 ≤ o ∧ o < 0x820000 then s.ethRead (k / 0x4000) (k % 0x4000)
  else if 0x820000 ≤ o ∧ o < 0x824000 then s.cxpRead (k / 0x400) (k % 0x400)
  else if 0x900000 ≤ o ∧ o < 0x910000 then s.bootRead k
  else if 0xA00000 ≤ o ∧ o < 0xA10000 then s.tdmRead k
  else if 0xB00000 ≤ o ∧ o < 0xB10000 then s.testRead k
  else if 0xC00000 ≤ o ∧ o < 0xC01000 then s.ccRead (k / 0x100) (k % 0x100)
  else if 0xE00000 ≤ o ∧ o < 0xE10000 then s.govRead k
  else none

/-- The blocks whose engines stop in the fatal path: their registers take no more writes (R470, R471). -/
def stopsInFatal (o : Nat) : Bool :=
  decide (o < 0x510000) || (decide (0x820000 ≤ o) && decide (o < 0x830000)) || (decide (0xA00000 ≤ o) && decide (o < 0xA10000)) ||
  (decide (0xC00000 ≤ o) && decide (o < 0xC10000))

/-- A performed write, or a refused one with its status; none where no register lies at the offset. -/
def State.regPoke (s : State) (m : Master) (o : Nat) (v : Word32) : Option (State × Nat) :=
  let k := o % 0x10000
  let ok := fun t : Option State => t.map (·, 0)
  if o < 0x400000 then ok (s.regionWrite m (o / 0x10000) k v)
  else if o < 0x440000 then ok (s.planeWrite ((o - 0x400000) / 0x10000) k v)
  else if o < 0x500000 then none
  else if o < 0x510000 then ok (s.schWrite k v)
  else if o < 0x520000 then s.evWrite m k v
  else if o < 0x540000 then s.nocWrite m (o - 0x520000) v
  else if 0x600000 ≤ o ∧ o < 0x640000 then s.ddrWrite m ((o - 0x600000) / 0x10000) k v
  else if 0x700000 ≤ o ∧ o < 0x720000 then ok (s.pciWrite (o - 0x700000) v)
  else if 0x800000 ≤ o ∧ o < 0x810000 then ok (s.mioWrite k v)
  else if 0x810000 ≤ o ∧ o < 0x820000 then ok (s.ethWrite (k / 0x4000) (k % 0x4000) v)
  else if 0x820000 ≤ o ∧ o < 0x824000 then ok (s.cxpWrite (k / 0x400) (k % 0x400) v)
  else if 0x900000 ≤ o ∧ o < 0x910000 then ok (s.bootWrite k v)
  else if 0xA00000 ≤ o ∧ o < 0xA10000 then ok (s.tdmWrite k v)
  else if 0xB00000 ≤ o ∧ o < 0xB10000 then s.testWrite m k v
  else if 0xC00000 ≤ o ∧ o < 0xC01000 then ok (s.ccWrite (k / 0x100) (k % 0x100) v)
  else if 0xE00000 ≤ o ∧ o < 0xE10000 then ok (s.govWrite k v)
  else none

/-- The low words of the 64-bit counters, the registers whose tables name R4: STALL_CNT, CYC_CNT, DRL_TSHIFT,
SCH_ABSWAKE, SCH_DISPCNT, CT_TIME, PR_PKT, PR_FLIT, FRZ_TIME, TSU_TIME, BOOT_TIME, TDM_RECCNT, FTL_TIME,
MT_NOW. -/
def counterLow (o : Nat) : Bool :=
  let k := o % 0x10000
  if o < 0x400000 then k == 0x70 || k == 0x80 || k == 0x118
  else if 0x500000 ≤ o ∧ o < 0x510000 then k == 0x20 || k == 0x68
  else if 0x510000 ≤ o ∧ o < 0x520000 then decide (0x8000 ≤ k) && decide (k < 0x9000) && k % 0x20 == 0
  else if 0x520000 ≤ o ∧ o < 0x530000 then
    decide (0x100 ≤ k) && decide (k < 0x300) && (k % 0x40 == 0x18 || k % 0x40 == 0x20)
  else if 0x600000 ≤ o ∧ o < 0x640000 then k == 0x40
  else if 0x800000 ≤ o ∧ o < 0x810000 then decide (0x3000 ≤ k) && decide (k < 0x3100) && k % 0x20 == 8
  else if 0x900000 ≤ o ∧ o < 0x910000 then k == 0x18
  else if 0xA00000 ≤ o ∧ o < 0xA10000 then k == 0x38
  else if 0xB00000 ≤ o ∧ o < 0xB10000 then k == 0x48
  else if 0xE00000 ≤ o ∧ o < 0xE10000 then k == 0x10
  else false

/-- The latch that master `m` holds for the counter whose high word lies at `o` (R4). -/
def State.latchOf (s : State) (m : Master) (o : Nat) : Option Word32 :=
  (s.latches.find? (fun e => e.1 == m && e.2.1 == o)).map (·.2.2)

/-- Releases that latch. -/
def State.unlatch (s : State) (m : Master) (o : Nat) : State :=
  { s with latches := s.latches.filter (fun e => !(e.1 == m && e.2.1 == o)) }

/-- Latches the high word of a counter for master `m`; a further read replaces the latch (R4). -/
def State.latch (s : State) (m : Master) (o : Nat) (v : Word32) : State :=
  let s := s.unlatch m o
  { s with latches := s.latches ++ [(m, o, v)] }

/-- What a read does before it shows its value: the task view reads the record it shows (R239, R240, R246). -/
def State.readsFirst (s : State) (o : Nat) : State :=
  if [0x500034, 0x500038, 0x500040, 0x500044].contains o then (s.taskGet (s.rf (schBase + 0x30) 0 16)).1 else s

/-- A 32-bit register read at its block: status and value (R4, R159, R280). -/
def State.regGet32 (s : State) (m : Master) (o : Nat) : State × Nat × Word32 :=
  match qDataOf o with
  | some q => (s.timersFirst q 1).qDataGet q
  | none =>
    let s := s.readsFirst o
    match s.regPeek o with
    | none => (s, 3, 0)
    | some v =>
      if counterLow o then (s.latch m (o + 4) ((s.regPeek (o + 4)).getD 0), 0, v)
      else if 4 ≤ o ∧ counterLow (o - 4) then
        match s.latchOf m o with
        | some w => (s.unlatch m o, 0, w)
        | none => (s, 0, v)
      else (s, 0, v)

/-- A 32-bit register write at its block: its status (R5, R159, R280). -/
def State.regPut32 (s : State) (m : Master) (o : Nat) (v : Word32) : State × Nat :=
  match qDataOf o with
  | some q => (s.timersFirst q 0).qDataPut q v
  | none =>
    if s.dead && stopsInFatal o then (s, if (s.regPeek o).isSome then 0 else 3) else (s.regPoke m o v).getD (s, 3)

/-- Whether an access has a size and an alignment that R3 allows. -/
def regSizeOk (o n : Nat) : Bool := (n == 4 && o % 4 == 0) || (n == 8 && o % 8 == 0)

/-- A register read of `n` bytes at its block: status and value (R3, R4, R282). Q_DATA takes 32 bits only
(R159). -/
def State.regGet (s : State) (m : Master) (o n : Nat) : State × Nat × Nat :=
  if !regSizeOk o n then (s, 5, 0)
  else if n = 4 then
    let r := s.regGet32 m o
    (r.1, r.2.1, r.2.2.toNat)
  else if (qDataOf (o + 4)).isSome then (s, 1, 0)
  else
    let s := s.readsFirst o
    match s.regPeek o, s.regPeek (o + 4) with
    | some a, some b => (s, 0, a.toNat + b.toNat * 2 ^ 32)
    | _, _ => (s, 3, 0)

/-- A register write of `n` bytes at its block: its status; poisoned data is not performed (R3, R282, R318). -/
def State.regPut (s : State) (m : Master) (o n : Nat) (v : Nat) (bad : Bool) : State × Nat :=
  if !regSizeOk o n then (s, 5)
  else if bad then (s, if (s.regPeek o).isSome || (qDataOf o).isSome then 8 else 3)
  else if n = 4 then s.regPut32 m o (BitVec.ofNat 32 v)
  else if (qDataOf (o + 4)).isSome then (s, 1)
  else if (s.regPeek o).isNone ∨ (s.regPeek (o + 4)).isNone then (s, 3)
  else
    let (s, a) := s.regPut32 m o (BitVec.ofNat 32 v)
    let (s, b) := s.regPut32 m (o + 4) (BitVec.ofNat 32 (v / 2 ^ 32))
    (s, if a ≠ 0 then a else b)

/-- A register read by master `m`, whole: route, block, answer (R278, R280, R283, R289). -/
def State.regRead (s : State) (m : Master) (o n : Nat) : State × Nat × Nat :=
  s.whole (m == .loader) (masterRouter m) (regRouter o) 4 (0x4200000000 + o) 1 (fun s => s.regGet m o n) 0

/-- A register write by master `m`, whole. -/
def State.regWrite (s : State) (m : Master) (o n : Nat) (v : Nat) (bad : Bool) : State × Nat :=
  let r := s.whole (m == .loader) (masterRouter m) (regRouter o) 5 (0x4200000000 + o) 1
    (fun s => let x := s.regPut m o n v bad; (x.1, x.2, ())) ()
  (r.1, r.2.1)

/-- Whether an address lies in the register range. -/
def inRegisters (a : Nat) : Bool := decide (0x4200000000 ≤ a) && decide (a < 0x4300000000)

/-- The offset of a register address; outside the register range no register is named. -/
def regOffset (a : Addr) : Nat := if 0x4200000000 ≤ a.toNat then a.toNat - 0x4200000000 else 0x10000000

/-! The commands. -/

/-- REGISTER_WRITE (R5): a 32-bit write by master `m`. -/
def execRegisterWrite (m : Master) (addr : Addr) (v : Word32) (s : State) : Host.Outcome State Fault Refusal :=
  let r := s.regWrite m (regOffset addr) 4 v.toNat false
  finish s (r.1.put (.answer m addr.toNat r.2 0))
/-- COUNTER_LOW_READ (R4): a 32-bit read by master `m`. -/
def execCounterLowRead (m : Master) (addr : Addr) (s : State) : Host.Outcome State Fault Refusal :=
  let r := s.regRead m (regOffset addr) 4
  finish s (r.1.put (.answer m addr.toNat r.2.1 r.2.2))
/-- COUNTER_HIGH_READ (R4): a 32-bit read by master `m`. -/
def execCounterHighRead (m : Master) (addr : Addr) (s : State) : Host.Outcome State Fault Refusal :=
  let r := s.regRead m (regOffset addr) 4
  finish s (r.1.put (.answer m addr.toNat r.2.1 r.2.2))

end Sys2Proof.Machine
end

