-- ==== Sys2Proof/Machine/HostWin.lean ====
section
/-! DEFINITION. The host's windows: reads and writes of the BARs, and the recovery function's BAR0
(R394 to R398, R410). -/

namespace Sys2Proof.Machine

/-- What an offset of a BAR reaches (R394, R410): registers, the MSI-X table, its pending bits, a range of
the internal address space with whether the host may write it, the mailbox registers, the mailbox buffer. -/
inductive Window where
  | regs (o : Nat) (ro : Bool)
  | table (o : Nat)
  | pba (o : Nat)
  | range (a : Nat) (ro : Bool)
  | mailbox (o : Nat)
  | buffer (o : Nat)
deriving DecidableEq, Repr

/-- The windows of the normal function; BARs 0, 2 and 4 are numbered 0, 1, 2 (R394, R412). -/
def window (bar : Fin 3) (o : Nat) : Option Window :=
  if bar = 0 then
    if o < 0x1000000 then some (.regs o false)
    else if o < 0x1008000 then some (.table (o - 0x1000000))
    else if o < 0x1008100 then some (.pba (o - 0x1008000))
    else none
  else if bar = 1 then if o < 2 ^ 38 then some (.range o false) else none
  else if o < 0x4000000 then some (.range (0x4000000000 + o) false)
  else if o < 0x4800000 then some (.range (logbookAddr + (o - 0x4000000)) true)
  else none

/-- The windows of the recovery function (R410). -/
def rescueWindow (bar : Fin 3) (o : Nat) : Option Window :=
  if bar ≠ 0 then none
  else if o < 0x1000 then some (.regs (bootBase + o) true)
  else if o < 0x1020 then some (.mailbox (o - 0x1000))
  else if 0x40000 ≤ o ∧ o < 0x80000 then some (.buffer (o - 0x40000))
  else if 0x800000 ≤ o ∧ o < 0x1000000 then some (.range (logbookAddr + (o - 0x800000)) true)
  else none

/-- What an offset reaches now. -/
def State.reaches (s : State) (bar : Fin 3) (o : Nat) : Option Window :=
  if s.rescue then rescueWindow bar o else if s.booted then window bar o else none

/-- The registers of the recovery mailbox, kept behind those of the MSI-X table (R410). -/
def rmbBase : Nat := 0x1010000

/-! Discarded writes. -/

/-- An inbound write that is not performed (R394, R397, R412): counted, recorded, source 1444. -/
def State.hostErr (s : State) (bar : Fin 3) (status : Nat) : State :=
  let s := s.count (pciBase + 0x10)
  let s := s.setRg (pciBase + 0x14) (BitVec.ofNat 32 (2 ^ 31 + bar.val * 2 ^ 16 + status % 256))
  s.pciEvent 4

/-- The outcome of a write that reached the NoC. -/
def State.hostLanded (s : State) (bar : Fin 3) (status : Nat) : State :=
  if status = 0 then s else s.hostErr bar status

/-- The dump area, where there is one (R472). -/
def State.dumpBase (s : State) : Option Nat := if s.dramTotal = 0 then none else some (s.dramTotal * 2 ^ 30 - 0x20000000)

/-- Whether the fatal path keeps the host from writing `n` bytes at `a` (R471). -/
def State.dumpGuards (s : State) (a n : Nat) : Bool :=
  s.dead && (match s.dumpBase with
    | some d => decide (d < a + n) && decide (a < d + 0x20000000)
    | none => false)

/-! Writes. -/

/-- The reserved bits of an MSI-X table entry stay 0: the low two of the address, all but the mask bit. -/
def tableMask (o : Nat) : Word32 := if o % 16 = 0 then 0xFFFFFFFC#32 else if o % 16 = 12 then 1#32 else 0xFFFFFFFF#32

/-- One byte of a register kept by its offset. -/
def State.putRegByte (s : State) (o : Nat) (x : BitVec 8) : State :=
  s.setRf (o / 4 * 4) (8 * (o % 4)) 8 x.toNat

/-- Bytes written to the MSI-X table, and the messages that this unmasks (R399). -/
def State.tableWrite (s : State) (o : Nat) (l : List (Option (BitVec 8))) : State :=
  let s := l.zipIdx.foldl (fun s e => match e.1 with
    | some x =>
      let k := msixBase + o + e.2
      let s := s.putRegByte k x
      s.setRg (k / 4 * 4) (s.rg (k / 4 * 4) &&& tableMask (k / 4 * 4))
    | none => s) s
  s.msixFlush

/-- Bytes written to the mailbox buffer (R410). -/
def bufPut (b : Map (BitVec 8)) (k : Nat) (l : List (Option (BitVec 8))) : Map (BitVec 8) :=
  l.zipIdx.foldl (fun m e => match e.1 with
    | some x => mset 0 m (k + e.2) x
    | none => m) b

/-- A write to the register part of BAR0 (R395, R396). -/
def State.hostRegWrite (s : State) (bar : Fin 3) (o : Nat) (l : List (Option (BitVec 8))) (ep : Bool) : State :=
  if !regSizeOk o l.length || l.any (·.isNone) then s.hostErr bar 0xFF
  else
    let (s, st) := s.regWrite .host o l.length (bytesNat (l.map (·.getD 0))) ep
    s.hostLanded bar st

/-- A write TLP of bytes `l` at offset `o` of a BAR, none for a byte that is not enabled (R394 to R397).
Until the boot has decided between the functions no BAR is mapped (R424). -/
def State.hostPut (s : State) (bar : Fin 3) (o : Nat) (l : List (Option (BitVec 8))) (ep : Bool) : State :=
  if !s.booted && !s.rescue then s
  else
  let s := if ep then (s.count (pciBase + 0xC)).pciEvent 2 else s
  match s.reaches bar o with
  | none => s.hostErr bar 0xFF
  | some (.regs _ true) => s.hostErr bar 0xFF
  | some (.regs k false) => s.hostRegWrite bar k l ep
  | some (.table k) => if ep then s.hostErr bar 0xFF else s.tableWrite k l
  | some (.pba _) => if ep then s.hostErr bar 0xFF else s
  | some (.range _ true) => s.hostErr bar 0xFF
  | some (.range a false) =>
    if s.dumpGuards a l.length then s.hostErr bar 0xFF
    else
      let (s, st, _) := s.bytesPut .host a l ep
      s.hostLanded bar st
  | some (.mailbox k) =>
    if ep then s.hostErr bar 0xFF
    else if k = 12 then s
    else l.zipIdx.foldl (fun s e => match e.1 with
      | some x => s.putRegByte (rmbBase + k + e.2) x
      | none => s) s
  | some (.buffer k) =>
    if ep then s.hostErr bar 0xFF
    else s.onHost (fun h => { h with buf := bufPut h.buf k l })

/-! Reads. -/

/-- The completion status toward the host (R397): 0 successful, 1 Unsupported Request, 4 Completer Abort. -/
def completionOf (status : Nat) : Nat := if status = 0 then 0 else if status = 3 then 1 else 4

/-- `n` bytes of registers kept by their offset. -/
def State.regByteList (s : State) (o n : Nat) : List (BitVec 8) :=
  (List.range n).map (fun i => BitVec.ofNat 8 (s.rf ((o + i) / 4 * 4) (8 * ((o + i) % 4)) 8))

/-- Bytes of the pending bit array (R399). -/
def State.pbaBytes (s : State) (o n : Nat) : List (BitVec 8) :=
  (List.range n).map (fun i =>
    (List.range 8).foldl (fun x j => setBit x j (mget false s.host.pend (8 * (o + i) + j))) (0 : BitVec 8))

/-- A read of a range: one completion up to each read completion boundary, until one fails (R391, R395,
R397). -/
def State.rangeRead (s : State) (tag : Nat) : Nat → Nat → Nat → State
  | 0, _, _ => s
  | f + 1, a, n =>
    if n = 0 then s
    else
      let k := min n (64 - a % 64)
      let (s, x) := s.bytesGet .host a k
      if x.status ≠ 0 then s.put (.completion tag (completionOf x.status) [] false)
      else
        let s := s.put (.completion tag 0 (x.bytes.map (·.1)) (x.bytes.any (·.2)))
        s.rangeRead tag f (a + k) (n - k)

/-- A read of the registers through BAR0 (R395, R397). -/
def State.hostRegRead (s : State) (o n tag : Nat) : State :=
  if !regSizeOk o n then s.put (.completion tag 4 [] false)
  else
    let (s, st, v) := s.regRead .host o n
    s.put (.completion tag (completionOf st) (if st = 0 then natBytes n v else []) false)

/-- A read TLP of `n` bytes at offset `o` of a BAR (R394, R395, R397). -/
def State.hostGet (s : State) (bar : Fin 3) (o n tag : Nat) : State :=
  match s.reaches bar o with
  | none => s.put (.completion tag 1 [] false)
  | some (.regs k _) => s.hostRegRead k n tag
  | some (.table k) => s.put (.completion tag 0 (s.regByteList (msixBase + k) n) false)
  | some (.pba k) => s.put (.completion tag 0 (s.pbaBytes k n) false)
  | some (.range a _) => s.rangeRead tag (n / 64 + 2) a n
  | some (.mailbox k) => s.put (.completion tag 0 (s.regByteList (rmbBase + k) n) false)
  | some (.buffer k) =>
    s.put (.completion tag 0 ((List.range n).map (fun i => mget 0 s.host.buf (k + i))) false)

/-! The commands. -/

/-- HOST_WRITE (R396): a write TLP to a BAR, or one to configuration space (R393). -/
def execHostWrite (space : HostSpace) (off : Addr) (data : List (Option (BitVec 8))) (ep : Bool) (s : State) :
    Host.Outcome State Fault Refusal :=
  finish s (match space with
    | .bar n => s.hostPut n off.toNat data ep
    | .config => s.cfgPut off.toNat data)
/-- HOST_READ (R395): a read TLP of a BAR, or one of configuration space (R393). -/
def execHostRead (space : HostSpace) (off : Addr) (len : Fin 4097) (tag : Fin 1024) (s : State) :
    Host.Outcome State Fault Refusal :=
  finish s (match space with
    | .bar n => s.hostGet n off.toNat len tag
    | .config => s.cfgGet off.toNat len tag)

end Sys2Proof.Machine
end

