-- ==== Sys2Proof/Machine/Attest.lean ====
section
/-! DEFINITION. Data Object Exchange and the attestation report (R409, R432). -/

namespace Sys2Proof.Machine

/-- Sets a BOOT_EVT bit and raises its source when enabled (R435, R436). -/
def State.bootEvent (s : State) (k : Nat) : State := s.event (bootBase + 0x30) k (16 + k) (1860 + k)

/-- The bytes of data-object words. -/
def doeWords (l : List Word32) : List (BitVec 8) := l.flatMap (fun w => natBytes 4 w.toNat)

/-- A data object: vendor, type and length in words, header included, then its content. -/
def doeObject (vendor : BitVec 16) (type : BitVec 8) (body : List (BitVec 8)) : List (BitVec 8) :=
  natBytes 2 vendor.toNat ++ natBytes 2 type.toNat ++ natBytes 4 (2 + body.length / 4) ++ body

/-- DOE Discovery (R409): the object at an index with the index of the next one. -/
def doeDiscovery (index : Nat) : List (BitVec 8) :=
  match index with
  | 0 => natBytes 4 0x01000001
  | 1 => natBytes 4 0x00011F3D
  | _ => natBytes 4 0x0000FFFF

/-- A DOE request with its words behind the header (R409). -/
def State.doeGo (s : State) (vendor : BitVec 16) (type : BitVec 8) (ws : List Word32) : State :=
  if !s.booted && !s.rescue then s
  else
    let s := s.pciEvent 8
    if vendor = 1 ∧ type = 0 ∧ ws.length = 1 then
      s.put (.doe (doeObject vendor type (doeDiscovery (fld (ws.getD 0 0) 0 8))))
    else if vendor = 0x1F3D ∧ type = 1 ∧ ws.length = 16 then
      if s.host.doe.isSome then s
      else
        let t := s.now
        let q : DoeReq := { nonce := BitVec.ofNat 256 (bytesNat (doeWords (ws.take 8))), flags := ws.getD 8 0, at_ := t }
        s.onHost (fun h => { h with doe := some q })
    else s.put (.doe (doeObject vendor type []))

/-- The boot count of the logbook header (R465). -/
def State.bootCount (s : State) : Nat := s.peekBytes (logbookAddr + 8) 4

/-- Byte `r` of the recipes in force (R432). -/
def State.recipeByte (s : State) (r : Nat) : BitVec 8 :=
  if s.regionEn r then BitVec.ofNat 8 (s.region r).drl.recAct else 0xFF#8

/-- The digest of directory block `n`, none where a word of it is poisoned, uncorrectable or answered with an
error (R432). -/
def State.dirDigest (s : State) (n : Nat) : State × Option (List (BitVec 8)) :=
  let (s, x) := s.bytesGet .puppeteer (s.dirAddr n) 0x2000
  if x.status ≠ 0 ∨ x.bytes.any (·.2) then (s, none) else (s, some (sha3Of512 (x.bytes.map (·.1))))

/-- The digests of the 64 directory blocks. -/
def State.dirDigests (s : State) : State × List (Option (List (BitVec 8))) :=
  (List.range 64).foldl (fun acc n =>
    let r := acc.1.dirDigest n
    (r.1, acc.2 ++ [r.2])) (s, [])

/-- The report up to its signature (R432). -/
def State.reportBody (s : State) (q : DoeReq) (dirs : List (Option (List (BitVec 8)))) : List (BitVec 8) :=
  let info := s.rg (bootBase + 0x28)
  let pmask := (List.range 64).foldl (fun (v : BitVec 64) n => setBit v n (dirs.getD n (some []) == none)) 0
  [0x4B#8, 0x57#8, 0x41#8, 0x54#8] ++ natBytes 2 1 ++ natBytes 2 q.flags.toNat ++
  natBytes 4 (s.rg (bootBase + 0x10)).toNat ++ natBytes 4 (s.rg (bootBase + 0x14)).toNat ++
  natBytes 32 q.nonce.toNat ++ natBytes 8 s.now ++ natBytes 4 s.bootCount ++
  natBytes 1 (s.rf bootBase 4 1) ++ natBytes 1 (fld info 8 7) ++ natBytes 1 (fld info 16 2) ++ natBytes 1 s.otp.svnf ++
  s.regByteList (bootBase + 0x100) 64 ++ (List.range 64).map s.recipeByte ++ natBytes 8 pmask.toNat ++
  natBytes 56 0 ++ dirs.flatMap (fun d => d.getD (natBytes 64 0))

/-- ATTESTATION_REPORT (R432): assembled, signed, and sent as the response. -/
def State.attest (s : State) : State :=
  match s.host.doe with
  | none => s
  | some q =>
    let s := s.onHost (fun h => { h with doe := none })
    let (s, dirs) := if bit q.flags 0 then s.dirDigests else (s, [])
    let body := s.reportBody q dirs
    let (s, sig) := s.signs [0x4B#8, 0x57#8, 0x41#8, 0x54#8] (sha3Of512 body)
    let rep := body ++ sig.getD (natBytes 4627 0) ++ s.idKey
    let rep := rep ++ natBytes ((4 - rep.length % 4) % 4) 0
    (s.put (.doe (doeObject 0x1F3D#16 1#8 rep))).bootEvent 3

/-- DOE_REQUEST (R409): the words behind the object header. -/
def execDoeRequest (vendor : BitVec 16) (type : BitVec 8) (words : List Word32) (s : State) :
    Host.Outcome State Fault Refusal := finish s (s.doeGo vendor type words)
/-- ATTESTATION_REPORT (R432). -/
def execAttestationReport (s : State) : Host.Outcome State Fault Refusal := finish s s.attest

end Sys2Proof.Machine
end

