-- ==== Sys2Proof/Machine/Boot.lean ====
section
/-! DEFINITION. Reset and boot: what survives, the image and its checks, its sections, both slots, the failure
path (R415 to R429, R501). -/

namespace Sys2Proof.Machine

/-! What a reset leaves. -/

/-- Whether an address lies in the logbook. -/
def inLogbook (a : Nat) : Bool := decide (logbookAddr ≤ a) && decide (a < logbookAddr + 0x800000)

/-- The part as power-on reset leaves it (R7): the outside of the part, its fuses, its flash and its logbook
stand. -/
def State.powered (s : State) : State :=
  { State.reset with
    mem := s.mem.filter (fun e => inLogbook e.1), otp := s.otp, flash := s.flash,
    pads := s.pads.filterMap (fun e => if e.2.ext = none then none else some (e.1, { ext := e.2.ext })),
    signals := { sysclk := s.signals.sysclk }, out := s.out, fresh := s.fresh, pending := s.pending }

/-- The end of the event ring: forward from HEADIDX while SEQ keeps rising (R465). -/
def State.ringEnd (s : State) : Nat → Nat → Nat → Nat × Nat
  | 0, i, q => (i, q + 1)
  | f + 1, i, q =>
    let x := s.peekBytes (logbookAddr + 0x10000 + 32 * i) 4
    if q < x then s.ringEnd f ((i + 1) % 194560) x else (i, q + 1)

/-- The logbook controller at step 1 of a boot (R465): magic and format, the boot count, the ring's end. -/
def State.logbookOpen (s : State) : State :=
  let b := logbookAddr
  let s := (s.pokeBytes b 0x424C574B 4).pokeBytes (b + 4) 1 4
  let s := s.pokeBytes (b + 8) (s.peekBytes (b + 8) 4 + 1) 4
  let e := s.ringEnd 194560 (s.peekBytes (b + 0xC) 4 % 194560) (s.peekBytes (b + 0x10) 4 - 1)
  ({ s with lbIdx := e.1 } : State).setRg (testBase + 0x34) (BitVec.ofNat 32 e.2)

/-- A register kept over the reset in front of slot B (R423): those of the DRAM channels, the self-test
results, LB_SEQ, and what the boot has recorded. -/
def keptOverSlots (o : Nat) : Bool :=
  (decide (0x600000 ≤ o) && decide (o < 0x640000)) ||
  (decide (0x400000 ≤ o) && decide (o < 0x440000) && o % 0x10000 == 0xD020) ||
  o == testBase + 0x34 || o == bootBase || o == bootBase + 4 || o == bootBase + 0xC

/-- The reset in front of the attempt on slot B (R423). -/
def State.slotReset (s : State) : State :=
  { s.powered with
    mem := s.mem.filter (fun e => e.1 < 2 ^ 38 || inLogbook e.1),
    codes := s.codes.filter (fun e => e.1 < 2 ^ 33), drams := s.drams,
    regs := s.regs.filter (fun e => keptOverSlots e.1),
    scrubs := s.scrubs.filter (fun e => 4 ≤ e.1), now := s.now, lbIdx := s.lbIdx, lbSecond := s.lbSecond, lbHead := s.lbHead,
    signals := { s.signals with therm := false } }

/-! The image. -/

/-- `n` bytes of slot A or B from offset `o` (R418). -/
def State.flashBytes (s : State) (slotB : Bool) (o n : Nat) : List (BitVec 8) :=
  (List.range n).map (fun i => mget 0xFF#8 s.flash (b2n slotB * 0x10000000 + o + i))

/-- A section-table entry (R421). -/
structure Sect where
  type : Nat
  flags : Nat
  arg : Nat
  off : Nat
  size : Nat
  target : Nat
deriving DecidableEq, Repr

/-- NSECT, LENGTH and STAGE of a header (R419). -/
def imgSects (h : List (BitVec 8)) : Nat := numAt h 6 2
def imgLength (h : List (BitVec 8)) : Nat := numAt h 0x10 4
def imgStage (h : List (BitVec 8)) : Nat := numAt h 0x20 8

/-- Entry `k` of the section table (R421). -/
def imgSect (h : List (BitVec 8)) (k : Nat) : Sect :=
  let o := 0x40 + 32 * k
  { type := numAt h o 1, flags := numAt h (o + 1) 1, arg := numAt h (o + 2) 2, off := numAt h (o + 4) 4,
    size := numAt h (o + 8) 4, target := numAt h (o + 0x10) 8 }

/-- The sections, in table order. -/
def imgTable (h : List (BitVec 8)) : List Sect := (List.range (min 256 (imgSects h))).map (imgSect h)

/-- Whether a section is EARLY. -/
def Sect.early (x : Sect) : Bool := x.flags % 2 == 1

/-- The channels that CHMASK names. -/
def imgChannels (h : List (BitVec 8)) : List Nat := (List.range 4).filter (fun c => (numAt h 0x1C 1).testBit c)

/-- Whether a reserved field or bit of the header or the section table is nonzero (R419, R421, R422). -/
def imgReserved (h : List (BitVec 8)) : Bool :=
  !zerosAt h 0x1D 3 || !zerosAt h 0x3C 4 || (List.range 8).any (fun j => numAt h (0x30 + j) 1 / 64 % 2 == 1) || decide (4 ≤ numAt h 0x18 1) || decide (16 ≤ numAt h 0x1A 1) ||
  decide (2 ≤ numAt h 0x1B 1) || decide (16 ≤ numAt h 0x1C 1) ||
  !zerosAt h (0x40 + 32 * imgSects h) (0x2000 - 32 * imgSects h) ||
  (List.range (min 256 (imgSects h))).any (fun k =>
    let o := 0x40 + 32 * k
    !zerosAt h (o + 0xC) 4 || !zerosAt h (o + 0x15) 3 || !zerosAt h (o + 0x18) 8 ||
    (numAt h o 1 == 3 && fld (BitVec.ofNat 16 (numAt h (o + 2) 2)) 7 1 + fld (BitVec.ofNat 16 (numAt h (o + 2) 2)) 14 2 != 0))

/-- Whether SIZE fits the type's unit; a HALF section is one region section (R166, R421). -/
def Sect.sized (x : Sect) : Bool :=
  match x.type with
  | 1 => x.size % 8 == 0
  | 2 => x.size % 32 == 0
  | 3 => x.size == 65536
  | 4 => x.size % 32 == 0
  | _ => x.size % 12 == 0

/-- Whether TARGET lies where the type allows (R421); DRAM beyond the reported capacity is found at step 8. -/
def State.sectTargets (s : State) (late : Bool) (x : Sect) : Bool :=
  let e := x.target + x.size
  match x.type with
  | 1 => x.target == 0
  | 2 => if x.target < 2 ^ 38 then !late || s.dramWithin x.target x.size
    else (decide (0x4000000000 ≤ x.target) && decide (e ≤ 0x4004000000)) ||
      (decide (0x4100000000 ≤ x.target) && decide (e ≤ 0x4100400000))
  | 4 => decide (0x4100400000 ≤ x.target) && decide (e ≤ 0x4100470000)
  | _ => true

/-- Whether a section breaks a rule of 0x090B that header and table show (R421, R422). -/
def State.sectBad (s : State) (h : List (BitVec 8)) (late : Bool) (x : Sect) : Bool :=
  x.type == 0 || decide (5 < x.type) || decide (1 < x.flags) || !x.sized || decide (x.off < 0x4000) || x.off % 32 != 0 ||
  (x.early && x.type != 1) || !s.sectTargets late x ||
  (x.type == 2 && decide (x.target < imgStage h + imgLength h) && decide (imgStage h < x.target + x.size))

/-- Whether two HALF sections name one region and half. -/
def halvesTwice (l : List Sect) : Bool :=
  let a := (l.filter (fun x => x.type == 3)).map (fun x => x.arg % 128)
  a.any (fun k => decide (1 < (a.filter (· == k)).length))

/-- The checks of steps 3 and 8, the code of every row that applies (R422); `h` is the first 0x4000 bytes. -/
def State.imageCodes (s : State) (h : List (BitVec 8)) (late : Bool) : List Nat :=
  let t := imgTable h
  let len := imgLength h
  codeIf (slice h 0 4 != [0x4B#8, 0x57#8, 0x43#8, 0x4E#8]) 0x0901 ++
  codeIf (numAt h 4 2 != 1 || imgSects h == 0 || decide (256 < imgSects h) || imgReserved h ||
    numAt h 0x28 8 % 0x20000000 != 0 || imgStage h % 0x10000000 != 0) 0x0902 ++
  codeIf (decide (len < 0x4000) || decide (0x10000000 < len) || len % 32 != 0 || t.any (fun x => decide (len < x.off + x.size))) 0x0904 ++
  codeIf (numAt h 8 4 != 0x7A108840) 0x0905 ++ codeIf (numAt h 0xC 4 % 2 == 0) 0x0906 ++
  codeIf (!(numAt h 0x18 1).testBit (if s.signals.role then 0 else 1)) 0x0907 ++
  codeIf (s.otp.keySlot (slice h 0x3260 2592)).isNone 0x0909 ++ codeIf (decide (numAt h 0x19 1 < s.otp.svnf)) 0x090A ++
  codeIf (t.any (s.sectBad h late) || halvesTwice t || decide (65536 < ((t.filter Sect.early).map (·.size)).sum)) 0x090B ++
  codeIf (late && !s.dramWithin (imgStage h) len) 0x090D

/-! Register writes of an image. -/

/-- The pairs of a REGS section (R421). -/
def regPairs (l : List (BitVec 8)) : List (Nat × Nat) :=
  (List.range (l.length / 8)).map (fun k => (numAt l (8 * k) 4, numAt l (8 * k + 4) 4))

/-- Writes the pairs in order; whether each was accepted. -/
def State.applyPairs (s : State) : List (Nat × Nat) → State × Bool
  | [] => (s, true)
  | (o, v) :: r =>
    let (s, st) := s.regWrite .loader o 4 v false
    if st ≠ 0 then (s, false) else s.applyPairs r

/-- Whether an EARLY write is allowed: a register of a DRAM channel block, neither DDR_CTRL.EN nor DDR_TRAIN
(R421). -/
def earlyOk (p : Nat × Nat) : Bool :=
  decide (0x600000 ≤ p.1) && decide (p.1 < 0x640000) && !(p.1 % 0x10000 == 0 && p.2 % 2 == 1) && p.1 % 0x10000 != 0x20

/-- The EARLY writes of an image, read from its slot (R416 step 4). -/
def State.earlyPairs (s : State) (slotB : Bool) (h : List (BitVec 8)) : List (Nat × Nat) :=
  ((imgTable h).filter Sect.early).flatMap (fun x => regPairs (s.flashBytes slotB x.off x.size))

/-! Outcomes of steps. -/

/-- Goes on with `f` unless a step has failed. -/
def bootThen (x : State × Option Nat) (f : State → State × Option Nat) : State × Option Nat :=
  match x.2 with
  | some _ => x
  | none => f x.1

/-- Fails with the lowest of the codes that apply. -/
def bootCheck (s : State) (codes : List Nat) : State × Option Nat := (s, lowestCode codes)

/-- BOOT_STATUS.STATE. -/
def State.bootState (s : State) (k : Nat) : State := s.setRf bootBase 0 4 k

/-- The training-wheels registers that the operations of training use, by what each holds (R349, R350, R357). -/
def trainedRegs : List (Nat × Word32) :=
  [(0x4000, 0xFFFF007E#32), (0x4004, 0x7FFFFFFF#32), (0x4008, 0x1FFFFFFF#32), (0x4200, 0xFFFFFFFF#32), (0x4204, 0xFF#32),
   (0x4400, 0x7F#32)] ++
  (List.range 32).map (fun k => (0x4100 + 4 * k, if k % 2 = 0 then 0xFFFFFFFF#32 else 0xFF#32)) ++
  (List.range 40).map (fun l => (0x4300 + 4 * l, 0xFFFF#32))

/-- Step 4 for channel `c` (R313, R350, R351): trained and self-tested, or failed. Training leaves its delays, its
operations what they put into the training-wheels registers, their MRR results, DONE and event (R349): free values,
since R350 names the steps and their aim only. -/
def State.trainChannel (s : State) (t : BootTry) (c : Nat) : State :=
  let fails := t.checks.filter (fun e => e.1.val == c)
  let s := fails.foldl (fun s e =>
    (s.setRb (dramBase c + 0x8020) 0 true).lbAppend 0x0004 [(64 + c, 4), (e.2, 4)]) s
  let bad := s.rb (dramBase c + 0x8020) 0 || t.untrained.any (fun k => k.val == c)
  let n := s.fresh
  let s := (List.range 4).foldl (fun s e => (List.range 92).foldl (fun s k =>
    s.setRf (dramBase c + 0x4800 + 0x200 * e + 4 * k) 0 10 (Config.laneDelay c (e / 2) (e % 2) k n).toNat) s) s
  let s := (List.range 40).foldl (fun s k =>
    s.setRf (dramBase c + 0x4800 + 0x200 * (k / 10) + 4 * (92 + k % 10)) 0 8 (Config.trainedReg c (0x4010 + k) n).toNat) s
  let s := trainedRegs.foldl (fun s e => s.setRg (dramBase c + e.1) (Config.trainedReg c e.1 n &&& e.2)) s
  let s := (({ s with fresh := n + 1 } : State).setRb (dramBase c + 0x400C) 30 true).setRb (dramBase c + 0x24) 4 true
  (s.ddrTrainWrite .loader c (if bad then 2#32 else 1#32)).1

/-- Whether a channel that slot A trained and enabled stays in service under slot B (R423). -/
def State.staysOn (s : State) (was now : List (Nat × Nat)) (h : List (BitVec 8)) (c : Nat) : Bool :=
  let mine := fun l : List (Nat × Nat) => l.filter (fun p => p.1 / 0x10000 == 0x60 + c)
  (imgChannels h).contains c && s.rb (dramBase c + 0x20) 0 && s.rb (dramBase c) 0 && (s.dram c).st != .failed &&
  mine was == mine now

/-- Steps 4 and 5 (R350 to R352, R416, R423). -/
def State.bootDram (s : State) (slotB : Bool) (h : List (BitVec 8)) (t : BootTry) : State × Option Nat :=
  let mine := s.earlyPairs slotB h
  let keep := fun c : Nat => slotB && s.staysOn (s.earlyPairs false (s.flashBytes false 0 0x4000)) mine h c
  let fresh := (List.range 4).filter (fun c => !keep c)
  let s := (s.bootState 2)
  let s := if slotB then fresh.foldl (fun s c => (s.ddrTrainWrite .loader c 4#32).1) s else s
  bootThen (bootCheck s (codeIf (!mine.all earlyOk) 0x090B)) (fun s =>
    let (s, ok) := s.applyPairs mine
    bootThen (bootCheck s (codeIf (!ok) 0x090B)) (fun s =>
      let todo := fresh.filter (imgChannels h).contains
      let s := todo.foldl (fun s c => s.trainChannel t c) s
      bootThen (bootCheck s (codeIf (todo.any (fun c => (s.dram c).st == .failed)) 0x090D)) (fun s =>
        let s := todo.foldl (fun s c => s.ddrCtrlWrite c (setBit (s.rg (dramBase c)) 0 true)) s
        bootCheck s (codeIf ((imgChannels h).any (fun c => !s.rb (dramBase c) 0) ||
          (s.rb (dramBase 0 + 0xC) 0 && decide ((imgChannels h).length < 4)) ||
          !s.dramWithin (imgStage h) (imgLength h)) 0x090D))))

/-- Whether the flash has stopped answering by step `n` of an attempt (R418). -/
def flashDead (t : BootTry) (n : Nat) : Bool :=
  match t.flash with
  | some k => decide (k.val ≤ n)
  | none => false

/-- Steps 6 and 7 (R416, R420): the image staged, its digest taken and kept in IMG_DIGEST, the signature
verified. -/
def State.bootStage (s : State) (slotB : Bool) (h : List (BitVec 8)) (t : BootTry) : State × Option Nat :=
  let len := imgLength h
  let s := s.bootState 3
  if flashDead t 6 then (s, some 0x0903)
  else
    let s := (s.bytesPut .loader (imgStage h) ((s.flashBytes slotB 0 len).map some) false).1
    let s := s.bootState 4
    let (s, x) := s.bytesGet .loader (imgStage h) len
    if x.status ≠ 0 ∨ x.bytes.any (·.2) ∨ t.stageBad then (s, some 0x090E)
    else
      let b := x.bytes.map (·.1)
      let d := sha3Of512 (b.take 0x2040 ++ b.drop 0x4000)
      let s := (List.range 16).foldl (fun s k => s.setRg (bootBase + 0x100 + 4 * k) (BitVec.ofNat 32 (numAt d (4 * k) 4))) s
      bootCheck s (codeIf (!dsaValid d (slice b 0x2040 4627) (slice b 0x3260 2592)) 0x0908)

/-! Step 8. -/

/-- The default route class of a source (R502): 0 for N, 1 for L, 2 for M, 3 for H. -/
def routeClass (n : Nat) : Nat :=
  let at_ := fun (l : List Nat) (k : Nat) => l.getD k 0
  if n < 512 then if n % 8 = 7 then 2 else 0
  else if n < 1024 then 0
  else if n < 1280 then at_ [1, 1, 1, 1, 2, 1, 1, 1, 2] ((n - 1024) % 64)
  else if n < 1344 then at_ [1, 1, 1, 1, 1, 1, 1, 2, 2, 2, 2] (n - 1280)
  else if n < 1408 then at_ [1, 2, 1, 1, 3, 1, 2, 1, 1] ((n - 1344) % 16)
  else if n < 1440 then 0
  else if n < 1472 then at_ [2, 1, 1, 2, 1, 2, 1, 1, 1] (n - 1440)
  else if n < 1536 then if n = 1480 ∨ n = 1481 then 1 else 0
  else if n < 1632 then at_ [2, 1, 2, 2, 2, 2, 1, 1, 1, 1, 1] ((n - 1536) % 24)
  else if n < 1728 then at_ [0, 1, 2, 2, 0, 2] ((n - 1632) % 6)
  else if n < 1792 then at_ [2, 2, 2, 1, 1] (n - 1728)
  else if n < 1856 then at_ [0, 2, 3, 1] ((n - 1792) % 4)
  else if n < 1864 then at_ [1, 1, 1, 1, 1, 2, 1, 0] (n - 1856)
  else if n < 1874 then at_ [1, 3, 3, 2, 3, 2, 2, 2, 1, 1] (n - 1864)
  else if n = 1875 then 1
  else if n < 1920 then 0
  else if n < 1984 then at_ [1, 2, 1, 3] (n - 1920)
  else at_ [2, 2, 1, 2, 2, 3, 1, 2, 2, 1, 1, 1] (n - 1984)

/-- EV_RTL of a class (R501). -/
def classRoute (k : Nat) : Word32 := [0#32, 0x80010000#32, 0x88010000#32, 0x8F010000#32].getD k 0

/-- The default routes (R501). -/
def State.defaultRoutes (s : State) : State :=
  (List.range 2048).foldl (fun s n =>
    let k := routeClass n
    (s.setRg (routeReg n) (classRoute k)).setRg (routeReg n + 4) (if k = 0 then 0 else 0x80000#32)) s

/-- The storage words of a list of bytes. -/
def bytesLines (l : List (BitVec 8)) : List Line :=
  (List.range (l.length / 32)).map (fun k => BitVec.ofNat 256 (numAt l (32 * k) 32))

/-- A HALF section (R421): half A becomes the active one with the fields that a section gives the region, half
B fills the inactive one. -/
def State.applyHalf (s : State) (x : Sect) (l : List (BitVec 8)) : State :=
  let r := x.arg % 64
  let n := x.arg / 2 ^ 8 % 64
  let y := sectionHalf (bytesLines l).toArray
  if x.arg / 64 % 2 = 1 then (s.onRegion r (fun g => g.setInactive y)).onDrl r (fun d => { d with recInact := n })
  else
    let s := s.onRegion r (fun g => if g.h then { g with b := y } else { g with a := y })
    let s := s.onDrl r (fun d => { d with recAct := n })
    let b := regionBase r
    let s := s.setRf b 8 8 y.startPc.toNat
    let s := s.setRf (b + 0x10) 0 8 y.evtEn.toNat
    (s.setRf (b + 0x20) 0 16 y.taskMask.toNat).parkedAll r

/-- One section of step 8 from the staged copy (R421): whether it was accepted. -/
def State.applySect (s : State) (h : List (BitVec 8)) (x : Sect) : State × Bool :=
  if x.early ∨ x.type = 4 ∨ x.type = 5 then (s, true)
  else
    let (s, d) := s.bytesGet .loader (imgStage h + x.off) x.size
    let l := d.bytes.map (·.1)
    match x.type with
    | 1 => s.applyPairs (regPairs l)
    | 2 =>
      let (s, st, _) := s.bytesPut .loader x.target (l.map some) false
      (s, st == 0)
    | _ => (s.applyHalf x l, true)

/-- The sections of step 8, in table order. -/
def State.applySects (s : State) (h : List (BitVec 8)) : List Sect → State × Bool
  | [] => (s, true)
  | x :: r =>
    let (s, ok) := s.applySect h x
    if ok then s.applySects h r else (s, false)

/-- The check of every half B that was written (R178, R421). -/
def State.checkHalves (s : State) (t : List Sect) : State :=
  (t.filter (fun x => x.type == 3 && x.arg / 64 % 2 == 1)).foldl (fun s x =>
    let r := x.arg % 64
    (s.onDrl r (fun d => { d with st := .busy, job := .postShift })).postShift r) s

/-- RCP_BASE, SPARE0 and SPARE1 from the header (R200, R421). -/
def State.bootLibrary (s : State) (h : List (BitVec 8)) : State :=
  let s := s.setRg (bootBase + 0x1000) (BitVec.ofNat 32 (numAt h 0x28 4))
  let s := s.setRg (bootBase + 0x1004) (BitVec.ofNat 32 (numAt h 0x2C 1))
  let s := s.setRg (bootBase + 0x1008) (BitVec.ofNat 32 (numAt h 0x30 4) &&& 0xBFBFBFBF#32)
  s.setRg (bootBase + 0x100C) (BitVec.ofNat 32 (numAt h 0x34 4) &&& 0xBFBFBFBF#32)

/-- Step 8 (R416, R421, R422, R501): the check over the staged copy, then the sections. -/
def State.bootApply (s : State) (h : List (BitVec 8)) : State × Option Nat :=
  let s := s.bootState 5
  let (s, x) := s.bytesGet .loader (imgStage h) 0x4000
  let g := x.bytes.map (·.1)
  bootThen (bootCheck s (s.imageCodes g true)) (fun s =>
    let (s, ok) := (s.defaultRoutes.bootLibrary g).applySects g (imgTable g)
    if ok then (s.checkHalves (imgTable g), none) else (s, some 0x090B))

/-! Attempts. -/

/-- Steps 3 to 8 on one slot (R416). -/
def State.bootSlot (s : State) (slotB : Bool) (t : BootTry) : State × Option Nat :=
  let s := (((s.setRf bootBase 4 1 (b2n slotB)).setRb bootBase (8 + b2n slotB) true)).bootState 1
  let h := s.flashBytes slotB 0 0x4000
  bootThen (bootCheck s (codeIf (flashDead t 3) 0x0903)) (fun s =>
    bootThen (bootCheck s (s.imageCodes h false)) (fun s =>
      bootThen (bootCheck s (codeIf (flashDead t 4) 0x0903)) (fun s =>
        bootThen (s.bootDram slotB h t) (fun s =>
          bootThen (s.bootStage slotB h t) (fun s =>
            bootThen (s.bootApply h) (fun s =>
              (({ s with boot := some { slotB := slotB, head := h } } : State).bootState 5, none)))))))

/-- The failure path (R410, R424). -/
def State.bootFails (s : State) (code : Nat) : State :=
  let s := s.setRg (bootBase + 8) (BitVec.ofNat 32 code)
  let s := { s with boot := none, signals := { s.signals with loadFail := true } }
  let s := ((s.bootState 8).setRb bootBase 31 true).setRb pciBase 31 true
  s.lbAppend 0x0002 [(s.rf (bootBase + 4) 0 16, 2), (code, 2)]

/-- The attempt on slot B after slot A has failed with `code` (R423). -/
def State.trySlotB (s : State) (code : Nat) (t : BootTry) : State :=
  let s := (s.setRg (bootBase + 4) (BitVec.ofNat 32 code)).slotReset
  match s.bootSlot true t with
  | (s, some c) => s.bootFails c
  | (s, none) => s

/-- A failed checker instance (R313). -/
def State.checkFails (s : State) (k : Checker) (pattern : Nat) : State :=
  match k with
  | .cell r => (s.setRb (planeBase (planeOf r) + 0xD020) (planeIdx r) true).lbAppend 0x0004 [(r, 4), (pattern, 4)]
  | .channel c => (s.setRb (dramBase c + 0x8020) 0 true).lbAppend 0x0004 [(64 + c.val, 4), (pattern, 4)]
  | .other n => s.lbAppend 0x0004 [(n, 4), (pattern, 4)]

/-- Whether a failed instance stops the boot (R313). -/
def checkerStops : Checker → Bool
  | .other _ => true
  | _ => false

/-- The boot of power-on reset (R416): steps 1 to 8 on slot A, else on slot B. -/
def State.bootRun (s : State) (role : Bool) (op : BootOp) : State :=
  let s := s.powered
  let s := { s with signals := { s.signals with porN := true, role := role } }
  let s := (s.setRb bootBase 12 role).logbookOpen
  let s := op.checks.foldl (fun s e => s.checkFails e.1 e.2) s
  match lowestCode (codeIf (op.checks.any (fun e => checkerStops e.1)) 0x0910 ++ codeIf (!s.otp.prov || s.otp.keyv == 0#4) 0x0911) with
  | some c => s.bootFails c
  | none => match s.bootSlot false op.a with
    | (s, some c) => s.trySlotB c op.b
    | (s, none) => s

/-! ENABLE entries and the end of the boot. -/

/-- The ENABLE entries of an image, in table order, from the staged copy (R429). -/
def State.enableEntries (s : State) (h : List (BitVec 8)) : State × List (Nat × Nat × Nat) :=
  ((imgTable h).filter (fun x => x.type == 5)).foldl (fun acc x =>
    let (s, d) := acc.1.bytesGet .loader (imgStage h + x.off) x.size
    let l := d.bytes.map (·.1)
    (s, acc.2 ++ (List.range (x.size / 12)).map (fun k =>
      (numAt l (12 * k) 4, numAt l (12 * k + 4) 4, numAt l (12 * k + 8) 4)))) (s, [])

/-- One entry (R429): the code for BOOT_EREASON where it is refused. -/
def State.enableEntry (s : State) (e : Nat × Nat × Nat) : State × Option Nat :=
  let (s, st) := s.regWrite .loader e.1 4 e.2.1 false
  if st ≠ 0 then (s, some st)
  else
    let (s, st, v) := s.regRead .loader e.2.2 4
    if st ≠ 0 then (s, some st) else (s, if v % 65536 = 0 then none else some (v % 65536))

/-- The plane whose march an entry starts (R429). -/
def entryMarch (e : Nat × Nat × Nat) : Option Nat :=
  if 0x400000 ≤ e.1 ∧ e.1 < 0x440000 ∧ e.1 % 0x10000 = 0xE000 ∧ e.2.1 % 2 = 1 then some ((e.1 - 0x400000) / 0x10000) else none

/-- How the entries end: at the entry that waits for a march, refused, or all applied. -/
inductive EnableEnd where
  | waits (k : Nat) (planes : List Nat)
  | refused (code : Nat)
  | done
deriving DecidableEq, Repr

/-- Applies entries from number `k` on, `ps` the planes whose tests were started (R429). -/
def State.enableAll (s : State) (k : Nat) (ps : List Nat) : List (Nat × Nat × Nat) → State × EnableEnd
  | [] => (s, .done)
  | e :: r =>
    let outside := !(decide (0x400000 ≤ e.1) && decide (e.1 < 0x440000))
    if outside && ps.any (fun p => s.rb (mtStat p) 31) then (s, .waits k ps)
    else
      match s.enableEntry e with
      | (s, some c) => (s, .refused c)
      | (s, none) => s.enableAll (k + 1) (if outside then [] else ps ++ (entryMarch e).toList) r

/-- Step 11's fuses (R426): what the image commits and revokes. -/
def State.commitFuses (s : State) (h : List (BitVec 8)) (slot : Nat) : State :=
  let svn := numAt h 0x19 1
  let old := s.otp
  let n := if numAt h 0x1B 1 % 2 = 1 ∧ old.svnf < svn then min 64 svn else old.svnf
  let rev := setBit (BitVec.ofNat 4 (numAt h 0x1A 1)) slot false
  let x := { old with svnf := n, keyrev := old.keyrev ||| rev }
  if x = old then s
  else (({ s with otp := x } : State).lbAppend 0x0003 [(old.svnf, 1), (n, 1), (x.keyrev.toNat, 1)]).bootEvent 2

/-- The puppeteer firmware copied from the staged image (R421). -/
def State.copyFirmware (s : State) (h : List (BitVec 8)) : State :=
  ((imgTable h).filter (fun x => x.type == 4)).foldl (fun s x =>
    let (s, d) := s.bytesGet .loader (imgStage h + x.off) x.size
    (s.bytesPut .loader x.target ((d.bytes.map (·.1)).map some) false).1) s

/-- Step 11 (R415, R416, R426, R436, R438): fuses, logbook, firmware, the registers of the image loaded, RUNNING. -/
def State.bootEnds (s : State) (b : BootRun) : State :=
  let h := b.head
  let slot := (s.otp.keySlot (slice h 0x3260 2592)).getD 0
  let s := s.commitFuses h slot
  let s := s.lbAppend 0x0001 [(b2n b.slotB, 1), (slot, 1), (numAt h 0x19 1, 1), (s.otp.svnf, 1), (imgLength h, 4)]
  let s := s.copyFirmware h
  let s := s.setRg (bootBase + 0x20) (BitVec.ofNat 32 (imgLength h))
  let s := s.setRg (bootBase + 0x24) (BitVec.ofNat 32 (numAt h 0x14 4))
  let s := s.setRg (bootBase + 0x28) (BitVec.ofNat 32 (slot * 2 ^ 16 + numAt h 0x19 1 % 128 * 2 ^ 8 + numAt h 0x18 1))
  let s := s.setRg64 (bootBase + 0x18) s.now
  let s := ({ s with boot := none, host := { s.host with subsys := Config.subsystemIds h } } : State).bootState 7
  let s := s.setRb (tdmBase + 8) 28 s.signals.role
  let pc := BitVec.ofNat 32 (numAt h 0x38 4)
  let s := { s with cores := mupd {} s.cores 16 (fun c => { c with st := .run, pc := pc, xtzcfg := Config.puppeteerCfg s.fresh &&& 0xFFFFE001#32 }) }
  let s := ({ s with fresh := s.fresh + 1 } : State).bootEvent 0
  if b.slotB then s.bootEvent 1 else s

/-- Steps 9 to 11 (R416, R429): nothing before every channel in CHMASK is filled; an entry that waits for a march
is met again by the next ENABLE_SECTIONS; a refusal on slot A leads to slot B. -/
def State.enableSections (s : State) (t : BootTry) : State :=
  match s.boot with
  | none => s
  | some b =>
    if !(imgChannels b.head).all (fun c => (s.dram c).filled) then s
    else
      let s := s.bootState 6
      let (s, l) := s.enableEntries b.head
      match s.enableAll b.entry b.planes (l.drop b.entry) with
      | (s, .waits k ps) => { s with boot := some { b with entry := k, planes := ps } }
      | (s, .done) => s.bootEnds b
      | (s, .refused c) =>
        let s := ({ s with boot := none } : State).setRg (bootBase + 0xC) (BitVec.ofNat 32 c)
        if b.slotB then s.bootFails 0x090C else s.trySlotB 0x090C t

/-- OTPWR (R427): fuses are blown, never restored. -/
def Otp.write (x : Otp) (w : OtpWrite) : Otp :=
  if x.lock then x
  else match w with
    | .hash k v => { x with hash := mset 0 x.hash k (mget 0 x.hash k ||| v) }
    | .keyv v => { x with keyv := x.keyv ||| v }
    | .keyrev v => { x with keyrev := x.keyrev ||| v }
    | .lock => { x with lock := true }

/-! The commands. -/

/-- POR_N_RISE (R416). -/
def execPorNRise (role : Bool) (op : BootOp) (s : State) : Host.Outcome State Fault Refusal :=
  finish s (if s.signals.porN then s else s.bootRun role op)
/-- ENABLE_SECTIONS (R429). -/
def execEnableSections (b : BootTry) (s : State) : Host.Outcome State Fault Refusal := finish s (s.enableSections b)
/-- OTPWR (R427). -/
def execOtpwr (w : OtpWrite) (s : State) : Host.Outcome State Fault Refusal := finish s { s with otp := s.otp.write w }
/-- POR_N_FALL (R483). -/
def execPorNFall (s : State) : Host.Outcome State Fault Refusal := finish s s.powered

end Sys2Proof.Machine
end

