-- ==== Sys2Proof/Machine/CoreTrap.lean ====
section
/-! DEFINITION. The cores: register banks, trap entry and return, running out of banks, and the accesses of
loads and stores (R249 to R260). -/

namespace Sys2Proof.Machine

/-- Register `i` of bank `k` of core `n` (R252). -/
def State.xr (s : State) (n k i : Nat) : Word32 := if i = 0 then 0 else mget 0 (s.core n).x (32 * k + i)
/-- Writes it; x0 takes no write. -/
def State.setXr (s : State) (n k i : Nat) (v : Word32) : State :=
  if i = 0 then s else s.onCore n (fun c => { c with x := mset 0 c.x (32 * k + i) v })
/-- Changes the banked CSRs of bank `k`. -/
def State.onBank (s : State) (n k : Nat) (f : Bank → Bank) : State :=
  s.onCore n (fun c => { c with banks := mupd {} c.banks k f })
/-- Register `i` of the current bank. -/
def State.reg (s : State) (n i : Nat) : Word32 := s.xr n (s.curBank n) i
/-- Writes a register of the current bank. -/
def State.setReg (s : State) (n i : Nat) (v : Word32) : State := s.setXr n (s.curBank n) i v
/-- Whether core `n` executes instructions. -/
def State.coreGo (s : State) (n : Nat) : Bool := (s.core n).st == .run && !(s.core n).leaving
/-- The next instruction. -/
def State.advance (s : State) (n k : Nat) : State := s.onCore n (fun c => { c with pc := c.pc + BitVec.ofNat 32 k })

/-! Traps. -/

/-- Where mtvec sends a cause, vectored for interrupts where its mode says so. -/
def State.handlerPc (s : State) (n : Nat) (cause : Word32) : Word32 :=
  let t := (s.core n).mtvec
  let base := t &&& ~~~ 3#32
  if fld t 0 2 = 1 ∧ bit cause 31 then base + BitVec.ofNat 32 (4 * fld cause 0 31) else base

/-- A trap entry that is taken (R254), from privilege `user`, at level `level` where it is an interrupt. -/
def State.takeEntry (s : State) (n : Nat) (cause tval epc : Word32) (level : Nat) (interrupt user : Bool) : State :=
  let c := s.core n
  let old := s.coreLevel n
  let a := s.xr n (s.bankOf n c.depth) 2
  let k := s.bankOf n (c.depth + 1)
  let lvl := if interrupt then level else old
  let area := if n = 16 then 0 else a - 132#32
  let st := lvl * 2 ^ 8 + old * 2 ^ 16 + (if user then 0 else 3) * 2 ^ 25 + b2n c.mie * 2 ^ 27 + c.fs.toNat * 2 ^ 28 +
    b2n (c.fs != 0) * 2 ^ 31
  let s := s.onBank n k (fun b => { b with
    mepc := epc, mcause := cause, mtval := tval, bstat := BitVec.ofNat 32 st, fpsa := area })
  let s := s.setXr n k 2 ((a - 132#32) &&& 0xFFFFFFF0#32)
  let pc := s.handlerPc n cause
  s.onCore n (fun c => { c with depth := c.depth + 1, mie := false, user := false, pc := pc })

/-- The core stops FATAL, and the device enters the fatal path; after a fault of the puppeteer, FATAL_N falls
with no dump (R257, R259, R269). -/
def State.coreFatal (s : State) (n code : Nat) : State :=
  let pc := (s.core n).pc
  let s := if n < 16 then
      ((s.setRf (ccReg n + 0x10) 24 5 code).setRg (ccReg n + 0x14) pc).raise (1792 + 4 * n + 2)
    else { s with signals := { s.signals with fatal := true } }
  (s.onCore n (fun c => { c with st := .fatal })).enterFatal (if code = 30 then 1 else 2) (n + code * 2 ^ 8) pc.toNat

/-- The spill or fill trap: into bank 7, with its frame (R258). -/
def State.bankTrap (s : State) (n cause window frame : Nat) (h : Held) : State :=
  let l := s.coreLevel n
  let s := s.onBank n 7 (fun b => { b with
    mcause := BitVec.ofNat 32 cause, mtval := BitVec.ofNat 32 frame, bstat := setFld b.bstat 8 5 l })
  let pc := s.handlerPc n (BitVec.ofNat 32 cause)
  s.onCore n (fun c => { c with held := some h, bankwin := window, user := false, pc := pc })

/-- Whether an entry from the current depth is refused (R254). -/
def State.entryRefused (s : State) (n : Nat) : Bool := (s.core n).depth + 1 == if s.spillMode n then 31 else 8

/-- A trap entry (R254, R257, R258). -/
def State.trap (s : State) (n : Nat) (cause tval epc : Word32) (level : Nat) (interrupt : Bool) : State :=
  let c := s.core n
  let d := c.depth + 1
  if s.entryRefused n then s.coreFatal n 30
  else
    let s := s.raiseIf (n < 16 && (cause == 24#32 || cause == 25#32)) (1792 + 4 * n + 1)
    if s.spillMode n && decide (7 ≤ d) && decide (c.lowres + 6 ≤ d) then
      s.bankTrap n 26 (s.bankOf n d) (s.frameBase n + 0xA0 * (d - 7)) (.entry cause tval epc level interrupt c.user)
    else s.takeEntry n cause tval epc level interrupt c.user

/-- A synchronous exception of the instruction at the pc; in bank 7 a double fault (R253, R259). -/
def State.excp (s : State) (n cause : Nat) (tval : Word32) : State :=
  if (s.core n).held.isSome then s.coreFatal n 31
  else s.trap n (BitVec.ofNat 32 cause) tval (s.core n).pc 0 false

/-- An illegal-instruction exception. -/
def State.illegal (s : State) (n : Nat) : State :=
  let v := Config.illegalTval s.fresh
  ({ s with fresh := s.fresh + 1 } : State).excp n 2 v

/-- The interrupt that core `n` may take, level and source (R253). -/
def State.irq (s : State) (n : Nat) : Option (Nat × Nat) :=
  let c := s.core n
  let lvl := s.coreLevel n
  if !c.mie || c.held.isSome then none
  else c.pend.foldl (fun best e => match e.2 with
    | none => best
    | some l =>
      if lvl = 31 ∨ lvl < l then
        match best with
        | none => some (l, e.1)
        | some b => if b.1 < l then some (l, e.1) else best
      else best) none

/-! Accesses (R249 to R251). -/

/-- A storage word with `size` bytes of `v` at byte `k`, and their mask. -/
def placeBytes (k size v : Nat) : BitVec 32 × Line :=
  (BitVec.ofNat 32 ((2 ^ size - 1) * 2 ^ k), BitVec.ofNat 256 (v % 2 ^ (8 * size) * 2 ^ (8 * k)))

/-- A register access of a core by its offset, or a storage word: what a window or register address reaches. -/
def State.busRead (s : State) (n a size : Nat) : State × Except Bool Nat :=
  if inRegisters a then
    let (s, st, v) := s.regRead (coreMaster n) (a - 0x4200000000) size
    (s, if st = 0 then .ok v else .error false)
  else
    let (s, x) := s.wordGet (coreMaster n) (a / 32 * 32)
    (s, if x.status ≠ 0 then .error false
      else if bytesPoisoned x.x.data (a % 32) size then .error true
      else .ok (fld x.x.data (8 * (a % 32)) (8 * size)))

/-- A read of `size` aligned bytes at core address `a`: the value, or an error that is poison (true) or an
access fault. -/
def State.coreRead (s : State) (n a size : Nat) : State × Except Bool Nat :=
  match s.coreTarget n a with
  | .local_ x =>
    let (s, r) := s.localGet n (x / 32 * 32)
    (s, if r.x.ue || bytesPoisoned r.x.data (x % 32) size then .error true
      else .ok (fld r.x.data (8 * (x % 32)) (8 * size)))
  | .window w => s.busRead n w size
  | .reg o => s.busRead n (0x4200000000 + o) size
  | .engine o => match (if size = 4 then s.engRead o else none) with
    | some v => (s, .ok v.toNat)
    | none => (s, .error false)
  | .none_ => (s, .error false)

/-- A posted write: an error response is kept for its STORE_ERROR (R251). -/
def State.busWrite (s : State) (n core a size v : Nat) : State :=
  let (s, st) :=
    if inRegisters a then s.regWrite (coreMaster n) (a - 0x4200000000) size v false
    else
      let p := placeBytes (a % 32) size v
      s.wordPut (coreMaster n) (a / 32 * 32) 0 p.1 p.2
  if st = 0 then s else s.onCore n (fun c => { c with stores := c.stores ++ [BitVec.ofNat 32 core] })

/-- A write of `size` aligned bytes at core address `a`; false is an access fault. -/
def State.coreWrite (s : State) (n a size v : Nat) : State × Bool :=
  match s.coreTarget n a with
  | .local_ x =>
    let p := placeBytes (x % 32) size v
    (s.localPut (x / 32 * 32) 0 p.1 p.2, true)
  | .window w => (s.busWrite n a w size v, true)
  | .reg o => (s.busWrite n a (0x4200000000 + o) size v, true)
  | .engine o => match (if size = 4 then s.engWrite o (BitVec.ofNat 32 v) else none) with
    | some t => (t, true)
    | none => (s, false)
  | .none_ => (s, false)

/-! Lazy floating-point save (R256). -/

/-- The words of the save area: f0 to f31, then fcsr. -/
def Core.fpWords (c : Core) : List Word32 := (List.range 32).map (fun i => mget 0 c.f i) ++ [c.fcsr]

/-- Stores words from core address `a` on, until one faults: its address. -/
def State.storeWords (s : State) (n : Nat) : Nat → List Word32 → State × Option Nat
  | _, [] => (s, none)
  | a, v :: l =>
    let a := a % 2 ^ 32
    if a % 4 ≠ 0 then (s, some a)
    else match s.coreWrite n a 4 v.toNat with
      | (s, true) => s.storeWords n (a + 4) l
      | (s, false) => (s, some a)

/-- Loads `k` words from core address `a` on; cause and address where one faults. -/
def State.loadWords (s : State) (n : Nat) : Nat → Nat → State × Except (Nat × Nat) (List Word32)
  | 0, _ => (s, .ok [])
  | k + 1, a =>
    let a := a % 2 ^ 32
    if a % 4 ≠ 0 then (s, .error (4, a))
    else match s.coreRead n a 4 with
      | (s, .error p) => (s, .error (if p then 24 else 5, a))
      | (s, .ok v) => match s.loadWords n k (a + 4) with
        | (s, .ok l) => (s, .ok (BitVec.ofNat 32 v :: l))
        | (s, .error e) => (s, .error e)

/-- The lazy save where FPL is 1: it sets FPS and clears FPL, or faults at an address. -/
def State.lazySave (s : State) (n : Nat) : State × Option Nat :=
  let k := s.curBank n
  let b := s.bank n k
  if !bit b.bstat 31 then (s, none)
  else match s.storeWords n b.fpsa.toNat (s.core n).fpWords with
    | (s, none) => (s.onBank n k (fun b => { b with bstat := setBit (setBit b.bstat 30 true) 31 false }), none)
    | (s, some a) => (s, some a)

/-! Return (R255, R258). -/

/-- Whether a return by PPRV of a bank goes to user mode, which the puppeteer does not have (R248, R255). -/
def returnsToUser (n : Nat) (b : Bank) : Bool := n < 16 && fld b.bstat 25 2 != 3

/-- The return from depth d to d − 1. -/
def State.returnTo (s : State) (n : Nat) : State :=
  let d := (s.core n).depth
  let b := s.bank n (s.bankOf n d)
  let s := s.onBank n (s.bankOf n (d - 1)) (fun x => { x with bstat := setFld x.bstat 8 5 (fld b.bstat 16 5) })
  s.onCore n (fun c => { c with
    depth := d - 1, pc := b.mepc, mie := bit b.bstat 27, fs := BitVec.ofNat 2 (fld b.bstat 28 2), user := returnsToUser n b })

/-- MRET at thread level: what the base specification gives, DEPTH as it is. -/
def State.returnThread (s : State) (n : Nat) : State :=
  let b := s.bank n 0
  let s := s.onCore n (fun c => { c with pc := b.mepc, mie := bit b.bstat 27, user := returnsToUser n b })
  s.onBank n 0 (fun b => { b with bstat := setFld (setBit b.bstat 27 true) 25 2 0 })

/-- The floating-point state saved at FPSA comes back, where FPS is 1. -/
def State.fpReload (s : State) (n : Nat) : State × Option (Nat × Nat) :=
  let b := s.bank n (s.curBank n)
  if !bit b.bstat 30 then (s, none)
  else match s.loadWords n 33 b.fpsa.toNat with
    | (s, .error e) => (s, some e)
    | (s, .ok l) =>
      (s.onCore n (fun c => { c with
        f := (List.range 32).foldl (fun m i => mset 0 m i (l.getD i 0)) c.f, fcsr := l.getD 32 0 }), none)

/-- MRET (R255, R258). -/
def State.mretGo (s : State) (n : Nat) : State :=
  let c := s.core n
  if !s.coreGo n then s
  else if c.user then s.illegal n
  else match c.held with
    | some (.entry cause tval epc level i user) =>
      (s.onCore n (fun c => { c with held := none, lowres := c.lowres + 1 })).takeEntry n cause tval epc level i user
    | some .ret => (s.onCore n (fun c => { c with held := none, lowres := c.lowres - 1 })).returnTo n
    | none =>
      if c.depth = 0 then s.returnThread n
      else match s.fpReload n with
        | (s, some e) => s.excp n e.1 (BitVec.ofNat 32 e.2)
        | (s, none) =>
          if s.spillMode n && decide (1 < c.depth) && decide (c.depth ≤ c.lowres) then
            s.bankTrap n 27 (s.bankOf n (c.depth - 1)) (s.frameBase n + 0xA0 * (c.depth - 2)) .ret
          else s.returnTo n

/-- An interrupt is taken (R253, R264): a waiting TAKE withdraws its request first; an entry that is refused
leaves the pending bit (R257); WFI ends at any pending source. -/
def State.interruptGo (s : State) (n : Nat) : State :=
  let c := s.core n
  if c.st = .off ∨ c.st = .fatal then s
  else match s.irq n with
    | none =>
      if c.st = .wfi ∧ c.pend ≠ [] then s.onCore n (fun c => { c with st := .run })
      else if c.leaving && c.st == .run then s.onCore n (fun c => { c with leaving := false }) else s
    | some (l, src) =>
      if c.st = .take then if c.leaving then s else (s.onCore n (fun c => { c with leaving := true })).sendTake n true
      else if s.entryRefused n then s.coreFatal n 30
      else
        let s := s.onCore n (fun c => { c with pend := mdel src c.pend, leaving := false, st := .run })
        s.trap n (BitVec.ofNat 32 (2 ^ 31 + 16 + l)) (BitVec.ofNat 32 src) c.pc l true

end Sys2Proof.Machine
end

