-- ==== Sys2Proof/Machine/Cores.lean ====
section
/-! DEFINITION. The instructions of the cores: LDM and STM, bank access, scheduler instructions, loads and
stores, floating point, interrupts and returns, CSR writes, and tasks delivered (R248 to R267). -/

namespace Sys2Proof.Machine

/-! LDM and STM (R262). -/

/-- The elements of a transfer: each with its register and its number, `i` the first number. -/
def elements (mask : Word32) : List (Nat × Nat) := (setBits mask 32).zipIdx

/-- LSMPROG after `k` elements. -/
def lsmProg (k : Nat) : Word32 := BitVec.ofNat 32 (2 ^ 31 + k % 32)

/-- One element: register `i` of bank `k` to or from address `a`; cause where it faults. -/
def State.element (s : State) (n k : Nat) (load : Bool) (i a : Nat) : State × Option Nat :=
  if load then
    match s.coreRead n a 4 with
    | (s, .ok v) => (s.setXr n k i (BitVec.ofNat 32 v), none)
    | (s, .error p) => (s, some (if p then 24 else 5))
  else
    match s.coreWrite n a 4 (s.xr n k i).toNat with
    | (s, true) => (s, none)
    | (s, false) => (s, some 7)

/-- The elements left of a transfer; LSMPROG counts them, a fault or the end of the list ends it: none where
the instruction was not completed. -/
def State.transfer (n bank cur : Nat) (load : Bool) (base : Nat) : List (Nat × Nat) → State → State × Bool
  | [], s => (s, true)
  | (i, j) :: l, s =>
    let a := (base + 4 * j) % 2 ^ 32
    match s.element n bank load i a with
    | (s, some cause) => (s.excp n cause (BitVec.ofNat 32 a), false)
    | (s, none) => State.transfer n bank cur load base l (s.onBank n cur (fun b => { b with lsm := lsmProg (j + 1) }))

/-- LDM, STM and their W-forms. `stop` elements are executed where an interrupt stands that may be taken at
that boundary (R253, R262). -/
def State.multiple (s : State) (n : Nat) (load window : Bool) (rs1 rs2 : Nat) (stop : Option Nat) : State :=
  let c := s.core n
  let cur := s.curBank n
  let base := (s.reg n rs1).toNat
  let mask := s.reg n rs2
  if !s.coreGo n then s
  else if (window && c.user) || bit mask 0 || (load && !window && (bit mask rs1 || bit mask rs2)) then s.illegal n
  else if base % 4 ≠ 0 then s.excp n (if load then 4 else 6) (BitVec.ofNat 32 base)
  else
    let lsm := (s.bank n cur).lsm
    let l := (elements mask).drop (if bit lsm 31 then fld lsm 0 5 else 0)
    let bank := if window then c.bankwin else cur
    let cut := match stop with
      | some k => if 0 < k ∧ k < l.length ∧ (s.irq n).isSome then some k else none
      | none => none
    match cut with
    | some k => (State.transfer n bank cur load base (l.take k) s).1
    | none =>
      match State.transfer n bank cur load base l s with
      | (s, true) => (s.onBank n cur (fun b => { b with lsm := 0 })).advance n 4
      | (s, false) => s

/-! Bank access (R261). -/

/-- BANKRD. -/
def State.bankRd (s : State) (n rd k : Nat) : State :=
  if !s.coreGo n then s
  else if (s.core n).user then s.illegal n
  else (s.setReg n rd (s.xr n (s.core n).bankwin k)).advance n 4

/-- BANKWR. -/
def State.bankWr (s : State) (n k rs1 : Nat) : State :=
  if !s.coreGo n then s
  else if (s.core n).user then s.illegal n
  else (s.setXr n (s.core n).bankwin k (s.reg n rs1)).advance n 4

/-! Scheduler instructions (R263). -/

/-- TAKE. -/
def State.coreTakeGo (s : State) (n rd : Nat) : State :=
  if !s.coreGo n then s
  else if n = 16 ∨ rd = 0 then s.illegal n
  else (s.onCore n (fun c => { c with st := .take, takeRd := rd })).sendTake n false

/-- What READY, DELAY and CANCEL leave: their result in rd, or a refusal in XSCHREF. -/
def SchAns.toCore (a : SchAns) (n rd : Nat) : State :=
  let ref := if a.code = 0 then 0 else 2 ^ 31
  let s :=
    if rd ≠ 0 then a.s.setReg n rd (BitVec.ofNat 32 (ref + a.outcome * 2 ^ 16 + a.code))
    else if a.code = 0 then a.s
    else a.s.onCore n (fun c => { c with xschref := BitVec.ofNat 32 (2 ^ 31 + a.code) })
  s.advance n 4

/-- A scheduler instruction whose command is `f` of the ID. -/
def State.coreCommand (s : State) (n rd rs1 : Nat) (f : State → Nat → SchAns) : State :=
  if s.coreGo n then (f s (fld (s.reg n rs1) 0 16)).toCore n rd else s

/-! Loads and stores (R248 to R251). -/

/-- The address of a load or store. -/
def State.effective (s : State) (n rs1 : Nat) (imm : BitVec 12) : Nat := (s.reg n rs1 + imm.signExtend 32).toNat

/-- The bytes that a load reads. -/
def loadSize : LoadKind → Nat
  | .lb | .lbu => 1
  | .lh | .lhu => 2
  | .fetch half => if half then 2 else 4
  | _ => 4

/-- The register value of a load. -/
def loadValue (kind : LoadKind) (v : Nat) : Word32 :=
  match kind with
  | .lb => (BitVec.ofNat 8 v).signExtend 32
  | .lh => (BitVec.ofNat 16 v).signExtend 32
  | _ => BitVec.ofNat 32 v

/-- The local memory word that a core address reaches, as a number of storage words. -/
def State.localWord (s : State) (n a : Nat) : Option Nat :=
  match s.coreTarget n a with
  | .local_ x => some (x / 32)
  | _ => none

/-- An Xtz instruction by its encoding (R265). -/
def State.xtzGo (s : State) (n : Nat) : Xtz → State
  | .ldm w rs1 rs2 => s.multiple n true w rs1 rs2 none
  | .stm w rs1 rs2 => s.multiple n false w rs1 rs2 none
  | .bankrd rd k => s.bankRd n rd k
  | .bankwr k rs1 => s.bankWr n k rs1
  | .take rd => s.coreTakeGo n rd
  | .ready rd rs1 => s.coreCommand n rd rs1 (fun s id => s.schReady id)
  | .delay rd rs1 rs2 =>
    let wake := s.now + (s.reg n rs2).toNat
    s.coreCommand n rd rs1 (fun s id => s.schDelay id wake)
  | .cancel rd rs1 => s.coreCommand n rd rs1 (fun s id => s.schCancel id)

/-- The fetch of the instruction at the pc, in parcels of 16 bits. In the two opcodes of Xtz the word fetched
executes, or is illegal (R265); any other instruction is given by its own command. -/
def State.fetchGo (s : State) (n : Nat) (half : Bool) : State :=
  let pc := (s.core n).pc
  match s.coreRead n pc.toNat 2 with
  | (s, .error p) => s.excp n (if p then 25 else 1) pc
  | (s, .ok lo) =>
    if half then s
    else match s.coreRead n (pc + 2#32).toNat 2 with
      | (s, .error p) => s.excp n (if p then 25 else 1) (pc + 2#32)
      | (s, .ok hi) =>
        let w := hi * 2 ^ 16 + lo
        if !xtzOpcode w then s
        else match xtzDecode w with
          | some x => s.xtzGo n x
          | none => s.illegal n

/-- A load, LR.W or fetch. -/
def State.loadGo (s : State) (n : Nat) (kind : LoadKind) (rd rs1 : Nat) (imm : BitVec 12) (rvc : Bool) : State :=
  if !s.coreGo n then s
  else match kind with
    | .fetch half => s.fetchGo n half
    | _ =>
      let a := s.effective n rs1 (if kind = .lr then 0 else imm)
      let tv := BitVec.ofNat 32 a
      if kind = .lr ∧ n = 16 then s.illegal n
      else if a % loadSize kind ≠ 0 then s.excp n 4 tv
      else if kind = .lr ∧ (s.localWord n a).isNone then s.excp n 5 tv
      else match s.coreRead n a (loadSize kind) with
        | (s, .error p) => s.excp n (if p then 24 else 5) tv
        | (s, .ok v) =>
          let w := s.localWord n a
          let s := if kind = .lr then s.onCore n (fun c => { c with resv := w }) else s
          (s.setReg n rd (loadValue kind v)).advance n (if rvc then 2 else 4)

/-- What an atomic operation writes. -/
def amoValue (op : AmoOp) (old x : Word32) : Word32 :=
  match op with
  | .swap => x
  | .add => old + x
  | .xor => old ^^^ x
  | .and => old &&& x
  | .or => old ||| x
  | .min => if old.toInt < x.toInt then old else x
  | .max => if old.toInt < x.toInt then x else old
  | .minu => if old.toNat < x.toNat then old else x
  | .maxu => if old.toNat < x.toNat then x else old

/-- A store of `size` bytes. -/
def State.storePlain (s : State) (n size a : Nat) (v : Word32) (rvc : Bool) : State :=
  if a % size ≠ 0 then s.excp n 6 (BitVec.ofNat 32 a)
  else match s.coreWrite n a size v.toNat with
    | (s, true) => s.advance n (if rvc then 2 else 4)
    | (s, false) => s.excp n 7 (BitVec.ofNat 32 a)

/-- SC.W and the atomic operations, on the core's own local memory alone (R248). -/
def State.storeAtomic (s : State) (n a : Nat) (x : Word32) (rd : Nat) (op : Option AmoOp) : State :=
  let tv := BitVec.ofNat 32 a
  if n = 16 then s.illegal n
  else if a % 4 ≠ 0 then s.excp n 6 tv
  else match s.localWord n a with
    | none => s.excp n 7 tv
    | some w =>
      match op with
      | none =>
        let hit := (s.core n).resv == some w
        let s := if hit then (s.coreWrite n a 4 x.toNat).1 else s
        ((s.onCore n (fun c => { c with resv := none })).setReg n rd (if hit then 0 else 1)).advance n 4
      | some op =>
        match s.coreRead n a 4 with
        | (s, .error _) => s.excp n 24 tv
        | (s, .ok v) =>
          let old := BitVec.ofNat 32 v
          (((s.coreWrite n a 4 (amoValue op old x).toNat).1).setReg n rd old).advance n 4

/-- A store, SC.W or atomic operation. -/
def State.storeGo (s : State) (n : Nat) (kind : StoreKind) (rs1 rs2 : Nat) (imm : BitVec 12) (rvc : Bool) : State :=
  if !s.coreGo n then s
  else
    let x := s.reg n rs2
    match kind with
    | .sb => s.storePlain n 1 (s.effective n rs1 imm) x rvc
    | .sh => s.storePlain n 2 (s.effective n rs1 imm) x rvc
    | .sw => s.storePlain n 4 (s.effective n rs1 imm) x rvc
    | .sc rd => s.storeAtomic n (s.reg n rs1).toNat x rd none
    | .amo op rd => s.storeAtomic n (s.reg n rs1).toNat x rd (some op)

/-- A posted store receives an error response (R251). -/
def State.storeErrorGo (s : State) (n : Nat) : State :=
  match (s.core n).stores with
  | [] => s
  | a :: l =>
    let s := s.onCore n (fun c => { c with stores := l, sterr := if n = 16 then a else c.sterr })
    if n < 16 then (s.setRg (ccReg n + 0x18) a).raise (1792 + 4 * n + 3) else s.raise 1875

/-! Floating point (R256). -/

/-- The FP state is dirty. -/
def State.dirty (s : State) (n : Nat) : State := s.onCore n (fun c => { c with fs := 3#2 })

/-- An FP instruction once its state is safe. -/
def State.fpDo (s : State) (n : Nat) (op : FpOp) (k : Nat) : State :=
  match op with
  | .flw rd rs1 imm =>
    let a := s.effective n rs1 imm
    let tv := BitVec.ofNat 32 a
    if a % 4 ≠ 0 then s.excp n 4 tv
    else match s.coreRead n a 4 with
      | (s, .error p) => s.excp n (if p then 24 else 5) tv
      | (s, .ok v) => ((s.onCore n (fun c => { c with f := mset 0 c.f rd (BitVec.ofNat 32 v) })).dirty n).advance n k
  | .fsw rs2 rs1 imm => s.storePlain n 4 (s.effective n rs1 imm) (mget 0 (s.core n).f rs2) (k == 2)
  | .other f x fcsr =>
    let s := match f with
      | some (r, v) => (s.onCore n (fun c => { c with f := mset 0 c.f r v })).dirty n
      | none => s
    let s := match x with
      | some (r, v) => s.setReg n r v
      | none => s
    let s := match fcsr with
      | some v => (s.onCore n (fun c => { c with fcsr := v &&& 0xFF#32 })).dirty n
      | none => s
    s.advance n k

/-- An FP instruction: illegal on the puppeteer, in bank 7 of SPILL mode and with FS Off; else the lazy save
first (R256, R259). -/
def State.fpGo (s : State) (n : Nat) (op : FpOp) (rvc : Bool) : State :=
  let c := s.core n
  if !s.coreGo n then s
  else if n = 16 ∨ c.held.isSome ∨ c.fs = 0 then s.illegal n
  else match s.lazySave n with
    | (s, some a) => s.excp n 28 (BitVec.ofNat 32 a)
    | (s, none) => s.fpDo n op (if rvc then 2 else 4)

/-! CSRs (R252, R266). -/

/-- The bits of BSTAT that a write sets: LVL only through the window of another bank. -/
def bstatMask (n : Nat) (window : Bool) : Word32 :=
  (if n = 16 then 0x0E1F0000#32 else 0xFE1F0000#32) ||| if window then 0x1F00#32 else 0

/-- A masked write. -/
def maskWrite (m old v : Word32) : Word32 := (old &&& ~~~ m) ||| (v &&& m)

/-- A write of a banked CSR, numbered as BSTAT 0, FPSA 1, LSMPROG 2, mepc 3, mcause 4, mtval 5. -/
def State.bankCsr (s : State) (n k which : Nat) (v : Word32) : State :=
  let cur := k == s.curBank n
  s.onBank n k (fun b => match which with
    | 0 => { b with bstat := maskWrite (bstatMask n (!cur)) b.bstat v }
    | 1 => { b with fpsa := if n = 16 then 0 else v }
    | 2 => { b with lsm := v &&& 0x8000001F#32 }
    | 3 => { b with mepc := v &&& 0xFFFFFFFE#32 }
    | 4 => { b with mcause := v }
    | _ => { b with mtval := v })

/-- A write of mstatus: MIE, FS, and MPIE and MPP, which are PIE and PPRV of the current bank. -/
def State.mstatusWrite (s : State) (n : Nat) (v : Word32) : State :=
  let mpp := if fld v 11 2 = 3 ∨ n = 16 then 3 else 0
  let s := s.onCore n (fun c => { c with mie := bit v 3, fs := if n = 16 then 0 else BitVec.ofNat 2 (fld v 13 2) })
  s.onBank n (s.curBank n) (fun b => { b with bstat := setFld (setBit b.bstat 27 (bit v 7)) 25 2 mpp })

/-- mstatus: MIE, FS with SD, and MPIE and MPP of the current bank (R252). -/
def State.mstatus (s : State) (n : Nat) : Word32 :=
  let c := s.core n
  let b := s.bank n (s.curBank n)
  BitVec.ofNat 32 (b2n c.mie * 2 ^ 3 + b2n (bit b.bstat 27) * 2 ^ 7 + fld b.bstat 25 2 * 2 ^ 11 + c.fs.toNat * 2 ^ 13 +
    b2n (c.fs == 3) * 2 ^ 31)

/-- What a CSR other than the FP ones reads; one of the base specification that this spec does not name reads
free (R252, R261, R266). -/
def State.csrRead (s : State) (n csr : Nat) : Word32 :=
  let c := s.core n
  let b := s.bank n (s.curBank n)
  let w := s.bank n c.bankwin
  match csr with
  | 0x300 => s.mstatus n
  | 0x305 => c.mtvec
  | 0x340 => c.mscratch
  | 0x341 => b.mepc
  | 0x342 => b.mcause
  | 0x343 => b.mtval
  | 0x7C0 => BitVec.ofNat 32 c.bankwin
  | 0x7C1 => s.coreCfg n &&& 0xFFFFE001#32
  | 0x7C2 => b.bstat
  | 0x7C3 => b.fpsa
  | 0x7C4 => b.lsm
  | 0x7C5 => w.bstat
  | 0x7C6 => w.fpsa
  | 0x7C7 => w.lsm
  | 0x7C8 => w.mepc
  | 0x7C9 => w.mcause
  | 0x7CA => w.mtval
  | 0x7CB => BitVec.ofNat 32 c.xwin0
  | 0x7CC => BitVec.ofNat 32 c.xwin1
  | 0x7CD => 0
  | 0x7CE => c.xschref
  | 0x7CF => c.sterr
  | 0xCC0 => c.tkarg
  | 0xFC0 => BitVec.ofNat 32 (c.lowres * 2 ^ 8 + c.depth)
  | _ => Config.baseCsr csr s.fresh

/-- The effect of a CSR write; CSRs that are the base specification's own and that this chapter does not name
hold nothing of the model, but for mscratch. -/
def State.csrSet (s : State) (n csr : Nat) (v : Word32) : State :=
  let cur := s.curBank n
  let win := (s.core n).bankwin
  match csr with
  | 0x300 => s.mstatusWrite n v
  | 0x305 => s.onCore n (fun c => { c with mtvec := v &&& 0xFFFFFFFD#32 })
  | 0x340 => s.onCore n (fun c => { c with mscratch := v })
  | 0x341 => s.bankCsr n cur 3 v
  | 0x342 => s.bankCsr n cur 4 v
  | 0x343 => s.bankCsr n cur 5 v
  | 0x7C0 => s.onCore n (fun c => { c with bankwin := fld v 0 3 })
  | 0x7C2 => s.bankCsr n cur 0 v
  | 0x7C3 => s.bankCsr n cur 1 v
  | 0x7C4 => s.bankCsr n cur 2 v
  | 0x7C5 => s.bankCsr n win 0 v
  | 0x7C6 => s.bankCsr n win 1 v
  | 0x7C7 => s.bankCsr n win 2 v
  | 0x7C8 => s.bankCsr n win 3 v
  | 0x7C9 => s.bankCsr n win 4 v
  | 0x7CA => s.bankCsr n win 5 v
  | 0x7CB => s.onCore n (fun c => { c with xwin0 := fld v 0 10 })
  | 0x7CC => s.onCore n (fun c => { c with xwin1 := fld v 0 10 })
  | 0x7CD => s.raiseIf (bit v 0) (if n < 16 then 1792 + 4 * n else 1874)
  | 0x7CE => s.onCore n (fun c => { c with xschref := setBit c.xschref 31 (bit v 31) })
  | _ => s

/-- The value that a CSR instruction writes where the CSR holds `old` and its source is `x`. -/
def csrNext (kind : CsrKind) (old x : Word32) : Word32 :=
  match kind with
  | .rw => x
  | .rs => old ||| x
  | .rc => old &&& ~~~x

/-- Where an FP CSR lies in fcsr: fflags, frm, fcsr. -/
def fpCsrAt (csr : Nat) : Nat × Nat := if csr = 1 then (0, 5) else if csr = 2 then (5, 3) else (0, 8)

/-- A CSR instruction: a write of a read-only number, and a machine CSR in user mode, are illegal; setting and
clearing with source 0 write nothing. The FP CSRs are an FP instruction's (R256). -/
def State.csrGo (s : State) (n : Nat) (kind : CsrKind) (csr : BitVec 12) (rd src : Fin 32) (imm : Bool) : State :=
  let c := csr.toNat
  let x : Word32 := if imm then BitVec.ofNat 32 src else s.reg n src
  let writes := kind = .rw ∨ src ≠ 0
  if !s.coreGo n then s
  else if (fld csr 10 2 = 3 ∧ writes) ∨ (fld csr 8 2 ≠ 0 ∧ (s.core n).user) then s.illegal n
  else if 1 ≤ c ∧ c ≤ 3 then
    let (at_, w) := fpCsrAt c
    let all := (s.core n).fcsr
    let old := BitVec.ofNat 32 (fld all at_ w)
    let new := setFld all at_ w (csrNext kind old x).toNat
    s.fpGo n (.other none (some (rd, old)) (if writes then some new else none)) false
  else
    let old := s.csrRead n c
    let s := { s with fresh := s.fresh + 1 }
    let s := if writes then s.csrSet n c (csrNext kind old x) else s
    (s.setReg n rd old).advance n 4

/-- A system instruction: ECALL and EBREAK trap, FENCE completes once every store has its response (R251), WFI
waits for a pending source (R268). -/
def State.sysGo (s : State) (n : Nat) (csr : BitVec 12) (op : SysOp) : State :=
  match op with
  | .csr kind rd src imm => s.csrGo n kind csr rd src imm
  | .ecall => if s.coreGo n then s.excp n (if (s.core n).user then 8 else 11) 0 else s
  | .ebreak =>
    if s.coreGo n then ({ s with fresh := s.fresh + 1 } : State).excp n 3 (Config.illegalTval s.fresh) else s
  | .fence => if s.coreGo n && (s.core n).stores.isEmpty then s.advance n 4 else s
  | .wfi => if s.coreGo n then (s.advance n 4).onCore n (fun c => { c with st := .wfi }) else s

/-! Tasks delivered (R227, R229, R263). -/

/-- TAKE completes at a core. -/
def State.coreGiven (s : State) (n : Nat) (g : Given) : State :=
  let c := s.core n
  if c.st ≠ .take then s
  else
    let v := b2n g.task.isSome * 2 ^ 31 + b2n g.cxl * 2 ^ 16 + g.task.getD 0
    let s := s.onCore n (fun c => { c with st := .run, leaving := false, tkarg := if g.task.isSome then g.arg else c.tkarg })
    (s.setReg n c.takeRd (BitVec.ofNat 32 v)).advance n 4

/-- A task, or the answer that there is none, reaches taker `k`. -/
def State.taskDelivered (s : State) (k : Nat) : State :=
  match mget none s.sched.given k with
  | none => s
  | some g =>
    let s := s.onSched (fun c => { c with given := mset none c.given k none })
    if k < 16 then s.coreGiven k g else s.regionGiven (k - 16) g

/-! The commands. -/

/-- TASK_DELIVERED (R227). -/
def execTaskDelivered (k : Fin 80) (s : State) : Host.Outcome State Fault Refusal := live s (s.taskDelivered k)
/-- LDM (R262). -/
def execLdm (n : Fin 17) (rs1 rs2 : Fin 32) (stop : Option (Fin 32)) (s : State) : Host.Outcome State Fault Refusal :=
  live s (s.multiple n true false rs1 rs2 (stop.map (·.val)))
/-- LDM.W (R261). -/
def execLdmW (n : Fin 17) (rs1 rs2 : Fin 32) (stop : Option (Fin 32)) (s : State) : Host.Outcome State Fault Refusal :=
  live s (s.multiple n true true rs1 rs2 (stop.map (·.val)))
/-- STM (R262). -/
def execStm (n : Fin 17) (rs1 rs2 : Fin 32) (stop : Option (Fin 32)) (s : State) : Host.Outcome State Fault Refusal :=
  live s (s.multiple n false false rs1 rs2 (stop.map (·.val)))
/-- STM.W (R261). -/
def execStmW (n : Fin 17) (rs1 rs2 : Fin 32) (stop : Option (Fin 32)) (s : State) : Host.Outcome State Fault Refusal :=
  live s (s.multiple n false true rs1 rs2 (stop.map (·.val)))
/-- BANKRD (R261). -/
def execBankrd (n : Fin 17) (rd k : Fin 32) (s : State) : Host.Outcome State Fault Refusal := live s (s.bankRd n rd k)
/-- BANKWR (R261). -/
def execBankwr (n : Fin 17) (k rs1 : Fin 32) (s : State) : Host.Outcome State Fault Refusal := live s (s.bankWr n k rs1)
/-- CORE_TAKE (R263). -/
def execCoreTake (n : Fin 17) (rd : Fin 32) (s : State) : Host.Outcome State Fault Refusal := live s (s.coreTakeGo n rd)
/-- CORE_READY (R263). -/
def execCoreReady (n : Fin 17) (rd rs1 : Fin 32) (s : State) : Host.Outcome State Fault Refusal :=
  live s (s.coreCommand n rd rs1 (fun s id => s.schReady id))
/-- CORE_DELAY (R263): the delay is that of rs2, in ns. -/
def execCoreDelay (n : Fin 17) (rd rs1 rs2 : Fin 32) (s : State) : Host.Outcome State Fault Refusal :=
  let wake := s.now + (s.reg n rs2).toNat
  live s (s.coreCommand n rd rs1 (fun s id => s.schDelay id wake))
/-- CORE_CANCEL (R263). -/
def execCoreCancel (n : Fin 17) (rd rs1 : Fin 32) (s : State) : Host.Outcome State Fault Refusal :=
  live s (s.coreCommand n rd rs1 (fun s id => s.schCancel id))
/-- LOAD (R251). -/
def execLoad (n : Fin 17) (kind : LoadKind) (rd rs1 : Fin 32) (imm : BitVec 12) (rvc : Bool) (s : State) :
    Host.Outcome State Fault Refusal := live s (s.loadGo n kind rd rs1 imm rvc)
/-- STORE (R250). -/
def execStore (n : Fin 17) (kind : StoreKind) (rs1 rs2 : Fin 32) (imm : BitVec 12) (rvc : Bool) (s : State) :
    Host.Outcome State Fault Refusal := live s (s.storeGo n kind rs1 rs2 imm rvc)
/-- STORE_ERROR (R251). -/
def execStoreError (n : Fin 17) (s : State) : Host.Outcome State Fault Refusal := live s (s.storeErrorGo n)
/-- FP_INSTRUCTION (R256). -/
def execFpInstruction (n : Fin 17) (op : FpOp) (rvc : Bool) (s : State) : Host.Outcome State Fault Refusal :=
  live s (s.fpGo n op rvc)
/-- INTERRUPT_ENTRY (R253). -/
def execInterruptEntry (n : Fin 17) (s : State) : Host.Outcome State Fault Refusal := live s (s.interruptGo n)
/-- MRET (R255). -/
def execMret (n : Fin 17) (s : State) : Host.Outcome State Fault Refusal := live s (s.mretGo n)
/-- XRAISE (R266): a system instruction, a write of XRAISE among them. -/
def execXraise (n : Fin 17) (csr : BitVec 12) (op : SysOp) (s : State) : Host.Outcome State Fault Refusal :=
  live s (s.sysGo n csr op)

end Sys2Proof.Machine
end

