-- ==== Sys2Proof/Machine/Flits.lean ====
section
/-! DEFINITION. Packets as flits: the sideband and the header payload, bit by bit (R276, R277). -/

namespace Sys2Proof.Machine

/-- A number of each master, for what the spec leaves open of it. -/
def masterNumber : Master → Nat
  | .host => 0
  | .puppeteer => 1
  | .core n => 2 + n
  | .sched => 18
  | .dma c => 19 + c
  | .engine p => 35 + p
  | .derailleur r => 39 + r
  | .tunnel r => 103 + r
  | .loader => 167
  | .cxp i => 168 + i
  | .eth p => 184 + p

/-- SPORT, the port of a master at its router, and the DPORT of its responses (R276): 0 for the masters of a
region (R274, R295). -/
def sourcePort : Master → Nat
  | .derailleur _ => 0
  | .tunnel _ => 0
  | m => (Config.sourcePort (masterNumber m)).toNat

/-- The header's payload (R277). -/
def Packet.header (p : Packet) : Line :=
  BitVec.ofNat 256 (p.addr % 2 ^ 40 + p.op % 16 * 2 ^ 40 + p.rlen % 16 * 2 ^ 44 + p.status % 256 * 2 ^ 48 + p.rsize % 8 * 2 ^ 56 +
    p.slots.toNat * 2 ^ 64 + p.bytes.toNat * 2 ^ 160)

/-- The sideband of a flit with payload `d` (R276). -/
def Packet.sideband (p : Packet) (head : Bool) (d : Line) : BitVec 64 :=
  let hi := p.dest % 128 * 2 ^ 28 + p.dport % 8 * 2 ^ 25 + b2n p.vn * 2 ^ 24 + b2n p.epoch * 2 ^ 23 + b2n head * 2 ^ 22 +
    p.data.length % 16 * 2 ^ 18 + masterRouter p.m % 128 * 2 ^ 11 + sourcePort p.m * 2 ^ 8 + p.tag % 256
  BitVec.ofNat 64 (hi * 2 ^ 29 + (Config.sidebandCheck hi).toNat * 2 ^ 21 + (lineEncode d).toNat)

/-- A packet's flits, the header first: sideband and payload. -/
def Packet.flits (p : Packet) : List (BitVec 64 × Line) :=
  (p.sideband true p.header, p.header) :: p.data.map (fun d => (p.sideband false d, d))

end Sys2Proof.Machine
end

