-- ==== Sys2Proof/Machine/FatalDump.lean ====
section
/-! DEFINITION. The fatal dump and its summary (R470 to R474). -/

namespace Sys2Proof.Machine

/-- A number of `size` bytes, least significant byte first, at an offset. -/
structure Piece where
  off : Nat
  val : Nat
  size : Nat := 4
deriving DecidableEq, Repr

/-- Pieces moved up by `o`. -/
def piecesAt (o : Nat) (l : List Piece) : List Piece := l.map (fun p => { p with off := o + p.off })

/-- Words at rising offsets. -/
def wordPieces (o : Nat) (l : List Nat) : List Piece := l.zipIdx.map (fun e => { off := o + 4 * e.2, val := e.1 })

/-- A sample in the layout of Q_DATA with V 0 (R473). -/
def sampleBits (c : Chan) : Nat := sampleWord c % 2 ^ 22

/-- A sample without marks as a word. -/
def plainBits (v : Sample) : Nat := v.toNat

/-! A region (R473). -/

/-- A storage word as the dump copies it: raw, an uncorrectable one with its poison groups set (R470). -/
def State.dumpLine (s : State) (a o : Nat) : Piece := { off := o, val := (s.examine a).data.toNat, size := 32 }

/-- The words of memory that are listed from `a` on over `n` bytes, at their offset. -/
def State.dumpRange (s : State) (a n : Nat) : List Piece :=
  (s.codes.filter (fun e => decide (a / 32 ≤ e.1) && decide (e.1 < (a + n) / 32))).map (fun e =>
    s.dumpLine (32 * e.1) (32 * e.1 - a))

/-- The configuration storage of one half. -/
def Half.pieces (y : Half) (h : Nat) : List Piece :=
  y.ctx.map (fun e => { off := 0x100000 + 0x200 * (e.1 / 16) + 0x10 * (16 * h + e.1 % 16), val := e.2.toNat, size := 16 }) ++
  y.seq.map (fun e => { off := 0x120000 + 0x800 * h + 6 * e.1, val := e.2.toNat, size := 6 }) ++
  y.vec.map (fun e => { off := 0x120600 + 0x800 * h + e.1, val := e.2.toNat, size := 1 })

/-- An accumulator: V, then GOV and AP. -/
def Acc.pieces (a : Acc) (o : Nat) : List Piece :=
  [{ off := o, val := a.v.toNat, size := 8 }, { off := o + 8, val := a.gov.toNat + 4 * b2n a.ap }]

/-- The state of an FX cell. -/
def FxCell.pieces (c : FxCell) : List Piece :=
  wordPieces 0 ((List.range 8).map (fun k => sampleBits (mget {} c.regs k)) ++ [sampleBits c.o0, sampleBits c.o1]) ++
  c.acc0.pieces 40 ++ c.acc1.pieces 52 ++
  wordPieces 64 [plainBits c.srch.sv, plainBits c.srch.si, plainBits c.srch.sn, b2n c.srch.sf + 2 * b2n c.srch.sp]

/-- The state of an FP cell. -/
def FpCell.pieces (c : FpCell) : List Piece :=
  let f := fun k : Nat => mget {} c.regs k
  wordPieces 0 ((List.range 4).map (fun k => (f k).v.toNat) ++
    [((List.range 4).map (fun k => b2n (f k).e * 2 ^ k + b2n (f k).p * 2 ^ (4 + k))).sum,
     sampleBits c.o0, sampleBits c.o1, c.srch.sv.toNat, plainBits c.srch.si, plainBits c.srch.sn,
     b2n c.srch.sf + 2 * b2n c.srch.sp, plainBits c.srch.fi, b2n c.srch.fip])

/-- An address-generator channel: pointer, BASE, LEN, STRIDE. -/
def AguChan.pieces (a : AguChan) (o : Nat) : List Piece :=
  wordPieces o [a.p, a.base, a.len, (a.stride % 2 ^ 32).toNat]

/-- A region's block of the dump (R473). -/
def State.regionPieces (s : State) (r : Nat) : List Piece :=
  let x := s.region r
  let lo := cellAddr r 0 0
  let flags := (s.codes.filter (fun e => decide (lo / 32 ≤ e.1) && decide (e.1 < lo / 32 + 0x8000))).foldl
    (fun (m : Map Nat) e =>
      let k := e.1 - lo / 32
      mupd 0 m (k / 4) (· + e.2.wf.toNat * 4 ^ (k % 4))) []
  s.dumpRange lo 0x100000 ++ x.a.pieces 0 ++ x.b.pieces 1 ++
  flags.map (fun e => { off := 0x121000 + e.1, val := e.2, size := 1 }) ++
  x.fx.flatMap (fun e => piecesAt (0x123000 + 0xC0 * e.1) e.2.pieces) ++
  x.fp.flatMap (fun e => piecesAt (0x123000 + 0xC0 * e.1) e.2.pieces) ++
  x.agu.flatMap (fun e =>
    let cell := 16 * (e.1 / 8) + (if e.1 / 4 % 2 = 0 then 5 else 10)
    e.2.pieces (0x123000 + 0xC0 * cell + 16 * (e.1 % 4))) ++
  x.inFifo.flatMap (fun e => wordPieces (0x130000 + 0x40 * e.1) (e.2.length :: e.2.map sampleBits)) ++
  x.credUsed.map (fun e => { off := 0x131000 + 4 * e.1, val := e.2 }) ++
  x.spoke.map (fun e => { off := 0x132000 + 4 * e.1, val := sampleBits e.2 }) ++
  x.slots.map (fun e => { off := 0x133000 + 4 * e.1, val := sampleBits e.2.routed })

/-! The rest of the machine. -/

/-- Registers from `o` on over `n` bytes, at their offset; undefined ones and Q_DATA read as 0. -/
def State.regPieces (s : State) (o n : Nat) : List Piece :=
  (List.range (n / 4)).filterMap (fun k => match s.regPeek (o + 4 * k) with
    | some v => if v = 0 then none else some { off := 4 * k, val := v.toNat }
    | none => none)

/-- A queue's block: registers, head and tail samples, staging words. -/
def State.queuePieces (s : State) (q : Nat) : List Piece :=
  let x := mget {} s.queues q
  s.regPieces (queueBase q) 64 ++
  wordPieces 64 ((x.head ++ x.tail).map (fun e => sampleBits e.c)) ++
  x.stage.zipIdx.map (fun e => { off := 0x100 + 32 * e.2, val := (shipLine (e.1.zipIdx.map (fun c => (c.2, c.1)))).toNat, size := 32 })

/-- The scheduler's records on chip, then its ready and delay entries, in the places of R238. -/
def State.schedPieces (s : State) : List Piece :=
  s.sched.onChip.map (fun e => { off := 0x20 * e.1, val := e.2.line.toNat, size := 32 }) ++
  s.sched.lvls.flatMap (fun e => (e.2.ids.take e.2.on).zipIdx.map (fun i =>
    { off := 0x200000 + 0x20000 * e.1 + 2 * i.2, val := i.1, size := 2 })) ++
  (s.sched.dly.take s.sched.dlyOn).zipIdx.flatMap (fun e =>
    [{ off := 0xA00000 + 16 * e.2, val := e.1.wake, size := 8 }, { off := 0xA00008 + 16 * e.2, val := e.1.id, size := 2 }])

/-- A bank of a core in the frame layout of R260. -/
def State.bankPieces (s : State) (n k : Nat) : List Piece :=
  let b := s.bank n k
  wordPieces 0 ([b.bstat.toNat] ++ (List.range 31).map (fun i => (mget 0 (s.core n).x (32 * k + i + 1)).toNat) ++
    [b.mepc.toNat, b.mcause.toNat, b.mtval.toNat, b.lsm.toNat, b.fpsa.toNat])

/-- A core's block: banks, f registers and fcsr, local memory. -/
def State.corePieces (s : State) (n : Nat) : List Piece :=
  (List.range 8).flatMap (fun k => piecesAt (0x100 * k) (s.bankPieces n k)) ++
  wordPieces 0x800 ((List.range 32).map (fun i => (mget 0 (s.core n).f i).toNat) ++ [(s.core n).fcsr.toNat]) ++
  piecesAt 0x40000 (s.dumpRange (0x4100000000 + 0x40000 * n) (if n < 16 then 0x40000 else 0x80000))

/-- The trace buffer. -/
def State.tracePieces (s : State) : List Piece :=
  s.noc.trace.map (fun e => { off := 16 * e.1, val := e.2.toNat, size := 16 })

/-- The header of a packet in an input buffer: payload and sideband (R276, R277). -/
def Moving.pieces (p : Moving) (o : Nat) : List Piece :=
  [{ off := o, size := 32, val := p.pkt.header.toNat },
   { off := o + 32, size := 8, val := (p.pkt.sideband true p.pkt.header).toNat }]

/-- The NoC snapshot: both banks of tables, EPOCH, packet headers, probe counters, trace buffer. -/
def State.nocPieces (s : State) : List Piece :=
  s.regPieces (nocBase + 0x10000) 0x8000 ++ [{ off := 0x10000, val := b2n s.epoch }] ++
  s.noc.moving.zipIdx.flatMap (fun e => e.1.pieces (0x11000 + 64 * e.2)) ++
  piecesAt 0x20000 (s.regPieces (nocBase + 0x100) 0x200) ++ piecesAt 0x30000 s.tracePieces

/-- A DRAM channel: registers, then the writes and the reads that its queues hold. -/
def State.channelPieces (s : State) (c : Nat) : List Piece :=
  s.regPieces (dramBase c) 0x10000 ++
  (s.dram c).wq.zipIdx.flatMap (fun e =>
    [{ off := 0x20000 + 64 * e.2, val := e.1.addr, size := 8 }, { off := 0x20008 + 64 * e.2, val := e.1.slots.toNat },
     { off := 0x2000C + 64 * e.2, val := e.1.bytes.toNat }, { off := 0x20020 + 64 * e.2, val := e.1.data.toNat, size := 32 }]) ++
  (s.readQueue c).zipIdx.flatMap (fun e => e.1.2.pieces (0x30000 + 64 * e.2))

/-- The dump but for the copy of the summary (R472). -/
def State.dumpPieces (s : State) : List Piece :=
  (List.range 64).flatMap (fun r => piecesAt (0x1000000 + 0x200000 * r) (s.regionPieces r)) ++
  (List.range 512).flatMap (fun q => piecesAt (0x9000000 + 0x400000 * (q / 128) + 0x1000 * (q % 128)) (s.queuePieces q)) ++
  piecesAt 0xA000000 s.schedPieces ++
  (List.range 16).flatMap (fun n => piecesAt (0xB000000 + 0x100000 * n) (s.corePieces n)) ++
  piecesAt 0xC000000 s.nocPieces ++
  (List.range 4).flatMap (fun c => piecesAt (0xD000000 + 0x40000 * c) (s.channelPieces c)) ++
  piecesAt 0xE000000 (s.regPieces 0 0x1000000)

/-! The summary. -/

/-- The pending bits of a core, source 0 the least significant (R271). -/
def Core.pendBits (c : Core) : Nat := (c.pend.map (fun e => 2 ^ e.1)).sum

/-- The summary but for COMPLETE (R474). -/
def State.summaryPieces (s : State) (readbackError dumped : Bool) : List Piece :=
  let f := testBase + 0x44
  [{ off := 0, val := 0x4446574B }, { off := 4, val := 1, size := 2 }, { off := 6, val := s.rf f 16 8, size := 2 },
   { off := 8, val := s.rg64 (testBase + 0x48), size := 8 }, { off := 0x10, val := s.peekBytes (logbookAddr + 8) 4 },
   { off := 0x14, val := s.fatal.1 }, { off := 0x18, val := s.fatal.2 },
   { off := 0x1C, val := b2n dumped + 2 * b2n readbackError + 16 * s.rf f 0 4 },
   { off := 0x20, val := s.dumpBase.getD 0, size := 8 }, { off := 0x80, val := (s.rg (bootBase + 0x28)).toNat }] ++
  piecesAt 0x40 (s.regPieces (bootBase + 0x100) 64) ++
  (List.range 64).flatMap (fun r => piecesAt (0x1000 + 0x400 * r) (s.regPieces (regionBase r) 0x218)) ++
  (List.range 512).flatMap (fun q => piecesAt (0x11000 + 0x40 * q) (s.regPieces (queueBase q) 0x40)) ++
  (List.range 4).flatMap (fun p =>
    let o := 0x19000 + 0x1000 * p
    piecesAt o (s.regPieces (planeBase p + 0xC000) 0x800) ++ piecesAt (o + 0x800) (s.regPieces (planeBase p + 0xC800) 0x18) ++
    piecesAt (o + 0xA00) (s.regPieces (planeBase p + 0xD000) 0x200) ++ piecesAt (o + 0xC00) (s.regPieces (planeBase p + 0xE000) 0x24)) ++
  piecesAt 0x1D000 (s.regPieces 0x500000 0x2000) ++
  (List.range 16).flatMap (fun n =>
    (List.range 8).flatMap (fun k => piecesAt (0x1F000 + 0x800 * n + 0xA0 * k) (s.bankPieces n k)) ++
    piecesAt (0x1F000 + 0x800 * n + 0x500) (s.regPieces (ccReg n) 0x100)) ++
  piecesAt 0x27000 (s.regPieces nocBase 0x1000) ++ piecesAt 0x28000 s.tracePieces ++
  (List.range 4).flatMap (fun c => piecesAt (0x30000 + 0x1000 * c) (s.regPieces (dramBase c) 0x1000)) ++
  [{ off := 0x34000, val := (s.rg (evBase + 0x4000)).toNat }] ++
  (List.range 17).map (fun n => { off := 0x34100 + 0x100 * n, val := (s.core n).pendBits, size := 256 }) ++
  piecesAt 0x36000 (s.regPieces govBase 0x400) ++ piecesAt 0x36400 (s.regPieces bootBase 0x400) ++
  piecesAt 0x36800 (s.regPieces (bootBase + 0x1000) 0x10) ++ piecesAt 0x36C00 (s.regPieces tdmBase 0x400)

/-! Writing them. -/

/-- A piece written to DRAM, its words marked as written with fresh codes. -/
def State.dumpPut (s : State) (base : Nat) (p : Piece) : State :=
  let a := base + p.off
  let s := s.pokeBytes a p.val p.size
  (List.range ((a % 32 + p.size + 31) / 32)).foldl (fun s k =>
    { s with codes := mset {} s.codes (a / 32 + k) { wf := 3 } }) s

/-- Whether step 3 writes the dump: TOTAL not 0, the area reachable, no channel of its span frozen or failed
(R472). -/
def State.dumpable (s : State) : Bool :=
  match s.dumpBase with
  | none => false
  | some d =>
    let span := if s.rb (dramBase 0 + 0xC) 0 then [0, 1, 2, 3] else [d / 2 ^ 36]
    s.dramWithin d 0x20000000 && span.all (fun c => (s.dram c).st != .frozen && (s.dram c).st != .failed)

/-- Writes pieces over an area of DRAM that is cleared first. -/
def State.dumpTo (s : State) (base : Nat) (l : List Piece) : State :=
  l.foldl (fun s p => s.dumpPut base p) (s.clearLines base 0x1000000)

/-- The summary in the logbook, its COMPLETE flag last (R470 step 4). -/
def State.summaryTo (s : State) (slot : Nat) (l : List Piece) : State :=
  let base := logbookAddr + 0x600000 + 0x40000 * slot
  let s := { s with mem := mclear base (base + 0x40000) s.mem }
  let s := l.foldl (fun s p => s.pokeBytes (base + p.off) p.val p.size) s
  s.pokeBytes (base + 0x1C) (s.peekBytes (base + 0x1C) 1 + 4) 1

/-- FATAL_DUMP_COMPLETE: steps 3 to 5 of the fatal path (R470), unless the puppeteer itself stopped (R269, R475). -/
def State.fatalDump (s : State) (readbackError : Bool) : State :=
  let f := testBase + 0x44
  if !s.dead || s.rf f 29 3 == 4 || (s.core 16).st == .fatal then s
  else
    let dumped := s.dumpable
    let sum := s.summaryPieces readbackError dumped
    let d := s.dumpBase.getD 0
    let s := if dumped then
        (s.dumpTo d (s.dumpPieces ++ sum ++ [{ off := 0x1C, val := b2n dumped + 2 * b2n readbackError + 4 + 16 * s.rf f 0 4 }])).setRb f 26 true
      else s
    let slot := s.peekBytes (logbookAddr + 0x14) 4 % 8
    let s := s.summaryTo slot sum
    let s := s.lbAppend 0x00F0 [(s.rf f 16 8, 4), (slot, 4)]
    let s := s.pokeBytes (logbookAddr + 0x14) ((slot + 1) % 8) 4
    let c := logbookAddr + 0x1000 + 8 * 3
    let s := s.pokeBytes c (s.peekBytes c 8 + 1) 8
    let s := (s.setRg (testBase + 0x50) (BitVec.ofNat 32 slot)).setRf f 29 3 4
    ({ s with signals := { s.signals with fatal := true } } : State).testEvent 3

/-- FATAL_DUMP_COMPLETE (R470). -/
def execFatalDumpComplete (readbackError : Bool) (s : State) : Host.Outcome State Fault Refusal :=
  finish s (s.fatalDump readbackError)

end Sys2Proof.Machine
end

