-- ==== Sys2Proof/Machine/Noc.lean ====
section
/-! DEFINITION. Packets on the network: injection, hops, requests at their targets, responses at their
masters (R275 to R295). -/

namespace Sys2Proof.Machine

/-- Destination router and port of an address (R280); none where no row of the table matches. -/
def State.destOf (s : State) (a : Nat) : Option (Nat × Nat) :=
  match cellOf a with
  | some (r, _, _) => some (r, 0)
  | none =>
    if a < 2 ^ 38 then some (s.dramRouter a, 0)
    else if (localOf a).isSome then some (if a < 0x4100400000 then 73 else 75, 0)
    else if logbookAddr ≤ a ∧ a < logbookAddr + 0x800000 then some (75, 2)
    else if 0x4200000000 ≤ a then
      let o := a - 0x4200000000
      (regRouter o).map (fun d => (d, if (0x400000 ≤ o ∧ o < 0x440000) ∨ (0x520000 ≤ o ∧ o < 0x540000) then 2 else 1))
    else none

/-- Whether the ingress router finds a request malformed (R278, R279). -/
def reqMalformed (r : NocReq) : Bool :=
  let n := r.data.length
  let shape := match r.op.toNat with
    | 1 => n == 0 && decide (1 ≤ r.rlen.toNat) && decide (r.rlen.toNat ≤ 8) && r.rsize == 0
    | 2 => decide (1 ≤ n) && decide (n ≤ 8) && r.rlen == 0 && r.rsize == 0
    | 3 => n == 1 && r.rlen == 0 && r.rsize == 0
    | 4 => n == 0 && r.rlen == 0
    | 5 => n == 1 && r.rlen == 0
    | _ => false
  !shape || r.reserved || (decide (r.op.toNat ≤ 3) && r.addr.toNat % 32 != 0)

/-- NOC_CTRL.RTO (R285). -/
def State.rto (s : State) : Nat := s.rf nocBase 16 16

/-- The lowest free tag of master `m`: neither outstanding nor retired and still kept (R285). -/
def State.freeTag (s : State) (m : Master) : Option Nat :=
  let used := (s.noc.outstanding.filter (fun o => o.m == m)).map (·.tag) ++
    (s.noc.retired.filter (fun o => o.m == m && decide (s.now < o.sent + 4000 * s.rto))).map (·.tag)
  (List.range 256).find? (fun t => !used.contains t)

/-- Whether a response is malformed (R278, R279). -/
def rspMalformed (r : NocReq) (status : Nat) : Bool :=
  let n := r.data.length
  let shape := match r.op.toNat with
    | 8 => if status = 0 then decide (1 ≤ n) && decide (n ≤ 8) else n == 0
    | 9 => n == 0
    | 0xA => if status = 0 then n == 1 else n == 0
    | 0xB => n == 0
    | _ => false
  !shape || r.reserved || r.rlen != 0 || r.rsize != 0

/-- The flits of the response to a request (R278, R284). -/
def responseFlits (op rlen : Nat) : Nat := if op = 1 then rlen + 1 else if op = 4 then 2 else 1

/-- The flits that master `m` has reserved in its response buffer (R284). -/
def State.reserved (s : State) (m : Master) : Nat := ((s.noc.outstanding.filter (fun o => o.m == m)).map (·.flits)).sum

/-- Whether its response buffer has room for `n` more (R284). -/
def State.responseRoom (s : State) (m : Master) (n : Nat) : Bool :=
  decide (s.reserved m + n ≤ 9 + Config.responseMore (masterNumber m))

/-- A packet as probes see it (R298). -/
def Packet.seen (p : Packet) : Seen :=
  { vn := p.vn, epoch := p.epoch, op := p.op, src := masterRouter p.m, dest := p.dest, addr := p.addr,
    len := p.data.length, status := p.status, tag := p.tag }

/-- Changes the network. -/
def State.onNoc (s : State) (f : Noc → Noc) : State := { s with noc := f s.noc }

/-- A packet enters the network at router `a`, with the epoch in force (R289). -/
def State.enter (s : State) (a : Nat) (p : Packet) : State :=
  let p := { p with epoch := s.epoch }
  (s.onNoc (fun n => { n with moving := n.moving ++ [{ pkt := p, at_ := a, from_ := a }] })).probeAt a 0xE p.seen

/-- The response to a request, from router `a` (R278, R283). -/
def State.respond (s : State) (a : Nat) (q : Packet) (status : Nat) (data : List Line) : State :=
  let s := s.countStatus status a (masterRouter q.m) q.dest
  s.enter a { m := q.m, dest := masterRouter q.m, dport := sourcePort q.m, vn := true, op := if q.op = 1 then 8 else if q.op = 4 then 0xA else if q.op = 5 then 0xB else 9,
              addr := q.addr, status := status, tag := q.tag, data := if status = 0 then data else [] }

/-- Whether a request of master `m` goes through an ordered port (R293): a tunnel's, or a queue engine's push of a
LINK, which is a register write at the other plane. -/
def orderedPort (m : Master) (op : Nat) : Bool :=
  match m with
  | .tunnel _ => true
  | .engine _ => op == 5
  | _ => false

/-- A master injects a request (R279, R280, R284, R285, R293): it waits while no tag is free, while its response
buffer has no room, and at an ordered port while requests of the old epoch to its destination are outstanding. -/
def State.inject (s : State) (m : Master) (r : NocReq) : State :=
  let a := masterRouter m
  let dest := s.destOf r.addr.toNat
  let d := (dest.getD (a, 0)).1
  let n := responseFlits r.op.toNat r.rlen.toNat
  let waits := !s.responseRoom m n || orderedPort m r.op.toNat && s.noc.outstanding.any (fun o => o.m == m && o.dest == d && o.epoch != s.epoch)
  match s.freeTag m with
  | none => s
  | some t =>
    if waits then s
    else
      let q : Packet := { m := m, dest := d, dport := (dest.getD (a, 0)).2, op := r.op.toNat, addr := r.addr.toNat, rlen := r.rlen.toNat,
                          rsize := r.rsize.toNat, slots := r.slots, bytes := r.bytes, tag := t, data := r.data }
      let e : Outstanding := { m := m, tag := t, dest := d, addr := r.addr.toNat, op := r.op.toNat, epoch := s.epoch, sent := s.now, flits := n }
      let s := s.onNoc (fun n => { n with
        outstanding := n.outstanding ++ [e], retired := n.retired.filter (fun o => !(o.m == m && o.tag == t)) })
      if reqMalformed r then s.respond a q 2 []
      else if dest.isNone then s.respond a q 3 []
      else s.enter a q

/-- A response enters at router `t` beside the answers to requests: a malformed one is discarded and counted
(R279). -/
def State.injectResponse (s : State) (t : Nat) (m : Master) (r : NocReq) (status tag : Nat) : State :=
  let d := masterRouter m
  if rspMalformed r status then s.countStatus 2 t d t
  else s.enter t { m := m, dest := d, dport := sourcePort m, vn := true, op := r.op.toNat, addr := r.addr.toNat,
                   status := status, tag := tag, data := r.data }

/-- Whether the input port of router `n` from router `t` has room for a packet: 16 flits for each virtual
network (R275). -/
def State.inputRoom (s : State) (t n : Nat) (p : Packet) : Bool :=
  let used := (s.noc.moving.filter (fun q => !q.arrived && q.at_ == n && q.from_ == t && q.pkt.vn == p.vn)).map
    (fun q => q.pkt.data.length + 1)
  decide (used.sum + p.data.length + 1 ≤ 16)

/-- Takes packet `i` off the network. -/
def State.unpacket (s : State) (i : Nat) : State := s.onNoc (fun n => { n with moving := n.moving.eraseIdx i })

/-- Whether an earlier packet of the same ports, virtual network and epoch stands at the same router (R287). -/
def State.behind (s : State) (i : Nat) (p : Moving) : Bool :=
  (s.noc.moving.take i).any (fun q => !q.arrived && q.at_ == p.at_ && q.pkt.m == p.pkt.m && q.pkt.dest == p.pkt.dest &&
    q.pkt.dport == p.pkt.dport && q.pkt.vn == p.pkt.vn && q.pkt.epoch == p.pkt.epoch)

/-- A packet reaches its port: a new request to a region that is not ON is answered by its router (R295). -/
def State.packetArrives (s : State) (i : Nat) (p : Moving) : State :=
  let s := s.unpacket i
  if !p.pkt.vn && p.pkt.dport == 0 && decide (p.at_ < 64) && s.pstate p.at_ != 0 then s.respond p.at_ p.pkt 4 []
  else
    let t := s.now
    s.onNoc (fun n => { n with moving := n.moving ++ [{ p with arrived := true, since := t }] })

/-- A packet leaves the router at which it stands, once the next one has room for it (R275, R289). -/
def State.hop (s : State) (i : Nat) : State :=
  match s.noc.moving[i]? with
  | none => s
  | some p =>
    if p.arrived || s.behind i p then s
    else
      let port := s.rtEntry (b2n p.pkt.epoch) p.at_ p.pkt.dest
      match portHop p.at_ port with
      | .none_ =>
        let s := s.unpacket i
        if p.pkt.vn then s else s.respond p.at_ p.pkt 6 []
      | .missing => s.unpacket i
      | .local_ => (s.probeAt p.at_ port p.pkt.seen).packetArrives i p
      | .next n =>
        if !s.inputRoom p.at_ n p.pkt then s
        else (s.probeAt p.at_ port p.pkt.seen).onNoc (fun c =>
          { c with moving := c.moving.set i { p with at_ := n, from_ := p.at_ } })

/-- A router finds the sideband of packet `i` uncorrectable and discards it (R286). -/
def State.sidebandLoss (s : State) (i : Nat) : State :=
  match s.noc.moving[i]? with
  | none => s
  | some p => if p.arrived then s else ((s.unpacket i).count (nocBase + 0x60)).nocEvent 5

/-! Requests at their targets. -/

/-- A storage-word read of an accepted request: a region's drain does not stop it (R295). -/
def State.wordAtTarget (s : State) (m : Master) (a : Nat) : State × MemAns :=
  match cellOf a with
  | some (r, c, w) => s.cellGet m r c w
  | none => s.wordRead m a

/-- Reads `n` words from `a` on, stopping at a status. -/
def State.wordsAtTarget (m : Master) : Nat → Nat → State → State × Nat × List Line
  | 0, _, s => (s, 0, [])
  | n + 1, a, s =>
    let (s, x) := s.wordAtTarget m a
    if x.status ≠ 0 then (s, x.status, [])
    else
      let (s, st, l) := State.wordsAtTarget m n (a + 32) s
      (s, st, x.x.data :: l)

/-- A storage-word write of an accepted request; a mask of 0 writes nothing (R281). -/
def State.putAtTarget (s : State) (m : Master) (a : Nat) (slots : BitVec 12) (bytes : BitVec 32) (d : Line) : State × Nat :=
  if slots = 0 ∧ bytes = 0 then (s, 0)
  else match cellOf a with
    | some (r, c, w) => s.cellPut m r c w slots bytes d
    | none => s.wordWrite m a slots bytes d

/-- Counts the data flits found uncorrectable (R288). -/
def State.linkBad (s : State) (n : Nat) : State :=
  iter (fun s => (s.count (nocBase + 0x68)).nocEvent 10) n s

/-- The data flits as delivered: those that `bad` names with all four poison-group bits set, and how many
(R288). -/
def badFlits (bad : BitVec 8) (l : List Line) : List Line × Nat :=
  (l.zipIdx.map (fun e => if bit bad e.2 then linePoison e.1 else e.1), ((List.range l.length).filter (fun k => bit bad k)).length)

/-- Writes the data flits of a WR, stopping at a status (R281). -/
def State.wrWords (m : Master) (slots : BitVec 96) : Nat → Nat → List Line → State → State × Nat
  | _, _, [], s => (s, 0)
  | j, a, d :: l, s =>
    let (s, st) := s.putAtTarget m a (BitVec.ofNat 12 (fld slots (12 * j) 12)) 0 d
    if st ≠ 0 then (s, st) else State.wrWords m slots (j + 1) (a + 32) l s

/-- Whether the target performs request `i` now: a DRAM channel takes reads by their precedence, and writes while
its queue has room (R338). -/
def State.takesNow (s : State) (i : Nat) (p : Packet) : Bool :=
  let c := (s.dramPlace p.addr).1
  if 2 ^ 38 ≤ p.addr then true
  else if p.op = 1 then (s.dramGate c (s.dramPlace p.addr).2 p.m false).isSome || (s.dram c).st == .frozen || s.readNext c == some i
  else s.dramTakes p.m p.addr p.data.length

/-- A request is performed at its target and answered; a header payload found uncorrectable is not (R283). -/
def State.atTarget (s : State) (i op : Nat) (hdr : Bool) (f : State → Packet → State × Nat × List Line) : State :=
  match s.requestAt i op with
  | none => s
  | some p =>
    if hdr then (s.unpacket i).respond p.at_ p.pkt 2 []
    else if !s.takesNow i p.pkt then s
    else
      let s := s.unpacket i
      let (s, st, l) := f s p.pkt
      s.respond p.at_ p.pkt st l

/-- RD at its target (R278). -/
def State.doRd (s : State) (p : Packet) : State × Nat × List Line :=
  if inRegisters p.addr then (s, 5, []) else State.wordsAtTarget p.m p.rlen p.addr s

/-- WR at its target (R281). -/
def State.doWr (bad : BitVec 8) (s : State) (p : Packet) : State × Nat × List Line :=
  let (l, n) := badFlits bad p.data
  let s := s.linkBad n
  if inRegisters p.addr then (s, 5, [])
  else
    let (s, st) := State.wrWords p.m p.slots 0 p.addr l s
    (s, st, [])

/-- WRB at its target (R281). -/
def State.doWrb (bad : Bool) (s : State) (p : Packet) : State × Nat × List Line :=
  let (l, n) := badFlits (BitVec.ofNat 8 (b2n bad)) p.data
  let s := s.linkBad n
  if inRegisters p.addr then (s, 5, [])
  else
    let (s, st) := s.putAtTarget p.m p.addr 0 p.bytes (plainBytes p.bytes (l.headD 0))
    (s, st, [])

/-- The bytes that RSIZE asks for (R277); 0 for a size that R3 does not allow. -/
def sizeOf_ (rsize : Nat) : Nat := if rsize = 2 then 4 else if rsize = 3 then 8 else 0

/-- RGR at its block (R278, R282). -/
def State.doRgr (s : State) (p : Packet) : State × Nat × List Line :=
  if !inRegisters p.addr then (s, 8, [])
  else
    let (s, st, v) := s.regGet p.m (p.addr - 0x4200000000) (sizeOf_ p.rsize)
    (s, st, [BitVec.ofNat 256 v])

/-- RGW at its block (R278, R282, R318). -/
def State.doRgw (bad : Bool) (s : State) (p : Packet) : State × Nat × List Line :=
  let (l, n) := badFlits (BitVec.ofNat 8 (b2n bad)) p.data
  let s := s.linkBad n
  let d := l.headD 0
  if !inRegisters p.addr then (s, 8, [])
  else
    let k := sizeOf_ p.rsize
    let (s, st) := s.regPut p.m (p.addr - 0x4200000000) k (fld d 0 64 % 2 ^ (8 * k)) (fld d 252 2 != 0)
    (s, st, [])

/-! Responses at their masters. -/

/-- A response reaches its issuing port (R285): its request completes; a response without one is discarded,
and a retired tag comes free. -/
def State.responseAt (s : State) (i op : Nat) (bad : BitVec 8) : State :=
  match s.noc.moving[i]? with
  | none => s
  | some p =>
    if !(p.arrived && p.pkt.vn && p.pkt.op == op) then s
    else
      let s := s.unpacket i
      let (l, n) := badFlits bad p.pkt.data
      let s := s.linkBad n
      let mine := fun o : Outstanding => o.m == p.pkt.m && o.tag == p.pkt.tag
      if s.noc.outstanding.any mine then
        (s.onNoc (fun c => { c with outstanding := c.outstanding.filter (fun o => !mine o) })).put
          (.answer p.pkt.m p.pkt.addr p.pkt.status (l.foldr (fun d acc => d.toNat + 2 ^ 256 * acc) 0))
      else
        ((s.onNoc (fun c => { c with retired := c.retired.filter (fun o => !mine o) })).count (nocBase + 0x64)).nocEvent 6

/-- A request outstanding for RTO µs completes with TIMEOUT, and its tag is retired (R285). -/
def State.timeout (s : State) (i : Nat) : State :=
  match s.noc.outstanding[i]? with
  | none => s
  | some o =>
    if s.rto = 0 ∨ s.now < o.sent + 1000 * s.rto then s
    else
      let t := s.now
      let s := s.onNoc (fun n => { n with
        outstanding := n.outstanding.eraseIdx i, retired := n.retired ++ [{ o with sent := t }] })
      (s.countStatus 7 (masterRouter o.m) (masterRouter o.m) o.dest).put (.answer o.m o.addr 7 0)

/-! The commands; the network keeps running through the fatal path (R471). -/

/-- PACKET_HOP (R279, R286, R289): a request enters, or a packet leaves the router where it stands. -/
def execPacketHop (op : HopOp) (s : State) : Host.Outcome State Fault Refusal :=
  finish s (match op with
    | .inject m r => s.inject m r
    | .response t m r status tag => s.injectResponse t m r status.toNat tag.toNat
    | .move i => s.hop i
    | .sideband i => s.sidebandLoss i)
/-- RD: packet `i` of the network is performed at its target (R278). -/
def execRd (i : Nat) (hdr : Bool) (s : State) : Host.Outcome State Fault Refusal := finish s (s.atTarget i 1 hdr State.doRd)
/-- WR (R281). -/
def execWr (i : Nat) (hdr : Bool) (bad : BitVec 8) (s : State) : Host.Outcome State Fault Refusal :=
  finish s (s.atTarget i 2 hdr (State.doWr bad))
/-- WRB (R281). -/
def execWrb (i : Nat) (hdr bad : Bool) (s : State) : Host.Outcome State Fault Refusal :=
  finish s (s.atTarget i 3 hdr (State.doWrb bad))
/-- RGR (R278). -/
def execRgr (i : Nat) (hdr : Bool) (s : State) : Host.Outcome State Fault Refusal := finish s (s.atTarget i 4 hdr State.doRgr)
/-- RGW (R318). -/
def execRgw (i : Nat) (hdr bad : Bool) (s : State) : Host.Outcome State Fault Refusal :=
  finish s (s.atTarget i 5 hdr (State.doRgw bad))
/-- RDR (R278). -/
def execRdr (i : Nat) (bad : BitVec 8) (s : State) : Host.Outcome State Fault Refusal := finish s (s.responseAt i 8 bad)
/-- WRA (R278). -/
def execWra (i : Nat) (s : State) : Host.Outcome State Fault Refusal := finish s (s.responseAt i 9 0)
/-- RGRR (R278). -/
def execRgrr (i : Nat) (bad : BitVec 8) (s : State) : Host.Outcome State Fault Refusal := finish s (s.responseAt i 0xA bad)
/-- RGWA (R278). -/
def execRgwa (i : Nat) (s : State) : Host.Outcome State Fault Refusal := finish s (s.responseAt i 0xB 0)
/-- REQUEST_TIMEOUT (R285): of the request `i` among those outstanding. -/
def execRequestTimeout (i : Nat) (s : State) : Host.Outcome State Fault Refusal := finish s (s.timeout i)

end Sys2Proof.Machine
end

