-- ==== Sys2Proof/Machine/Recovery.lean ====
section
/-! DEFINITION. The recovery mailbox (R410). -/

namespace Sys2Proof.Machine

/-- What a byte of flash holds after `new` is programmed over it; over an erased byte, `new` itself. -/
def flashOver (old new : BitVec 8) : BitVec 8 := if old = 0xFF then new else Config.flashMix old new

/-- A mailbox command (R410): its registers, and the command in progress unless one is. -/
def State.rmbGo (s : State) (op : Nat) (slot : Bool) (off len : Word32) : State :=
  if !s.rescue || s.host.rmb.isSome then s
  else
    let s := (s.setRg (rmbBase + 4) off).setRg (rmbBase + 8) len
    let s := s.setRg (rmbBase + 12) 0
    s.onHost (fun h => { h with rmb := some { op := op, slot := slot, off := off.toNat, len := len.toNat } })

/-- Whether the range of a mailbox command lies where it may (R410). -/
def Rmb.ranged (x : Rmb) : Bool :=
  decide (x.off + x.len ≤ 0x10000000) &&
  (match x.op with
    | 1 => x.off % 0x10000 == 0 && x.len % 0x10000 == 0
    | 2 => x.off % 256 == 0 && x.len % 256 == 0 && decide (x.len ≤ 0x40000)
    | _ => decide (x.len ≤ 0x40000))

/-- What a mailbox command without an error does to flash and buffer (R410). -/
def State.rmbEffect (s : State) (x : Rmb) : State :=
  let base := b2n x.slot * 0x10000000 + x.off
  match x.op with
  | 1 => { s with flash := mclear base (base + x.len) s.flash }
  | 2 => { s with flash := (List.range x.len).foldl (fun m i =>
      mset 0xFF#8 m (base + i) (flashOver (mget 0xFF#8 m (base + i)) (mget 0 s.host.buf i))) s.flash }
  | _ =>
    let b := (s.flashBytes x.slot x.off x.len).map some
    s.onHost (fun h => { h with buf := bufPut h.buf 0 b })

/-- The one vector of the recovery function: its message, or its pending bit (R399, R410). -/
def State.rmbMessage (s : State) : State :=
  if s.msixOpen 0 then s.msixSend 0 else s.onHost (fun h => { h with pend := mset false h.pend 0 true })

/-- RMB_DONE (R410): 0x0750 for a range, 0x0751 for a flash error, else the effect. -/
def State.rmbDone (s : State) (flashError : Bool) : State :=
  match s.host.rmb with
  | none => s
  | some x =>
    let s := s.onHost (fun h => { h with rmb := none })
    let s := if !x.ranged then s.setRg (rmbBase + 12) 0x0750#32
      else if flashError then s.setRg (rmbBase + 12) 0x0751#32
      else s.rmbEffect x
    s.rmbMessage

/-- ERASE (R410). -/
def execErase (slot : Bool) (off len : Word32) (s : State) : Host.Outcome State Fault Refusal :=
  finish s (s.rmbGo 1 slot off len)
/-- PROGRAM (R410). -/
def execProgram (slot : Bool) (off len : Word32) (s : State) : Host.Outcome State Fault Refusal :=
  finish s (s.rmbGo 2 slot off len)
/-- READ (R410). -/
def execReadFlash (slot : Bool) (off len : Word32) (s : State) : Host.Outcome State Fault Refusal :=
  finish s (s.rmbGo 3 slot off len)
/-- RESTART (R410): the boot of power-on reset, with the role sampled at POR_N (R415). -/
def execRestart (op : BootOp) (s : State) : Host.Outcome State Fault Refusal :=
  finish s (if s.rescue then s.bootRun s.signals.role op else s)
/-- RMB_DONE (R410). -/
def execRmbDone (flashError : Bool) (s : State) : Host.Outcome State Fault Refusal := finish s (s.rmbDone flashError)

end Sys2Proof.Machine
end

