-- ==== Sys2Proof/Machine/Dispatch.lean ====
section
/-! DEFINITION. The dispatch of a command to its meaning: one arm per row of spec/opcode_table.json. -/

namespace Sys2Proof.Machine

/-- The effect of one command on everything but the queue of waiting commands. -/
def exec (i : Instr) (s : State) : Host.Outcome State Fault Refusal :=
  match i with
  | .registerWrite m addr v => Sys2Proof.Machine.execRegisterWrite m addr v s
  | .counterLowRead m addr => Sys2Proof.Machine.execCounterLowRead m addr s
  | .counterHighRead m addr => Sys2Proof.Machine.execCounterHighRead m addr s
  | .pinEdge pin drive => Sys2Proof.Machine.execPinEdge pin drive s
  | .padOutput r slot => Sys2Proof.Machine.execPadOutput r slot s
  | .borderSampleArrival r ix => Sys2Proof.Machine.execBorderSampleArrival r ix s
  | .creditReturn r o => Sys2Proof.Machine.execCreditReturn r o s
  | .resultLands r => Sys2Proof.Machine.execResultLands r s
  | .memWritePhase r => Sys2Proof.Machine.execMemWritePhase r s
  | .port1Access m r c w op => Sys2Proof.Machine.execPort1Access m r c w op s
  | .ownerWrite r c v => Sys2Proof.Machine.execOwnerWrite r c v s
  | .marchHandback p => Sys2Proof.Machine.execMarchHandback p s
  | .halt r => Sys2Proof.Machine.execHalt r s
  | .runContext r => Sys2Proof.Machine.execRunContext r s
  | .repeatBlock r => Sys2Proof.Machine.execRepeatBlock r s
  | .branch r => Sys2Proof.Machine.execBranch r s
  | .rete r => Sys2Proof.Machine.execRete r s
  | .waitBorder r => Sys2Proof.Machine.execWaitBorder r s
  | .waitConditionMet r => Sys2Proof.Machine.execWaitConditionMet r s
  | .waitTimeout r => Sys2Proof.Machine.execWaitTimeout r s
  | .takeTask r => Sys2Proof.Machine.execTakeTask r s
  | .taskDelivered k => Sys2Proof.Machine.execTaskDelivered k s
  | .shift r => Sys2Proof.Machine.execShift r s
  | .signal r => Sys2Proof.Machine.execSignal r s
  | .lstkSave r => Sys2Proof.Machine.execLstkSave r s
  | .lstkRestore r => Sys2Proof.Machine.execLstkRestore r s
  | .regionEnable r v => Sys2Proof.Machine.execRegionEnable r v s
  | .regionDisable r v => Sys2Proof.Machine.execRegionDisable r v s
  | .stop r => Sys2Proof.Machine.execStop r s
  | .start r => Sys2Proof.Machine.execStart r s
  | .producerPush q => Sys2Proof.Machine.execProducerPush q s
  | .consumerPop q => Sys2Proof.Machine.execConsumerPop q s
  | .ship q => Sys2Proof.Machine.execShip q s
  | .middleRead q => Sys2Proof.Machine.execMiddleRead q s
  | .headRefill q => Sys2Proof.Machine.execHeadRefill q s
  | .simpleModeMove q => Sys2Proof.Machine.execSimpleModeMove q s
  | .queueTimeout q => Sys2Proof.Machine.execQueueTimeout q s
  | .flush q => Sys2Proof.Machine.execFlush q s
  | .setmark q => Sys2Proof.Machine.execSetmark q s
  | .rewind q => Sys2Proof.Machine.execRewind q s
  | .release q => Sys2Proof.Machine.execRelease q s
  | .markTimeout q => Sys2Proof.Machine.execMarkTimeout q s
  | .middleError q => Sys2Proof.Machine.execMiddleError q s
  | .qDataRead m q => Sys2Proof.Machine.execQDataRead m q s
  | .qDataWrite m q v => Sys2Proof.Machine.execQDataWrite m q v s
  | .queueEnable q v => Sys2Proof.Machine.execQueueEnable q v s
  | .queueDisable q v => Sys2Proof.Machine.execQueueDisable q v s
  | .preload r rec => Sys2Proof.Machine.execPreload r rec s
  | .preloadDone r => Sys2Proof.Machine.execPreloadDone r s
  | .arm r rec => Sys2Proof.Machine.execArm r rec s
  | .disarm r => Sys2Proof.Machine.execDisarm r s
  | .swap r rec => Sys2Proof.Machine.execSwap r rec s
  | .commit r => Sys2Proof.Machine.execCommit r s
  | .migrate r t => Sys2Proof.Machine.execMigrate r t s
  | .migrationDone r => Sys2Proof.Machine.execMigrationDone r s
  | .migrationFailed r => Sys2Proof.Machine.execMigrationFailed r s
  | .postShiftCheck r => Sys2Proof.Machine.execPostShiftCheck r s
  | .parkPush r ix => Sys2Proof.Machine.execParkPush r ix s
  | .cadenceFire n => Sys2Proof.Machine.execCadenceFire n s
  | .fnowStep r => Sys2Proof.Machine.execFnowStep r s
  | .droopTrip r => Sys2Proof.Machine.execDroopTrip r s
  | .mtSyncOffset off => Sys2Proof.Machine.execMtSyncOffset off s
  | .ppsEdge => Sys2Proof.Machine.execPpsEdge s
  | .mtInputLoss k => Sys2Proof.Machine.execMtInputLoss k s
  | .holdmaxExceeded => Sys2Proof.Machine.execHoldmaxExceeded s
  | .mtEnable v => Sys2Proof.Machine.execMtEnable v s
  | .mtDisable v => Sys2Proof.Machine.execMtDisable v s
  | .sensorRefresh vals => Sys2Proof.Machine.execSensorRefresh vals s
  | .marginAlarm r m => Sys2Proof.Machine.execMarginAlarm r m s
  | .vtargetWrite v => Sys2Proof.Machine.execVtargetWrite v s
  | .gate r => Sys2Proof.Machine.execGate r s
  | .gateDone r => Sys2Proof.Machine.execGateDone r s
  | .wake r => Sys2Proof.Machine.execWake r s
  | .wakeDone r => Sys2Proof.Machine.execWakeDone r s
  | .govRaise v => Sys2Proof.Machine.execGovRaise v s
  | .define id prio cls pin arg => Sys2Proof.Machine.execDefine id prio cls pin arg s
  | .undefine id => Sys2Proof.Machine.execUndefine id s
  | .ready id => Sys2Proof.Machine.execReady id s
  | .delay id ns => Sys2Proof.Machine.execDelay id ns s
  | .delayabs id wake => Sys2Proof.Machine.execDelayabs id wake s
  | .cancel id => Sys2Proof.Machine.execCancel id s
  | .setarg id arg => Sys2Proof.Machine.execSetarg id arg s
  | .takeRequest k => Sys2Proof.Machine.execTakeRequest k s
  | .takeWithdrawal k => Sys2Proof.Machine.execTakeWithdrawal k s
  | .dispatch => Sys2Proof.Machine.execDispatch s
  | .delayExpiry => Sys2Proof.Machine.execDelayExpiry s
  | .spillRead lvl => Sys2Proof.Machine.execSpillRead lvl s
  | .spillError => Sys2Proof.Machine.execSpillError s
  | .schEnable v => Sys2Proof.Machine.execSchEnable v s
  | .schTkoffWrite v => Sys2Proof.Machine.execSchTkoffWrite v s
  | .ldm n rs1 rs2 stop => Sys2Proof.Machine.execLdm n rs1 rs2 stop s
  | .ldmW n rs1 rs2 stop => Sys2Proof.Machine.execLdmW n rs1 rs2 stop s
  | .stm n rs1 rs2 stop => Sys2Proof.Machine.execStm n rs1 rs2 stop s
  | .stmW n rs1 rs2 stop => Sys2Proof.Machine.execStmW n rs1 rs2 stop s
  | .bankrd n rd k => Sys2Proof.Machine.execBankrd n rd k s
  | .bankwr n k rs1 => Sys2Proof.Machine.execBankwr n k rs1 s
  | .coreTake n rd => Sys2Proof.Machine.execCoreTake n rd s
  | .coreReady n rd rs1 => Sys2Proof.Machine.execCoreReady n rd rs1 s
  | .coreDelay n rd rs1 rs2 => Sys2Proof.Machine.execCoreDelay n rd rs1 rs2 s
  | .coreCancel n rd rs1 => Sys2Proof.Machine.execCoreCancel n rd rs1 s
  | .load n kind rd rs1 imm rvc => Sys2Proof.Machine.execLoad n kind rd rs1 imm rvc s
  | .fpInstruction n op rvc => Sys2Proof.Machine.execFpInstruction n op rvc s
  | .interruptEntry n => Sys2Proof.Machine.execInterruptEntry n s
  | .mret n => Sys2Proof.Machine.execMret n s
  | .storeError n => Sys2Proof.Machine.execStoreError n s
  | .xraise n csr op => Sys2Proof.Machine.execXraise n csr op s
  | .ccEnable n v => Sys2Proof.Machine.execCcEnable n v s
  | .ccDisable n v => Sys2Proof.Machine.execCcDisable n v s
  | .ccReset n => Sys2Proof.Machine.execCcReset n s
  | .eventSourceArrival src => Sys2Proof.Machine.execEventSourceArrival src s
  | .evRaise m src => Sys2Proof.Machine.execEvRaise m src s
  | .routeWrite src high v => Sys2Proof.Machine.execRouteWrite src high v s
  | .evCtrlEnable v => Sys2Proof.Machine.execEvCtrlEnable v s
  | .shaGo v => Sys2Proof.Machine.execShaGo v s
  | .shaDone => Sys2Proof.Machine.execShaDone s
  | .verify => Sys2Proof.Machine.execVerify s
  | .sign => Sys2Proof.Machine.execSign s
  | .pubkey => Sys2Proof.Machine.execPubkey s
  | .mldDone => Sys2Proof.Machine.execMldDone s
  | .packetHop op => Sys2Proof.Machine.execPacketHop op s
  | .rd ix hdr => Sys2Proof.Machine.execRd ix hdr s
  | .wr ix hdr bad => Sys2Proof.Machine.execWr ix hdr bad s
  | .wrb ix hdr bad => Sys2Proof.Machine.execWrb ix hdr bad s
  | .rgr ix hdr => Sys2Proof.Machine.execRgr ix hdr s
  | .rgw ix hdr bad => Sys2Proof.Machine.execRgw ix hdr bad s
  | .rdr ix bad => Sys2Proof.Machine.execRdr ix bad s
  | .wra ix => Sys2Proof.Machine.execWra ix s
  | .rgrr ix bad => Sys2Proof.Machine.execRgrr ix bad s
  | .rgwa ix => Sys2Proof.Machine.execRgwa ix s
  | .requestTimeout ix => Sys2Proof.Machine.execRequestTimeout ix s
  | .flip v => Sys2Proof.Machine.execFlip v s
  | .flipCheckDone => Sys2Proof.Machine.execFlipCheckDone s
  | .drained => Sys2Proof.Machine.execDrained s
  | .routeTableWrite m bank t k v => Sys2Proof.Machine.execRouteTableWrite m bank t k v s
  | .trclr v => Sys2Proof.Machine.execTrclr v s
  | .probeEnable n v => Sys2Proof.Machine.execProbeEnable n v s
  | .scrubVisit dram k => Sys2Proof.Machine.execScrubVisit dram k s
  | .scrubAdapt => Sys2Proof.Machine.execScrubAdapt s
  | .scrubEnable u v => Sys2Proof.Machine.execScrubEnable u v s
  | .dramIssue c => Sys2Proof.Machine.execDramIssue c s
  | .refreshDue c rank => Sys2Proof.Machine.execRefreshDue c rank s
  | .mr4Poll c rank rate => Sys2Proof.Machine.execMr4Poll c rank rate s
  | .pageIdlePrecharge c bank => Sys2Proof.Machine.execPageIdlePrecharge c bank s
  | .selfRefreshEntry c cancelled => Sys2Proof.Machine.execSelfRefreshEntry c cancelled s
  | .unfreeze c => Sys2Proof.Machine.execUnfreeze c s
  | .twWrrd m c v bad => Sys2Proof.Machine.execTwWrrd m c v bad s
  | .twRd m c v bad => Sys2Proof.Machine.execTwRd m c v bad s
  | .twCmd m c v mrr => Sys2Proof.Machine.execTwCmd m c v mrr s
  | .twDone c => Sys2Proof.Machine.execTwDone c s
  | .chrst m c => Sys2Proof.Machine.execChrst m c s
  | .ddrTrained m c => Sys2Proof.Machine.execDdrTrained m c s
  | .ddrFail m c => Sys2Proof.Machine.execDdrFail m c s
  | .ddrEnable c v => Sys2Proof.Machine.execDdrEnable c v s
  | .fillDone c => Sys2Proof.Machine.execFillDone c s
  | .tsuCompare k => Sys2Proof.Machine.execTsuCompare k s
  | .pwmLoadPoint row col slot => Sys2Proof.Machine.execPwmLoadPoint row col slot s
  | .ssiWordReady r clk words => Sys2Proof.Machine.execSsiWordReady r clk words s
  | .swioWrite k v => Sys2Proof.Machine.execSwioWrite k v s
  | .mioEnable v => Sys2Proof.Machine.execMioEnable v s
  | .mioDisable v => Sys2Proof.Machine.execMioDisable v s
  | .cxpStreamPacket ix p => Sys2Proof.Machine.execCxpStreamPacket ix p s
  | .mbxSend ix v => Sys2Proof.Machine.execMbxSend ix v s
  | .mbxReceive ix words len => Sys2Proof.Machine.execMbxReceive ix words len s
  | .cxpEnable ix v => Sys2Proof.Machine.execCxpEnable ix v s
  | .ethFrameReceive p bytes good => Sys2Proof.Machine.execEthFrameReceive p bytes good s
  | .tapReplacement pair => Sys2Proof.Machine.execTapReplacement pair s
  | .ethTransmit p k => Sys2Proof.Machine.execEthTransmit p k s
  | .syncTransmit p => Sys2Proof.Machine.execSyncTransmit p s
  | .sgmiiAnWord p w => Sys2Proof.Machine.execSgmiiAnWord p w s
  | .configChange p => Sys2Proof.Machine.execConfigChange p s
  | .gclActivate p => Sys2Proof.Machine.execGclActivate p s
  | .ethEnable p v => Sys2Proof.Machine.execEthEnable p v s
  | .perst => Sys2Proof.Machine.execPerst s
  | .pcieLinkDown => Sys2Proof.Machine.execPcieLinkDown s
  | .flr => Sys2Proof.Machine.execFlr s
  | .hostWrite space off data ep => Sys2Proof.Machine.execHostWrite space off data ep s
  | .hostRead space off len tag => Sys2Proof.Machine.execHostRead space off len tag s
  | .msixUnmask op => Sys2Proof.Machine.execMsixUnmask op s
  | .dmaTailWrite c v => Sys2Proof.Machine.execDmaTailWrite c v s
  | .descriptorStart c d => Sys2Proof.Machine.execDescriptorStart c d s
  | .descriptorEnd c => Sys2Proof.Machine.execDescriptorEnd c s
  | .dmaAbort c units => Sys2Proof.Machine.execDmaAbort c units s
  | .dmaResume c => Sys2Proof.Machine.execDmaResume c s
  | .dmaEnable c v => Sys2Proof.Machine.execDmaEnable c v s
  | .stgGo v => Sys2Proof.Machine.execStgGo v s
  | .stagingDone => Sys2Proof.Machine.execStagingDone s
  | .doeRequest vendor type words => Sys2Proof.Machine.execDoeRequest vendor type words s
  | .attestationReport => Sys2Proof.Machine.execAttestationReport s
  | .erase slot off len => Sys2Proof.Machine.execErase slot off len s
  | .program slot off len => Sys2Proof.Machine.execProgram slot off len s
  | .readFlash slot off len => Sys2Proof.Machine.execReadFlash slot off len s
  | .restart op => Sys2Proof.Machine.execRestart op s
  | .rmbDone flashError => Sys2Proof.Machine.execRmbDone flashError s
  | .porNRise role op => Sys2Proof.Machine.execPorNRise role op s
  | .enableSections b => Sys2Proof.Machine.execEnableSections b s
  | .otpwr w => Sys2Proof.Machine.execOtpwr w s
  | .porNFall => Sys2Proof.Machine.execPorNFall s
  | .tdmEnable v => Sys2Proof.Machine.execTdmEnable v s
  | .hello pairid hash roles captain solo => Sys2Proof.Machine.execHello pairid hash roles captain solo s
  | .heartbeatSend => Sys2Proof.Machine.execHeartbeatSend s
  | .heartbeatReceive st captain time => Sys2Proof.Machine.execHeartbeatReceive st captain time s
  | .heartbeatMiss => Sys2Proof.Machine.execHeartbeatMiss s
  | .gone => Sys2Proof.Machine.execGone s
  | .recordPop => Sys2Proof.Machine.execRecordPop s
  | .remoteRecord bits poison => Sys2Proof.Machine.execRemoteRecord bits poison s
  | .mwinExpiry => Sys2Proof.Machine.execMwinExpiry s
  | .yieldCaptain fromPeer => Sys2Proof.Machine.execYieldCaptain fromPeer s
  | .yieldReply => Sys2Proof.Machine.execYieldReply s
  | .laneDrop => Sys2Proof.Machine.execLaneDrop s
  | .aedadeLinkDown => Sys2Proof.Machine.execAedadeLinkDown s
  | .marchGo p v => Sys2Proof.Machine.execMarchGo p v s
  | .marchAbort p => Sys2Proof.Machine.execMarchAbort p s
  | .marchResume p => Sys2Proof.Machine.execMarchResume p s
  | .marchDone p miss => Sys2Proof.Machine.execMarchDone p miss s
  | .bistGo v => Sys2Proof.Machine.execBistGo v s
  | .bistDone sig => Sys2Proof.Machine.execBistDone sig s
  | .lbAppend m v => Sys2Proof.Machine.execLbAppend m v s
  | .logbookHeaderUpdate => Sys2Proof.Machine.execLogbookHeaderUpdate s
  | .ftlReq m v => Sys2Proof.Machine.execFtlReq m v s
  | .fatalDumpComplete readbackError => Sys2Proof.Machine.execFatalDumpComplete readbackError s
  | .avsVoltageRead mv => Sys2Proof.Machine.execAvsVoltageRead mv s
  | .avsStepWrite => Sys2Proof.Machine.execAvsStepWrite s
  | .dramAlert c crc a rank sub => Sys2Proof.Machine.execDramAlert c crc a rank sub s
  | .mtRefReturn => Sys2Proof.Machine.execMtRefReturn s
  | .sysclk25mStop => Sys2Proof.Machine.execSysclk25mStop s
  | .droopTripEnd r => Sys2Proof.Machine.execDroopTripEnd r s
  | .avsTransactionEnd ok => Sys2Proof.Machine.execAvsTransactionEnd ok s
  | .store n kind rs1 rs2 imm rvc => Sys2Proof.Machine.execStore n kind rs1 rs2 imm rvc s
  | .sddatCapture r slot => Sys2Proof.Machine.execSddatCapture r slot s
  | .cxpLinkChange ix up => Sys2Proof.Machine.execCxpLinkChange ix up s
  | .ethLinkChange p up => Sys2Proof.Machine.execEthLinkChange p up s
  | .pcieLinkUp speed width flit => Sys2Proof.Machine.execPcieLinkUp speed width flit s
  | .dmaHostCompletion c r => Sys2Proof.Machine.execDmaHostCompletion c r s
  | .aedadeLinkUp lanes => Sys2Proof.Machine.execAedadeLinkUp lanes s

end Sys2Proof.Machine
end

