-- ==== Sys2Proof/Machine/Step.lean ====
section
/-! DEFINITION. One step: the command at the front of the queue, or a tick of machine time. -/

namespace Sys2Proof.Machine

/-- One cycle of the 1.0 GHz machine-time clock, and two NoC cycles, pass with nothing commanded (R206). -/
def State.tick (s : State) : State :=
  { s with now := (s.now + 1) % 2 ^ 64, noc := { s.noc with ns := s.noc.ns + 1 } }

/-- One step: the command at the front runs with the rest of the queue; with none waiting, machine time
counts. -/
def step (s : State) : Host.Outcome State Fault Refusal :=
  match s.pending with
  | [] => .next s.tick
  | c :: rest => exec c { s with pending := rest }

/-- The command that a word spells put at the front of the queue. -/
def State.withFetchWord (s : State) (nbits w : Nat) : State :=
  match decodeTableWord nbits w with
  | some c => { s with pending := c :: s.pending }
  | none => s

end Sys2Proof.Machine
end

