-- ==== Sys2Proof/Safety.lean ====
section
/-! DEFINITION. What a good state keeps, the watermark levels of every enabled queue (R148), and how a
statement says what a command leaves unchanged. -/

namespace Sys2Proof.Machine

/-- Whether a queue's entry shows the levels that its watermarks ask for (R148). -/
def State.levelOk (s : State) (e : Nat × Queue) : Bool :=
  !e.2.on || (e.2.hl == s.wantHigh e.1 e.2 && e.2.ll == s.wantLow e.1 e.2)

/-- The levels of every enabled queue are those of the end of a NoC cycle (R148). -/
def State.settled (s : State) : Bool := s.queues.all s.levelOk

/-- `t` with the registers, the raised sources and the count of free values of `s`: where a command has touched
nothing else, this is `s` again. -/
def State.butRegs (s t : State) : State := { t with regs := s.regs, raised := s.raised, fresh := s.fresh }

/-- Every register but those of a list reads in `t` as in `s`. -/
def State.regsBut (s t : State) (l : List Nat) : Prop := ∀ o, o ∉ l → t.rg o = s.rg o

/-- Nothing but registers of the list has changed, beside the raised sources and the count of free values. -/
def State.onlyRegs (s t : State) (l : List Nat) : Prop := s.regsBut t l ∧ s.butRegs t = s

/-- `n` region cycles of context `c`, none of which stalls, lead from `s` to `u` (R47, R78). -/
def cyclesTo (r c : Nat) : Nat → State → State → Prop
  | 0, s, u => u = s
  | n + 1, s, u => ∃ m, s.regionCycle r c = (m, false) ∧ cyclesTo r c n m u

/-- `n` cycles of a WAIT, each of which leaves the region waiting, lead from `s` to `u` (R87). -/
def waitsTo (r : Nat) : Nat → State → State → Prop
  | 0, s, u => u = s
  | n + 1, s, u => ((s.waitGo r).region r).st = .wait ∧ waitsTo r n (s.waitGo r) u

/-- What a command that starts in `s` answers where its effect leads to `u`: the levels of the enabled queues are
evaluated (R148), a source is raised once where R161, R198, R247, R304 or R327 say so, and the commands that wait
are those of `s`. -/
def State.ends (s u : State) : State := { s.cycleEnd u with pending := s.pending }

/-- A command from `s` answers `t`, which is `u` at the end of the command but for the record of region `r`. -/
def State.onlyRegion (s u t : State) (r : Nat) : Prop :=
  { t with regions := u.regions } = s.ends u ∧ ∀ p, p ≠ r → t.region p = u.region p

/-- What else changes where region `r` enters kickstand state (R180, R181): the park samples of its active half
enter the output stages, and a port whose last sample pushed was no last one owes its park push. -/
def Region.parkedFrom (y x : Region) : Prop :=
  y.pinOut = x.pinOut ++ x.active.parks.map (fun e => { slot := e.1, c := { v := e.2 }, park := true }) ∧
    ∀ i, mget {} y.ports i =
      (let p := mget {} x.ports i
       if i < 8 ∧ p.pushed = true ∧ p.lastE = false ∧ (mget 0 x.active.portRec i).getLsbD 31 = true then { p with parkWait := true } else p)

/-- A command from `s` leads through `u` to `t`, in which region `r` has halted with a cause and an address (R90,
R92): source 8r + 7 of its grid place is raised, START reads 0, and it enters kickstand state. -/
def State.haltsAs (s u t : State) (r cause pc : Nat) : Prop :=
  s.onlyRegion ((u.setRb (regionBase r) 1 false).raise (8 * u.logical r + 7)) t r ∧ (t.region r).parkedFrom (u.region r) ∧
    { t.region r with ports := (u.region r).ports, pinOut := (u.region r).pinOut } =
      { u.region r with st := .halted, hcause := cause, haltPc := pc, runLeft := 0, entryLeft := 0, delay := none, withdrawing := false }

/-- A command from `s` leads from `u` to `t`, in which region `r` starts at START_PC with a clean sequencer (R93). -/
def State.startsAs (s u t : State) (r : Nat) : Prop :=
  s.onlyRegion (u.setRb (regionBase r) 1 true) t r ∧
    t.region r = { u.region r with
      stack := [], inh := false, evtValid := false, hcause := 0, haltPc := 0, wto := false, pc := u.rf (regionBase r) 8 8,
      st := .run, delay := none, runLeft := 0, waited := 0 }

/-- From `u`, with the record `y` of region `r`, it enters the handler of event line `k` (R98): the return address
stands in EVT_RET, the loop stack is frozen, INH is set and the pending bit cleared. -/
def State.entersEvent (s u t : State) (r : Nat) (y : Region) (k ret : Nat) : Prop :=
  s.onlyRegion (u.setRb (regionBase r + 0xC) k false) t r ∧
    t.region r = { y with evtRet := ret, evtValid := true, inh := true, stack := y.stack.map (fun e => { e with frozen := true }),
                          entryLeft := 2, st := .entry, pc := (mget 0 y.active.vec k).toNat, runLeft := 0, waited := 0,
                          withdrawing := false }

/-- From `u` region `r` goes on at address `next` with a loop stack (R81): past address 255 it halts with cause 7;
where the boundary is eligible and a line is both pending and enabled it enters that line's handler (R96). -/
def State.goesOn (s u t : State) (r next : Nat) (stack : List LoopEnt) : Prop :=
  let x : Region := { u.region r with stack := stack }
  let y : Region := { x with pc := next, st := .run, runLeft := 0, waited := 0 }
  let quiet : Bool := !y.eligible || (u.eventLine r).isNone
  (256 ≤ next → s.haltsAs (u.setRegion r x) t r 7 255) ∧
    (next < 256 → quiet = true → t.region r = y ∧ s.onlyRegion u t r) ∧
    (∀ k, next < 256 → quiet = false → u.eventLine r = some k → s.entersEvent u t r y k next)

/-- From `u`, in which the cycles of a RUN have passed, region `r` goes on: by END matching (R81), or, where the RUN
was a delay slot, at its branch's target, a RETE leaving the handler (R82, R100). -/
def State.runEnds (s u t : State) (r : Nat) : Prop :=
  match (u.region r).delay with
  | none => let m := endMatch (u.region r).pc (u.region r).stack; s.goesOn u t r m.1 m.2
  | some d =>
    let w := u.onRegion r (fun x => { x with
      delay := none, inh := x.inh && !d.rete, evtValid := x.evtValid && !d.rete,
      stack := if d.rete then x.stack.map (fun e => { e with frozen := false }) else x.stack })
    s.goesOn w t r d.target (w.region r).stack

/-- From `w`, at most `lim` cycles of the RUN at the program counter of region `r` pass (R78): all that are left,
and the region goes on; or `lim` of them, and the others stay due; or fewer, where the next one stalls (R47). -/
def State.runsTo (s w t : State) (r lim : Nat) : Prop :=
  let c := iCtx (w.instrAt r)
  let n := if (w.region r).runLeft = 0 then fld (w.instrAt r) 0 16 + 1 else (w.region r).runLeft
  let w0 := w.onRegion r (fun x => { x with st := .run, runLeft := 0 })
  (∀ u, n ≤ lim → cyclesTo r c n w0 u → s.runEnds u t r) ∧
    (∀ u, lim < n → cyclesTo r c lim w0 u → t.region r = { u.region r with runLeft := n - lim } ∧ s.onlyRegion u t r) ∧
    (∀ i u z, i < n → i < lim → cyclesTo r c i w0 u → u.regionCycle r c = (z, true) →
      t.region r = { z.region r with st := .stall, runLeft := n - i } ∧ s.onlyRegion z t r)

/-- From `e`, the cycle in progress ends the WAIT of region `r` with WTO as given (R87). -/
def State.waitEnds (s e t : State) (r : Nat) (wto : Bool) : Prop :=
  let w := (e.idleCycle r).onRegion r (fun x => { x with wto := wto })
  let m := endMatch (e.region r).pc (w.region r).stack
  s.goesOn w t r m.1 m.2

/-- Nothing differs between `u` and `t` but what transactions leave behind on the network: its counters, events and
probe counts, the trace, a queue that takes a probe's records, and their sources (R283, R298, R299, R304). With no
probe that delivers to it, a queue is as it was, and with no probe that stores records the trace. -/
def State.netSame (u t : State) : Prop :=
  { t with regs := u.regs, raised := u.raised, noc := u.noc, queues := u.queues } = u ∧
    (∀ o, o < nocBase + 0x20 ∨ nocBase + 0x300 ≤ o → t.rg o = u.rg o) ∧
    { t.noc with trace := u.noc.trace } = u.noc ∧
    (∀ n ∈ u.raised, n ∈ t.raised ∨ (512 ≤ n ∧ n < 1024)) ∧
    (∀ n ∈ t.raised, n ∈ u.raised ∨ (512 ≤ n ∧ n < 1024) ∨ (1280 ≤ n ∧ n < 1344)) ∧
    (∀ q, (∀ n, n < 8 → u.rb (probeReg n) 31 = true → u.rf (probeReg n + 0x10) 0 9 ≠ q) → t.queue q = u.queue q) ∧
    ((∀ n, n < 8 → u.rb (probeReg n) 31 = false) → t.noc.trace = u.noc.trace ∧ ∀ n, n ∈ t.raised → 512 ≤ n → n < 1024 → n ∈ u.raised)

/-- The state once the probes on its way have seen a register access of master `m` at offset `o` (R298). -/
def State.asked (s : State) (m : Master) (o op : Nat) : State :=
  s.probeWay (masterRouter m) (s.sees false (masterRouter m) ((regRouter o).getD (masterRouter m)) op (0x4200000000 + o)
    (if op = 4 then 0 else 1) 0)

/-- Whether requests of master `m` reach router `d` and its responses reach the master: the routing tables in use
lead there and back, past no isolated router (R289, R294); the boot loader's own accesses need no table (R416). -/
def State.findsWay (s : State) (m : Master) (d : Nat) : Prop :=
  m = .loader ∨ (s.way (masterRouter m) d = none ∧ s.way d (masterRouter m) = none)

/-- A command from `s` answers `t` where its effect has led to `u` and router `a` then answers request `q` with a
response of opcode `op` that carries status `st` and, with status OK, the data `l`: it enters the network and a status
that is not OK is counted (R278, R283). -/
def State.answersWith (s u t : State) (a : Nat) (q : Packet) (op st : Nat) (l : List Line) : Prop :=
  let k : Packet := { m := q.m, dest := masterRouter q.m, dport := sourcePort q.m, vn := true, epoch := u.epoch, op := op, addr := q.addr,
                      status := st, tag := q.tag, data := if st = 0 then l else [] }
  (s.ends { u with noc := { u.noc with moving := u.noc.moving ++ [{ pkt := k, at_ := a, from_ := a }] } }).netSame t ∧
    ∀ k, 1 ≤ k → k ≤ 8 → t.rg (nocBase + 0x20 + 4 * k) =
      if k = st then satInc32 (u.rg (nocBase + 0x20 + 4 * k)) else u.rg (nocBase + 0x20 + 4 * k)

/-- The commands of what stops in the fatal path (R470): regions, cells, queues, derailleurs, cores, the
scheduler, scrubbers, marches, DMA channels, CoaXPress receivers, machine I/O units and the tandem block. -/
def stopsDead : Instr → Bool
  | .padOutput _ _ | .borderSampleArrival _ _ | .creditReturn _ _ | .resultLands _ | .memWritePhase _
  | .ownerWrite _ _ _ | .marchHandback _ | .halt _ | .runContext _ | .repeatBlock _ | .branch _ | .rete _
  | .waitBorder _ | .waitConditionMet _ | .waitTimeout _ | .takeTask _ | .taskDelivered _ | .shift _
  | .signal _ | .lstkSave _ | .lstkRestore _ | .regionEnable _ _ | .regionDisable _ _ | .stop _ | .start _
  | .producerPush _ | .consumerPop _ | .ship _ | .middleRead _ | .headRefill _ | .simpleModeMove _
  | .queueTimeout _ | .flush _ | .setmark _ | .rewind _ | .release _ | .markTimeout _ | .middleError _
  | .queueEnable _ _ | .queueDisable _ _ | .preload _ _ | .preloadDone _ | .arm _ _ | .disarm _ | .swap _ _
  | .commit _ | .migrate _ _ | .migrationDone _ | .migrationFailed _ | .postShiftCheck _ | .parkPush _ _
  | .cadenceFire _ | .fnowStep _ | .droopTrip _ | .marginAlarm _ _ | .gate _ | .gateDone _ | .wake _
  | .wakeDone _ | .define _ _ _ _ _ | .undefine _ | .ready _ | .delay _ _ | .delayabs _ _ | .cancel _
  | .setarg _ _ | .takeRequest _ | .takeWithdrawal _ | .dispatch | .delayExpiry | .spillRead _ | .spillError
  | .schEnable _ | .schTkoffWrite _ | .ldm _ _ _ _ | .ldmW _ _ _ _ | .stm _ _ _ _ | .stmW _ _ _ _
  | .bankrd _ _ _ | .bankwr _ _ _ | .coreTake _ _ | .coreReady _ _ _ | .coreDelay _ _ _ _ | .coreCancel _ _ _
  | .load _ _ _ _ _ _ | .fpInstruction _ _ _ | .interruptEntry _ | .mret _ | .storeError _ | .xraise _ _ _
  | .ccEnable _ _ | .ccDisable _ _ | .ccReset _ | .scrubVisit _ _ | .tsuCompare _ | .pwmLoadPoint _ _ _
  | .ssiWordReady _ _ _ | .cxpStreamPacket _ _ | .mbxSend _ _ | .mbxReceive _ _ _ | .cxpEnable _ _
  | .descriptorStart _ _ | .descriptorEnd _ | .dmaAbort _ _ | .dmaResume _ | .dmaEnable _ _ | .stgGo _
  | .stagingDone | .tdmEnable _ | .hello _ _ _ _ _ | .heartbeatSend | .heartbeatReceive _ _ _ | .heartbeatMiss
  | .gone | .recordPop | .remoteRecord _ _ | .mwinExpiry | .yieldCaptain _ | .yieldReply | .laneDrop
  | .aedadeLinkDown | .marchGo _ _ | .marchAbort _ | .marchResume _ | .marchDone _ _ | .bistGo _ | .bistDone _
  | .droopTripEnd _ | .store _ _ _ _ _ _ | .sddatCapture _ _ | .cxpLinkChange _ _ | .dmaHostCompletion _ _
  | .aedadeLinkUp _ => true
  | _ => false

/-- Whether record `id` has a place on chip without another's being put out (R237). -/
def State.hasPlace (s : State) (id : Nat) : Prop :=
  (mget none s.sched.tasks id).isSome = true ∨ s.sched.onChip.length < 4096

/-- Whether the zero-fill of channel `c` up to word `n` clears the word at an address (R352). -/
def State.fillHits (s : State) (c n a : Nat) : Prop :=
  a < 2 ^ 38 ∧ (s.dramPlace a).1 = c ∧ (s.dram c).fillPos ≤ (s.dramPlace a).2 / 32 ∧ (s.dramPlace a).2 / 32 < n ∧
    (s.dram c).skip.contains ((s.dramPlace a).2 / 64) = false

end Sys2Proof.Machine
end

