-- ==== Sys2Proof/WellFormed.lean ====
section
/-! DEFINITION. Which commands are well formed: what the operands' types do not say already. -/

namespace Sys2Proof

/-- Whether an address lies in the register range (spec/00_scope.md). -/
def inRegisterRange (a : Nat) : Bool := decide (0x4200000000 ≤ a) && decide (a < 0x4300000000)

/-- LEN has 4 bits (R276). -/
def hopWf : HopOp → Bool
  | .inject _ r => decide (r.data.length ≤ 15)
  | .response _ _ r _ _ => decide (r.data.length ≤ 15)
  | .move _ => true
  | .sideband _ => true

/-- Erroneous beats of a training-wheels operation name one of 16 beats (R349). -/
def beatsWf (l : List (Nat × Nat × BitVec 40)) : Bool := l.all (fun e => decide (e.2.1 < 16))

/-- A line of a CoaXPress image is not empty (R374). -/
def cxpWf : CxpPacket → Bool
  | .header x y => x != 0 && y != 0
  | .pixels px _ => decide (0 < px.length)
  | .otherStream => true

/-- A TLP of the PCI Express specification: 1 to 4,096 bytes that do not cross a 4 KB boundary (R391). -/
def tlpWf (off n : Nat) : Bool := decide (0 < n) && decide (off % 4096 + n ≤ 4096)

/-- A TLP to a space: the bytes lie in one 4 KB block, those of configuration space in one doubleword of its 4 KB
(R391, R393). -/
def spaceWf (x : HostSpace) (off n : Nat) : Bool :=
  match x with
  | .bar _ => tlpWf off n
  | .config => tlpWf off n && decide (off % 4 + n ≤ 4) && decide (off < 4096)

/-- A read completion of a DMA channel: at most one request's bytes (R391). -/
def completionWf : Option (List (BitVec 8) × Bool) → Bool
  | none => true
  | some x => decide (0 < x.1.length) && decide (x.1.length ≤ 4096)

/-- The patterns of the checker self-test are numbered 1 to 9 (R313). -/
def patternWf (p : Fin 10) : Bool := decide (1 ≤ p.val)

/-- An attempt names a pattern for each checker that fails. -/
def tryWf (t : BootTry) : Bool := t.checks.all (fun e => patternWf e.2)

/-- So does a boot. -/
def bootWf (op : BootOp) : Bool := op.checks.all (fun e => patternWf e.2) && tryWf op.a && tryWf op.b

/-- Whether a command is well formed. -/
def Instr.wf (i : Instr) : Bool :=
  match i with
  | .registerWrite _ addr _ => inRegisterRange addr.toNat && addr.toNat % 4 == 0
  | .counterLowRead _ addr => inRegisterRange addr.toNat && addr.toNat % 8 == 0
  | .counterHighRead _ addr => inRegisterRange addr.toNat && addr.toNat % 8 == 4
  | .pinEdge _ _ => true
  | .padOutput _ _ => true
  | .borderSampleArrival _ _ => true
  | .creditReturn _ _ => true
  | .resultLands _ => true
  | .memWritePhase _ => true
  | .port1Access _ _ _ _ _ => true
  | .ownerWrite _ _ _ => true
  | .marchHandback _ => true
  | .halt _ => true
  | .runContext _ => true
  | .repeatBlock _ => true
  | .branch _ => true
  | .rete _ => true
  | .waitBorder _ => true
  | .waitConditionMet _ => true
  | .waitTimeout _ => true
  | .takeTask _ => true
  | .taskDelivered _ => true
  | .shift _ => true
  | .signal _ => true
  | .lstkSave _ => true
  | .lstkRestore _ => true
  | .regionEnable _ _ => true
  | .regionDisable _ _ => true
  | .stop _ => true
  | .start _ => true
  | .producerPush _ => true
  | .consumerPop _ => true
  | .ship _ => true
  | .middleRead _ => true
  | .headRefill _ => true
  | .simpleModeMove _ => true
  | .queueTimeout _ => true
  | .flush _ => true
  | .setmark _ => true
  | .rewind _ => true
  | .release _ => true
  | .markTimeout _ => true
  | .middleError _ => true
  | .qDataRead _ _ => true
  | .qDataWrite _ _ _ => true
  | .queueEnable _ _ => true
  | .queueDisable _ _ => true
  | .preload _ _ => true
  | .preloadDone _ => true
  | .arm _ _ => true
  | .disarm _ => true
  | .swap _ _ => true
  | .commit _ => true
  | .migrate _ _ => true
  | .migrationDone _ => true
  | .migrationFailed _ => true
  | .postShiftCheck _ => true
  | .parkPush _ _ => true
  | .cadenceFire _ => true
  | .fnowStep _ => true
  | .droopTrip _ => true
  | .mtSyncOffset off => decide (-(2 ^ 63) ≤ off) && decide (off < 2 ^ 63)
  | .ppsEdge => true
  | .mtInputLoss _ => true
  | .holdmaxExceeded => true
  | .mtEnable _ => true
  | .mtDisable _ => true
  | .sensorRefresh vals => vals.length == 69
  | .marginAlarm _ _ => true
  | .vtargetWrite _ => true
  | .gate _ => true
  | .gateDone _ => true
  | .wake _ => true
  | .wakeDone _ => true
  | .govRaise _ => true
  | .define _ _ _ _ _ => true
  | .undefine _ => true
  | .ready _ => true
  | .delay _ _ => true
  | .delayabs _ _ => true
  | .cancel _ => true
  | .setarg _ _ => true
  | .takeRequest _ => true
  | .takeWithdrawal _ => true
  | .dispatch => true
  | .delayExpiry => true
  | .spillRead _ => true
  | .spillError => true
  | .schEnable _ => true
  | .schTkoffWrite _ => true
  | .ldm _ _ _ _ => true
  | .ldmW _ _ _ _ => true
  | .stm _ _ _ _ => true
  | .stmW _ _ _ _ => true
  | .bankrd _ _ _ => true
  | .bankwr _ _ _ => true
  | .coreTake _ _ => true
  | .coreReady _ _ _ => true
  | .coreDelay _ _ _ _ => true
  | .coreCancel _ _ _ => true
  | .load _ _ _ _ _ _ => true
  | .fpInstruction _ _ _ => true
  | .interruptEntry _ => true
  | .mret _ => true
  | .storeError _ => true
  | .xraise _ _ _ => true
  | .ccEnable _ _ => true
  | .ccDisable _ _ => true
  | .ccReset _ => true
  | .eventSourceArrival _ => true
  | .evRaise _ _ => true
  | .routeWrite _ _ _ => true
  | .evCtrlEnable _ => true
  | .shaGo _ => true
  | .shaDone => true
  | .verify => true
  | .sign => true
  | .pubkey => true
  | .mldDone => true
  | .packetHop op => hopWf op
  | .rd _ _ => true
  | .wr _ _ _ => true
  | .wrb _ _ _ => true
  | .rgr _ _ => true
  | .rgw _ _ _ => true
  | .rdr _ _ => true
  | .wra _ => true
  | .rgrr _ _ => true
  | .rgwa _ => true
  | .requestTimeout _ => true
  | .flip _ => true
  | .flipCheckDone => true
  | .drained => true
  | .routeTableWrite _ _ _ _ _ => true
  | .trclr _ => true
  | .probeEnable _ _ => true
  | .scrubVisit _ _ => true
  | .scrubAdapt => true
  | .scrubEnable _ _ => true
  | .dramIssue _ => true
  | .refreshDue _ _ => true
  | .mr4Poll _ _ _ => true
  | .pageIdlePrecharge _ _ => true
  | .selfRefreshEntry _ _ => true
  | .unfreeze _ => true
  | .twWrrd _ _ _ bad => beatsWf bad
  | .twRd _ _ _ bad => beatsWf bad
  | .twCmd _ _ _ _ => true
  | .twDone _ => true
  | .chrst _ _ => true
  | .ddrTrained _ _ => true
  | .ddrFail _ _ => true
  | .ddrEnable _ _ => true
  | .fillDone _ => true
  | .tsuCompare _ => true
  | .pwmLoadPoint _ _ _ => true
  | .ssiWordReady _ _ words => decide (words.length ≤ 64)
  | .swioWrite _ _ => true
  | .mioEnable _ => true
  | .mioDisable _ => true
  | .cxpStreamPacket _ p => cxpWf p
  | .mbxSend _ _ => true
  | .mbxReceive _ words len => decide (words.length ≤ 16) && decide (len.val ≤ 64)
  | .cxpEnable _ _ => true
  | .ethFrameReceive _ bytes _ => decide (64 ≤ bytes.length)
  | .tapReplacement _ => true
  | .ethTransmit _ _ => true
  | .syncTransmit _ => true
  | .sgmiiAnWord _ _ => true
  | .configChange _ => true
  | .gclActivate _ => true
  | .ethEnable _ _ => true
  | .perst => true
  | .pcieLinkDown => true
  | .flr => true
  | .hostWrite x off data _ => spaceWf x off.toNat data.length && decide (data.length ≤ 512)
  | .hostRead x off len _ => spaceWf x off.toNat len.val
  | .msixUnmask _ => true
  | .dmaTailWrite _ _ => true
  | .descriptorStart _ _ => true
  | .descriptorEnd _ => true
  | .dmaAbort _ _ => true
  | .dmaResume _ => true
  | .dmaEnable _ _ => true
  | .stgGo _ => true
  | .stagingDone => true
  | .doeRequest _ _ words => decide (words.length ≤ 0x3FFFE)
  | .attestationReport => true
  | .erase _ off len => off.toNat % 0x10000 == 0 && len.toNat % 0x10000 == 0
  | .program _ off len => off.toNat % 256 == 0 && len.toNat % 256 == 0 && decide (len.toNat ≤ 0x40000)
  | .readFlash _ _ len => decide (len.toNat ≤ 0x40000)
  | .restart op => bootWf op
  | .rmbDone _ => true
  | .porNRise _ op => bootWf op
  | .enableSections b => tryWf b
  | .otpwr _ => true
  | .porNFall => true
  | .tdmEnable _ => true
  | .hello _ _ _ _ _ => true
  | .heartbeatSend => true
  | .heartbeatReceive _ _ _ => true
  | .heartbeatMiss => true
  | .gone => true
  | .recordPop => true
  | .remoteRecord _ _ => true
  | .mwinExpiry => true
  | .yieldCaptain _ => true
  | .yieldReply => true
  | .laneDrop => true
  | .aedadeLinkDown => true
  | .marchGo _ _ => true
  | .marchAbort _ => true
  | .marchResume _ => true
  | .marchDone _ _ => true
  | .bistGo _ => true
  | .bistDone _ => true
  | .lbAppend _ _ => true
  | .logbookHeaderUpdate => true
  | .ftlReq _ _ => true
  | .fatalDumpComplete _ => true
  | .avsVoltageRead _ => true
  | .avsStepWrite => true
  | .dramAlert _ _ _ _ _ => true
  | .mtRefReturn => true
  | .sysclk25mStop => true
  | .droopTripEnd _ => true
  | .avsTransactionEnd _ => true
  | .store _ _ _ _ _ _ => true
  | .sddatCapture _ _ => true
  | .cxpLinkChange _ _ => true
  | .ethLinkChange _ _ => true
  | .pcieLinkUp _ _ _ => true
  | .dmaHostCompletion _ r => completionWf r
  | .aedadeLinkUp _ => true

end Sys2Proof
end

