-- ==== Sys2Proof/Certificates/Slice0/Obligations.lean ====
section
/-! DEFINITION. The statements for the provers. -/

open Sys2Proof Sys2Proof.Machine

/-- Where a command waits at the front of the queue, one step answers exactly what that command answers on the same
state with the rest of the queue waiting. The queue is the model's own, as log entry 1 says. -/
def Obligations.StepRunsTheFrontCommand : Prop :=
  ∀ (c : Instr) (rest : List Instr) (s : State), s.pending = c :: rest → step s = exec c { s with pending := rest }

/-- No command of this part stops the machine: every step from every state answers a next state. After it the
waiting commands are those that waited behind the front, in order, and no command changes them. -/
def Obligations.EveryStepGoesOnAndKeepsTheQueueInOrder : Prop :=
  (∀ s : State, ∃ t, step s = .next t) ∧ (∀ (c : Instr) (s : State), ∃ t, exec c s = .next t ∧ t.pending = s.pending) ∧
  (∀ (c : Instr) (rest : List Instr) (s t : State), s.pending = c :: rest → step s = .next t → t.pending = rest)

/-- With an empty queue a step advances the 64-bit machine-time counter by 1, and nothing else changes (R206). That
a step with nothing commanded is one tick is the model's choice, log entry 2. -/
def Obligations.MachineTimeCountsWhereNothingIsCommanded : Prop :=
  ∀ s : State, s.pending = [] → step s = .next { s with now := (s.now + 1) % 2 ^ 64 }

/-- After power-on reset DEVICE_ID reads 0x7A108840 and the revision 1 (R11, R435), each FNOW 127 (R219), NOC_STATUS
has DRAINED set (R302), machine time is 0 (R206), every region is OFF with an EMPTY derailleur (R73, R169), no
queue is enabled, no source is raised and no command waits, and the byte memory is in canonical form. That every
register whose reset value the spec does not give reads 0, and that unwritten memory reads 0, is the model's
choice, log entries 3 and 4. -/
def Obligations.ResetLeavesTheValuesOfTheSpec : Prop :=
  State.reset.rg (bootBase + 0x10) = 0x7A108840#32 ∧ State.reset.rg (bootBase + 0x14) = 1#32 ∧
  (∀ r, r < 64 → State.reset.rg (rclk r + 4) = 127#32 ∧ (State.reset.region r).st = .off ∧
    (State.reset.region r).drl.st = .empty) ∧
  State.reset.rg (nocBase + 4) = 2#32 ∧ State.reset.now = 0 ∧ State.reset.raised = [] ∧ State.reset.pending = [] ∧
  (∀ q, (State.reset.queue q).on = false) ∧ State.reset.settled = true ∧ Memory.wf State.reset.mem = true

/-- Where every enabled queue shows HL and LL as R148 evaluates them from HELD and the watermarks, every step,
whatever command it runs, leads to a state in which that holds again of every enabled queue; and every command
brings it about from any state. No crossing is lost between two steps. What its clauses fix beyond the rules is
the model's choice (log entries 6 and 25). -/
def Obligations.EveryStepKeepsTheLevelsSettled : Prop :=
  (∀ s t : State, s.settled = true → step s = .next t → t.settled = true) ∧
  (∀ (c : Instr) (s t : State), exec c s = .next t → ∀ e ∈ t.queues, e.2.on = true →
    e.2.hl = (t.rf (queueBase e.1 + 0x1C) 0 28 != 0 &&
      decide (t.rf (queueBase e.1 + 0x1C) 0 28 ≤ e.2.held (t.rb (queueBase e.1) 1))) ∧
    e.2.ll = decide (e.2.held (t.rb (queueBase e.1) 1) ≤ t.rf (queueBase e.1 + 0x20) 0 28))

/-- Once the fatal path has been entered, regions, queue engines, DMA channels, the scheduler, cores, scrubbers,
CoaXPress receivers, marches and the tandem block have stopped (R470): each command of theirs answers a next
state in which nothing has changed from a settled state but the count of free values. Which commands those are
is read from R470 and R471, log entry 9. -/
def Obligations.TheFatalPathStopsTheEngines : Prop :=
  ∀ (c : Instr) (s : State), stopsDead c = true → s.dead = true → s.settled = true →
    exec c s = .next { s with fresh := s.fresh + 1 }

/-- A COUNTER_LOW_READ that reaches its block answers the low word as it stands then and latches the high word for
that master and counter, replacing a latch it held. A COUNTER_HIGH_READ answers the latched word and releases
the latch, or the live high word where that master holds none. Each touches no other latch and, but for what its
transaction leaves on the network, nothing else. A 64-bit access returns the pair as it stands, low word first,
and leaves every latch alone. -/
def Obligations.CounterReadsLatchTheHighWord : Prop :=
  (∀ (m : Master) (addr : Addr) (d : Nat) (lo hi : Word32) (s : State),
    let o := regOffset addr
    regRouter o = some d → s.findsWay m d → o % 4 = 0 → counterLow o = true →
    (s.asked m o 4).regPeek o = some lo → (s.asked m o 4).regPeek (o + 4) = some hi →
    ∃ t, exec (.counterLowRead m addr) s = .next t ∧ t.out = s.out ++ [.answer m addr.toNat 0 lo.toNat] ∧
      t.latchOf m (o + 4) = some hi ∧
      (∀ (k : Master) (p : Nat), (k ≠ m ∨ p ≠ o + 4) → t.latchOf k p = s.latchOf k p) ∧
      (s.ends { s with latches := t.latches, out := t.out }).netSame t) ∧
  (∀ (m : Master) (addr : Addr) (d : Nat) (live : Word32) (s : State),
    let o := regOffset addr
    regRouter o = some d → s.findsWay m d → o % 4 = 0 → 4 ≤ o → counterLow (o - 4) = true →
    (s.asked m o 4).regPeek o = some live →
    ∃ t, exec (.counterHighRead m addr) s = .next t ∧
      t.out = s.out ++ [.answer m addr.toNat 0 ((s.latchOf m o).getD live).toNat] ∧ t.latchOf m o = none ∧
      (∀ (k : Master) (p : Nat), (k ≠ m ∨ p ≠ o) → t.latchOf k p = s.latchOf k p) ∧
      (s.ends { s with latches := t.latches, out := t.out }).netSame t) ∧
  (∀ (m : Master) (o : Nat) (lo hi : Word32) (s : State), o % 8 = 0 → counterLow o = true → s.regPeek o = some lo →
    s.regPeek (o + 4) = some hi → s.regGet m o 8 = (s, 0, lo.toNat + hi.toNat * 2 ^ 32))

/-- A REGISTER_WRITE that reaches its block is performed there and answered with the block's status; but for that,
only its transaction's traces on the network remain. It is answered with UNMAPPED, and nothing is written, where
no block lies at the address or the block has no register at the offset (R280). It sets TASK_MASK from its 16
bits (RW), clears in EVT_PEND the bits written 1 (W1C), sets a pin's MIO_PINP only while MIO_CTRL.EN is 0 (RWL),
leaves the read-only REG_REASON as it was (RO), and answers each with OK (R5, R6). What its clauses fix beyond
the rules is the model's choice (log entries 37 and 38). -/
def Obligations.RegisterWritesActByTheirAccessCodes : Prop :=
  (∀ (m : Master) (addr : Addr) (v : Word32) (d : Nat) (u : State) (st : Nat) (s : State),
    let o := regOffset addr
    regRouter o = some d → (s.asked m o 5).regPut m o 4 v.toNat false = (u, st) →
    (m = .loader ∨ (s.way (masterRouter m) d = none ∧ u.way d (masterRouter m) = none)) →
    ∃ t, exec (.registerWrite m addr v) s = .next t ∧ t.out = u.out ++ [.answer m addr.toNat st 0] ∧
      (s.ends { u with out := t.out }).netSame t) ∧
  (∀ (m : Master) (o op : Nat) (s : State), s.netSame (s.asked m o op)) ∧
  (∀ (m : Master) (addr : Addr) (v : Word32) (s : State), regRouter (regOffset addr) = none →
    (m = .loader ∨ s.way (masterRouter m) (masterRouter m) = none) →
    ∃ t, exec (.registerWrite m addr v) s = .next t ∧ t.out = s.out ++ [.answer m addr.toNat 3 0] ∧
      (s.ends { s with out := t.out }).netSame t) ∧
  (∀ (m : Master) (o : Nat) (v : Word32) (s : State), o % 4 = 0 → s.regPeek o = none → qDataOf o = none →
    s.regPut m o 4 v.toNat false = (s, 3)) ∧
  (∀ (m : Master) (r : Fin 64) (v : Word32) (s : State), s.dead = false →
    s.regPut m (regionBase r + 0x20) 4 v.toNat false =
      (s.setRg (regionBase r + 0x20) ((s.rg (regionBase r + 0x20) &&& 0xFFFF0000#32) ||| (v &&& 0xFFFF#32)), 0) ∧
    s.regPut m (regionBase r + 0xC) 4 v.toNat false =
      (s.setRg (regionBase r + 0xC) (s.rg (regionBase r + 0xC) &&& ~~~ (v &&& 0xFF#32)), 0) ∧
    (s.regPut m (regionBase r + 4) 4 v.toNat false).2 = 0 ∧
    ∀ o, (s.regPut m (regionBase r + 4) 4 v.toNat false).1.rg o = s.rg o) ∧
  (∀ (m : Master) (p : Fin 512) (v : Word32) (s : State), (s.regPut m (pinReg p) 4 v.toNat false).2 = 0 ∧
    (s.rb mioBase 0 = false → (s.regPut m (pinReg p) 4 v.toNat false).1.rg (pinReg p) =
      ((s.rg (pinReg p) &&& 0xFFFFF000#32) ||| (v &&& 0xFFF#32))) ∧
    (s.rb mioBase 0 = true → (s.regPut m (pinReg p) 4 v.toNat false).1.rg (pinReg p) = s.rg (pinReg p)))

/-- BORDER_SAMPLE_ARRIVAL takes the oldest sample in a tunnel to a spoke input out of it, unless the tunnel holds it
over a flip (R192, R293). With none there, a region at rest passes the k cycles until the next sample of the
input is there: every sample then due joins the receive FIFO in order, the others stand k cycles nearer; at a
queue port every head sample then due is readable (R27, R28, R136). CREDIT_RETURN does the same for credits,
which become usable (R26, R27). RESULT_LANDS in a region at rest with one operation in flight lets its cycles
pass and the result land in the destinations chosen at its issue (R41, R45). In a region that runs the three
change nothing: the cycles are those of its instructions. k idle cycles are all that happens. What its clauses
fix beyond the rules is the model's choice (log entries 15 and 26). -/
def Obligations.BorderArrivalsAndLandings : Prop :=
  (∀ (r : Fin 64) (i : Fin 72) (c : Chan) (pre rest : List (Nat × Chan)) (s : State), s.dead = false → i.val < 64 →
    mget [] (s.region r).inWay i = pre ++ (4, c) :: rest → (∀ a ∈ pre, a.1 ≠ 4) →
    (s.tunnelHolds r i = false → ∃ t, exec (.borderSampleArrival r i) s = .next t ∧
      t.region r = { s.region r with inWay := mset [] (s.region r).inWay i (pre ++ (3, c) :: rest) } ∧ s.onlyRegion s t r) ∧
    (s.tunnelHolds r i = true → exec (.borderSampleArrival r i) s = .next (s.ends s))) ∧
  (∀ (r : Fin 64) (i : Fin 72) (s : State), s.dead = false → s.resting r = true → i.val < 64 →
    let l := mget [] (s.region r).inWay i
    let k := leastOf (l.map (·.1))
    (∀ a ∈ l, 1 ≤ a.1 ∧ a.1 ≤ 3) →
    ∃ t, exec (.borderSampleArrival r i) s = .next t ∧ t = s.ends (iter (fun u => u.idleCycle r) k s) ∧
      mget [] (t.region r).inFifo i = mget [] (s.region r).inFifo i ++ (l.filter (fun a => a.1 = k)).map (·.2) ∧
      mget [] (t.region r).inWay i = (l.filter (fun a => k < a.1)).map (fun a => (a.1 - k, a.2))) ∧
  (∀ (r : Fin 64) (i : Fin 72) (s : State), s.dead = false → s.resting r = true → 64 ≤ i.val →
    let l := s.portLefts r (i - 64)
    let k := leastOf l
    (∀ a ∈ l, 1 ≤ a) →
    ∃ t, exec (.borderSampleArrival r i) s = .next t ∧ t = s.ends (iter (fun u => u.idleCycle r) k s) ∧
      mget 0 (t.region r).portVis (i - 64) = mget 0 (s.region r).portVis (i - 64) + (l.filter (fun a => a = k)).length) ∧
  (∀ (r : Fin 64) (o : Fin 72) (pre rest : List Nat) (s : State), s.dead = false →
    mget [] (s.region r).credWay o = pre ++ 4 :: rest → (∀ a ∈ pre, a ≠ 4) →
    (s.tunnelHolds r o = false → ∃ t, exec (.creditReturn r o) s = .next t ∧
      t.region r = { s.region r with credWay := mset [] (s.region r).credWay o (pre ++ 3 :: rest) } ∧ s.onlyRegion s t r) ∧
    (s.tunnelHolds r o = true → exec (.creditReturn r o) s = .next (s.ends s))) ∧
  (∀ (r : Fin 64) (o : Fin 72) (s : State), s.dead = false → s.resting r = true →
    let l := mget [] (s.region r).credWay o
    let k := leastOf l
    (∀ a ∈ l, 1 ≤ a ∧ a ≤ 3) →
    ∃ t, exec (.creditReturn r o) s = .next t ∧ t = s.ends (iter (fun u => u.idleCycle r) k s) ∧
      mget 0 (t.region r).credUsed o = mget 0 (s.region r).credUsed o - (l.filter (fun a => a = k)).length ∧
      mget [] (t.region r).credWay o = (l.filter (fun a => k < a)).map (fun a => a - k)) ∧
  (∀ (r : Fin 64) (i : Fin 72) (s : State), s.dead = false → s.resting r = false →
    ((i.val < 64 → ∀ a ∈ mget [] (s.region r).inWay i, a.1 ≠ 4) →
      exec (.borderSampleArrival r i) s = .next (s.ends s)) ∧
    ((∀ a ∈ mget [] (s.region r).credWay i, a ≠ 4) → exec (.creditReturn r i) s = .next (s.ends s)) ∧
    exec (.resultLands r) s = .next (s.ends s)) ∧
  (∀ (r : Fin 64) (f : Flight) (s : State), s.dead = false → s.resting r = true →
    (s.region r).flights = [f] → 1 ≤ f.left → (s.region r).rds = [] → (s.region r).wrs = [] → (s.region r).p1 = [] →
    (s.region r).fixes = [] →
    ∃ t, exec (.resultLands r) s = .next t ∧ t = s.ends (iter (fun u => u.idleCycle r) f.left s) ∧ (t.region r).flights = [] ∧
      (t.region r).fx = ({ s.region r with flags := [] }.land { f with left := 1 }).fx ∧
      (t.region r).fp = ({ s.region r with flags := [] }.land { f with left := 1 }).fp ∧
      (t.region r).flags = ({ s.region r with flags := [] }.land { f with left := 1 }).flags ∧
      t.mem = s.mem ∧ t.codes = s.codes ∧ (∀ p, p ≠ r.val → (t.region p).fx = (s.region p).fx))

/-- For all operand samples A, B and C: ADD and SUB wrap modulo 2^20, ADDS and SUBS clamp the exact signed result,
AND, OR and XOR act bit by bit, MOV returns A, SEL chooses by C, the compares return 1 or 0, MIN and MAX return
the signed smaller or larger, ABS of 0x80000 is 0x7FFFF, and the shifts and the rotation use B[4:0] alone, with
20 and more shifting everything out. -/
def Obligations.AluOpcodesProduceTheirResults : Prop :=
  ∀ a b c : Sample,
    let n := b.toNat % 32
    let clamp := fun x : Int => max (-524288) (min 524287 x)
    (fxAlu 0x01 a b c).toNat = (a.toNat + b.toNat) % 2 ^ 20 ∧
    ((fxAlu 0x02 a b c).toNat : Int) = ((a.toNat : Int) - b.toNat) % 2 ^ 20 ∧
    (fxAlu 0x03 a b c).toInt = clamp (a.toInt + b.toInt) ∧ (fxAlu 0x04 a b c).toInt = clamp (a.toInt - b.toInt) ∧
    (∀ i, (fxAlu 0x05 a b c).getLsbD i = (a.getLsbD i && b.getLsbD i) ∧
      (fxAlu 0x06 a b c).getLsbD i = (a.getLsbD i || b.getLsbD i) ∧
      (fxAlu 0x07 a b c).getLsbD i = (a.getLsbD i != b.getLsbD i)) ∧
    fxAlu 0x08 a b c = a ∧ (c.toNat ≠ 0 → fxAlu 0x09 a b c = a) ∧ (c.toNat = 0 → fxAlu 0x09 a b c = b) ∧
    (fxAlu 0x0A a b c).toNat = b2n (decide (a.toNat = b.toNat)) ∧ (fxAlu 0x0B a b c).toNat = b2n (decide (a.toInt < b.toInt)) ∧
    (fxAlu 0x0C a b c).toNat = b2n (decide (a.toNat < b.toNat)) ∧
    (fxAlu 0x0D a b c).toInt = min a.toInt b.toInt ∧ (fxAlu 0x0E a b c).toInt = max a.toInt b.toInt ∧
    (fxAlu 0x0F a b c).toInt = min 524287 (a.toInt.natAbs : Int) ∧
    (fxAlu 0x10 a b c).toNat = (if n ≤ 19 then a.toNat * 2 ^ n % 2 ^ 20 else 0) ∧
    (fxAlu 0x11 a b c).toNat = (if n ≤ 19 then a.toNat / 2 ^ n else 0) ∧
    (fxAlu 0x12 a b c).toInt = (if n ≤ 19 then a.toInt / 2 ^ n else if a.toInt < 0 then -1 else 0) ∧
    (∀ i, i < 20 → (fxAlu 0x13 a b c).getLsbD ((i + n) % 20) = a.getLsbD i)

/-- For every signed sample a and every CVTQ from 0 to 19 the result is neither a NaN nor an infinity, its sign,
significand and exponent give a × 2^-CVTQ exactly, written below over the common scale 2^150, and for a = 0 it
is the word 0. -/
def Obligations.FixedToFloatIsExact : Prop :=
  ∀ (a : Sample) (q : Nat), q ≤ 19 →
    let r := fFromFix a q
    let d := fDyadic r
    fExp r < 255 ∧ (if d.s then -(d.m : Int) else d.m) * 2 ^ (d.e + 150).toNat = a.toInt * 2 ^ (150 - q) ∧
    (a = 0 → r = 0)

/-- MULLO, MULHI and MULHIU deliver the low and the high 20 bits of the exact product, signed for the first two
(R55). An accumulator update without CLR adds exactly, wraps at 48 bits and records in GOV the side on which the
exact sum left the range, poison gathering in AP; with CLR it loads (R57). The scale-out clamps where the guard
record or SAT asks for it, and is poisoned by AP, or by GOV where GOVACT is 0 (R58). -/
def Obligations.MultipliersAndAccumulatorsAreExact : Prop :=
  (∀ a b : Sample,
    ((fxMul 0x18 a b).1.toNat + (fxMul 0x18 a b).2.toNat * 2 ^ 20 : Int) = a.toInt * b.toInt % 2 ^ 40 ∧
    fxMul 0x19 a b = ((fxMul 0x18 a b).2, (fxMul 0x18 a b).1) ∧
    (fxMul 0x1A a b).2.toNat + (fxMul 0x1A a b).1.toNat * 2 ^ 20 = a.toNat * b.toNat) ∧
  (∀ (x : Acc) (u : Int) (p : Bool), -2 ^ 39 ≤ u → u ≤ 2 ^ 39 →
    (x.update u true p).v.toInt = u ∧ (x.update u true p).gov = 0 ∧ (x.update u true p).ap = p ∧
    ((x.update u false p).v.toInt - x.v.toInt - u) % 2 ^ 48 = 0 ∧ (x.update u false p).ap = (x.ap || p) ∧
    (2 ^ 47 ≤ x.v.toInt + u → (x.update u false p).gov = 1) ∧ (x.v.toInt + u < -2 ^ 47 → (x.update u false p).gov = 2) ∧
    (-2 ^ 47 ≤ x.v.toInt + u → x.v.toInt + u < 2 ^ 47 →
      (x.update u false p).gov = x.gov ∧ (x.update u false p).v.toInt = x.v.toInt + u)) ∧
  (∀ (x : Acc) (n : Nat) (sat : Bool), n < 48 →
    (x.scaleOut n sat 0).2 = (x.ap || decide (x.gov ≠ 0)) ∧ (x.scaleOut n sat 1).2 = x.ap ∧
    (x.gov = 1 → (x.scaleOut n sat 1).1 = 0x7FFFF#20) ∧ (x.gov = 2 → (x.scaleOut n sat 1).1 = 0x80000#20) ∧
    (x.gov = 0 → (x.scaleOut n true 1).1.toInt = max (-524288) (min 524287 (x.v.toInt / 2 ^ n))) ∧
    (x.gov = 0 → ((x.scaleOut n false 1).1.toInt - x.v.toInt / 2 ^ n) % 2 ^ 20 = 0))

/-- With e the state after any entry cycles still due (R98) and, for the instructions that take a cycle, u the state
after their one unstalled cycle: HALT halts with cause 1 at its own address, raises source 8r + 7 of the logical
region and keeps the loop stack, INH and EVT_RET (R92). REPEAT pushes an entry of its count, sets the pointers
as a loop start does and goes on, skips its body where the count is 0, or halts with cause 4 on a frozen stack
and 3 on a full one (R79, R80, R127). LSTK SAVE copies the stack, outermost level first, to the loop-save
registers and empties it; LSTK RESTORE replaces the stack by what those registers hold, which is what was saved,
frozen where INH is set (R91). The next address is the one END matching gives; an eligible boundary with a line
pending and enabled enters its handler (R81, R96, R98). A command for an instruction that does not stand at the
program counter only lets the entry cycles pass, and a stalled cycle is repeated (R47). What its clauses fix
beyond the rules is the model's choice (log entries 10 and 11). -/
def Obligations.LoopAndHaltInstructionsRun : Prop :=
  (∀ (r : Fin 64) (c : Instr) (op : Nat) (s : State), s.dead = false →
    (c = .halt r ∧ op = 0) ∨ (c = .repeatBlock r ∧ op = 2) ∨ (c = .shift r ∧ op = 6) ∨ (c = .signal r ∧ op = 7) →
    (s.passEntry r).occupies r op = false → exec c s = .next (s.ends (s.passEntry r))) ∧
  (∀ (r : Fin 64) (c : Instr) (op : Nat) (u s : State), s.dead = false → (s.passEntry r).occupies r op = true →
    let v := (s.passEntry r).instrAt r
    (c = .repeatBlock r ∧ op = 2) ∨ (c = .branch (r, 0) ∧ op = 3 ∧ bit v 39 = false) ∨ (c = .rete (r, 0) ∧ op = 3 ∧ bit v 39 = true) ∨
      (c = .shift r ∧ op = 6) ∨ (c = .signal r ∧ op = 7) ∨ (c = .lstkSave r ∧ op = 8 ∧ bit v 0 = false) ∨
      (c = .lstkRestore r ∧ op = 8 ∧ bit v 0 = true) →
    (s.passEntry r).regionCycle r (iCtx v) = (u, true) →
    exec c s = .next (s.ends (u.onRegion r (fun x => { x with st := .stall })))) ∧
  (∀ (r : Fin 64) (s : State), s.dead = false → (s.passEntry r).occupies r 0 = true →
    ∃ t, exec (.halt r) s = .next t ∧ s.haltsAs (s.passEntry r) t r 1 ((s.passEntry r).region r).pc) ∧
  (∀ (r : Fin 64) (u s : State), s.dead = false → (s.passEntry r).occupies r 2 = true →
    (s.passEntry r).oneCycle r = (u, true) →
    let v := (s.passEntry r).instrAt r
    let a := ((s.passEntry r).region r).pc
    let st := (u.region r).stack
    let c := min 65536 (if bit v 38 then u.rf (regionBase r + 0x28) 0 17 else fld v 0 17)
    let l : List LoopEnt := { start := a + 1, stop := fld v 24 8, count := c, int := bit v 39 } :: st
    ((∃ x ∈ st, x.frozen = true) → ∃ t, exec (.repeatBlock r) s = .next t ∧ s.haltsAs u t r 4 a) ∧
    ((∀ x ∈ st, x.frozen = false) → 4 ≤ st.length → ∃ t, exec (.repeatBlock r) s = .next t ∧ s.haltsAs u t r 3 a) ∧
    ((∀ x ∈ st, x.frozen = false) → st.length < 4 → c = 0 →
      ∃ t, exec (.repeatBlock r) s = .next t ∧ s.goesOn u t r (fld v 24 8 + 1) st) ∧
    ((∀ x ∈ st, x.frozen = false) → st.length < 4 → c ≠ 0 →
      ∃ t, exec (.repeatBlock r) s = .next t ∧ s.goesOn (u.onRegion r (fun x => x.loopStart)) t r (a + 1) l)) ∧
  (∀ (r : Fin 64) (u s : State), s.dead = false → (s.passEntry r).occupies r 8 = true →
    bit ((s.passEntry r).instrAt r) 0 = false → (s.passEntry r).oneCycle r = (u, true) →
    let m := endMatch ((s.passEntry r).region r).pc (u.region r).stack
    let w := u.lsave r m.2
    (∃ t, exec (.lstkSave r) s = .next t ∧ s.goesOn w t r m.1 []) ∧
    (m.2.length ≤ 4 → (∀ x ∈ m.2, x.count < 2 ^ 17 ∧ x.start < 256 ∧ x.stop < 256) →
      (∀ n, n < 4 → w.rb (regionBase r + 0x30 + 8 * n) 18 = decide (n < m.2.length)) ∧
      (∀ n x, m.2.reverse[n]? = some x → w.rf (regionBase r + 0x30 + 8 * n) 0 17 = x.count ∧
        w.rb (regionBase r + 0x30 + 8 * n) 17 = x.int ∧ w.rf (regionBase r + 0x34 + 8 * n) 0 8 = x.start ∧
        w.rf (regionBase r + 0x34 + 8 * n) 8 8 = x.stop) ∧
      w.lrestore r = m.2.map (fun x => { x with frozen := (u.region r).inh })) ∧
    (∀ o, (o < regionBase r + 0x30 ∨ regionBase r + 0x50 ≤ o) → w.rg o = u.rg o) ∧ { w with regs := u.regs } = u) ∧
  (∀ (r : Fin 64) (u s : State), s.dead = false → (s.passEntry r).occupies r 8 = true →
    bit ((s.passEntry r).instrAt r) 0 = true → (s.passEntry r).oneCycle r = (u, true) →
    ∃ t, exec (.lstkRestore r) s = .next t ∧
      s.goesOn u t r (endMatch ((s.passEntry r).region r).pc (u.region r).stack).1 (u.lrestore r))

/-- RUN, of which the command lets at most n cycles pass: where its remaining cycles of its context pass without a
stall, the region goes on at the address that END matching gives on its loop stack, or, where the RUN is a delay
slot, at its branch's target (R78, R81, R82); an eligible boundary with a line pending and enabled enters its
handler (R96). Where n is smaller, the others stay due. Where cycle i stalls, the region is in STALL with the
remaining cycles still due, and the stalled cycle is all that has happened since (R47, R76). Nothing but the
region's record changes besides. With no RUN at the program counter only entry cycles pass. How many of a RUN's
cycles one command passes is the model's own, log entry 42. -/
def Obligations.RunIssuesItsCyclesAndEnds : Prop :=
  (∀ (r : Fin 64) (n : Fin 65537) (s : State), s.dead = false → (s.passEntry r).occupies r 1 = true →
    ∃ t, exec (.runContext (r, n)) s = .next t ∧ s.runsTo (s.passEntry r) t r n) ∧
  (∀ (r : Fin 64) (n : Fin 65537) (s : State), s.dead = false → (s.passEntry r).occupies r 1 = false →
    exec (.runContext (r, n)) s = .next (s.ends (s.passEntry r)))

/-- With u the state after the instruction's own cycle: a condition that carries P halts the region with cause 2
(R84). A BRANCH that is not taken continues after its delay slot; a taken one pops POPL levels, clears its
pending bit where CLR asks for it, and continues at TARGET (R82, R83). A taken RETE continues at EVT_RET with
INH cleared, the loop stack unfrozen and EVT_RET invalid (R100). A taken one halts with cause 6 for a RETE with
INH 0, 5 where it pops more levels than there are, 4 where it pops a frozen one (R85, R100); their order is the
model's choice, log entry 12. The delay slot is the RUN behind the instruction, of which at most n cycles pass
in this command, log entry 42. A command for the other MODE, or with no BRANCH at the program counter, only lets
the entry cycles pass. -/
def Obligations.BranchesRunTheirDelaySlot : Prop :=
  (∀ (r : Fin 64) (n : Fin 65537) (back : Bool) (s : State), s.dead = false →
    ((s.passEntry r).occupies r 3 = false ∨ bit ((s.passEntry r).instrAt r) 39 ≠ back) →
    exec (if back then .rete (r, n) else .branch (r, n)) s = .next (s.ends (s.passEntry r))) ∧
  (∀ (r : Fin 64) (n : Fin 65537) (u s : State) (back : Bool), s.dead = false → (s.passEntry r).occupies r 3 = true →
    let e := s.passEntry r
    let v := e.instrAt r
    let a := (e.region r).pc
    let src := fld v 32 5
    let c := if back then .rete (r, n) else .branch (r, n)
    let popl := fld v 16 3
    bit v 39 = back → e.oneCycle r = (u, true) →
    ((e.condition r src).2 = true → ∃ t, exec c s = .next t ∧ s.haltsAs u t r 2 a) ∧
    ((e.condition r src).2 = false → (e.condition r src).1 = bit v 38 →
      let w := u.onRegion r (fun x => { x with delay := some { target := a + 2 }, pc := a + 1, st := .run })
      (iOp (w.instrAt r) = 1 → ∃ t, exec c s = .next t ∧ s.runsTo w t r n) ∧
      (iOp (w.instrAt r) ≠ 1 → exec c s = .next (s.ends w))) ∧
    ((e.condition r src).2 = false → (e.condition r src).1 ≠ bit v 38 →
      (back = true → (u.region r).inh = false → ∃ t, exec c s = .next t ∧ s.haltsAs u t r 6 a) ∧
      ((back = false ∨ (u.region r).inh = true) → (u.region r).stack.length < popl →
        ∃ t, exec c s = .next t ∧ s.haltsAs u t r 5 a) ∧
      ((back = false ∨ (u.region r).inh = true) → popl ≤ (u.region r).stack.length →
        (∃ l ∈ (u.region r).stack.take popl, l.frozen = true) → ∃ t, exec c s = .next t ∧ s.haltsAs u t r 4 a) ∧
      ((back = false ∨ (u.region r).inh = true) → popl ≤ (u.region r).stack.length →
        (∀ l ∈ (u.region r).stack.take popl, l.frozen = false) →
        let w := u.onRegion r (fun x => { x with
          stack := x.stack.drop popl, pc := a + 1, st := .run,
          delay := some { target := if back then x.evtRet else fld v 24 8, rete := back } })
        let w := if bit v 37 && 0x11 ≤ src && src ≤ 0x18 then w.setRb (regionBase r + 0xC) (src - 0x11) false else w
        (iOp (w.instrAt r) = 1 → ∃ t, exec c s = .next t ∧ s.runsTo w t r n) ∧
        (iOp (w.instrAt r) ≠ 1 → exec c s = .next (s.ends w)))))

/-- In a cycle of a WAIT in which the border condition holds, the WAIT ends at that cycle's boundary with WTO clear,
as WAIT and as WAIT_CONDITION_MET; in the last cycle of its timeout without it, it ends with WTO set; in any
other cycle the region is in WAIT with one cycle more counted, unless INTW lets it take an event at the cycle's
end (R86, R87, R96). WAIT_TIMEOUT lets the cycles of the timeout pass, each of which leaves the region waiting,
and ends with WTO set. Nothing issues in these cycles; the next address is that of END matching.
WAIT_CONDITION_MET changes nothing while the condition does not hold, nor WAIT_TIMEOUT where it holds or TMO is
0; with no WAIT at the program counter WAIT only lets the entry cycles pass. What its clauses fix beyond the
rules is the model's choice (log entries 10 and 27). -/
def Obligations.WaitsEndAsTheBorderStands : Prop :=
  (∀ (r : Fin 64) (s : State), s.dead = false → (s.passEntry r).atWait r = true →
    let e := s.passEntry r
    let v := e.instrAt r
    let tmo := fld v 0 16
    let n := (e.region r).waited + 1
    let u := e.idleCycle r
    let y : Region := { u.region r with st := .wait, waited := n }
    ((e.borderTick r).waitHolds r v = true →
      (∃ t, exec (.waitBorder r) s = .next t ∧ s.waitEnds e t r false) ∧
      (∃ t, exec (.waitConditionMet r) s = .next t ∧ s.waitEnds e t r false) ∧ exec (.waitTimeout r) s = .next (s.ends s)) ∧
    ((e.borderTick r).waitHolds r v = false → exec (.waitConditionMet r) s = .next (s.ends s) ∧
      (tmo ≠ 0 → tmo ≤ n → ∃ t, exec (.waitBorder r) s = .next t ∧ s.waitEnds e t r true) ∧
      (tmo = 0 → exec (.waitTimeout r) s = .next (s.ends s)) ∧
      ((tmo = 0 ∨ n < tmo) →
        ((bit v 39 = false ∨ y.eligible = false ∨ u.eventLine r = none) →
          ∃ t, exec (.waitBorder r) s = .next t ∧ t.region r = y ∧ s.onlyRegion u t r) ∧
        (∀ k, bit v 39 = true → y.eligible = true → u.eventLine r = some k →
          ∃ t, exec (.waitBorder r) s = .next t ∧ s.entersEvent u t r y k (e.region r).pc)))) ∧
  (∀ (r : Fin 64) (u s : State), s.dead = false → (s.passEntry r).atWait r = true →
    let e := s.passEntry r
    let v := e.instrAt r
    (e.borderTick r).waitHolds r v = false → (e.region r).waited < fld v 0 16 →
    waitsTo r (fld v 0 16 - (e.region r).waited - 1) e u →
    u.atWait r = true → (u.region r).st ≠ .entry → (u.borderTick r).waitHolds r (u.instrAt r) = false →
    fld (u.instrAt r) 0 16 ≠ 0 → fld (u.instrAt r) 0 16 ≤ (u.region r).waited + 1 →
    ∃ t, exec (.waitTimeout r) s = .next t ∧ s.waitEnds u t r true) ∧
  (∀ (r : Fin 64) (s : State), s.dead = false → (s.passEntry r).atWait r = false →
    exec (.waitBorder r) s = .next (s.ends (s.passEntry r)) ∧ exec (.waitConditionMet r) s = .next (s.ends s) ∧
    exec (.waitTimeout r) s = .next (s.ends s))

/-- The first cycle of a TAKE puts its request on the way to the scheduler and leaves the region in TAKE; at the end
of each of its cycles INTW lets a pending event withdraw it (R88, R96, R97). TASK_DELIVERED writes TASK_ID,
TASK_ARG and CXL and ends the TAKE at its boundary (R88, R227). A SHIFT without an arming only goes on; an armed
one changes the active half, empties the loop stack, clears INH and marks EVT_RET invalid, and continues at
ENTRY after the swap cycle (R89, R176, R177). SIGNAL raises each region source its MASK selects (R90). At each
boundary an eligible region with a line pending and enabled enters its handler (R96). What its clauses fix
beyond the rules is the model's choice (log entries 10 and 14). -/
def Obligations.TakesShiftsAndSignalsRun : Prop :=
  (∀ (r : Fin 64) (s : State), s.dead = false → iOp ((s.passEntry r).instrAt r) = 5 →
    let e := s.passEntry r
    let u := e.idleCycle r
    let first := decide ((e.region r).st = .run)
    let y : Region := if first then { u.region r with st := .take, withdrawing := false } else u.region r
    let w : State := if first then { u with sched := { u.sched with way := u.sched.way ++ [(16 + r.val, false)] } } else u
    let back := bit (u.instrAt r) 39 && !y.withdrawing && y.eligible && (u.eventLine r).isSome
    ((e.region r).st = .run ∨ (e.region r).st = .take) →
    (back = false → ∃ t, exec (.takeTask r) s = .next t ∧ t.region r = y ∧ s.onlyRegion w t r) ∧
    (back = true → ∃ t, exec (.takeTask r) s = .next t ∧ t.region r = { y with withdrawing := true } ∧
      s.onlyRegion { w with sched := { w.sched with way := w.sched.way ++ [(16 + r.val, true)] } } t r)) ∧
  (∀ (r : Fin 64) (s : State), s.dead = false →
    (iOp ((s.passEntry r).instrAt r) ≠ 5 ∨ (((s.passEntry r).region r).st ≠ .run ∧ ((s.passEntry r).region r).st ≠ .take)) →
    exec (.takeTask r) s = .next (s.ends (s.passEntry r))) ∧
  (∀ (r : Fin 64) (k : Fin 80) (g : Given) (s : State), s.dead = false → k.val = 16 + r.val →
    mget none s.sched.given k = some g →
    let w := { s with sched := { s.sched with given := mset none s.sched.given k none } }
    let w := (w.setRg (regionBase r + 0x24) (BitVec.ofNat 32 (2 ^ 17 + b2n g.cxl * 2 ^ 16 + g.task.getD 0))).setRg (regionBase r + 0x28) g.arg
    let w := w.onRegion r (fun x => { x with cxl := g.cxl })
    let u := (w.idleCycle r).onRegion r (fun x => { x with st := .run, withdrawing := false })
    let m := endMatch (u.region r).pc (u.region r).stack
    ((s.region r).st = .take → ∃ t, exec (.taskDelivered k) s = .next t ∧ s.goesOn u t r m.1 m.2) ∧
    ((s.region r).st ≠ .take → exec (.taskDelivered k) s = .next (s.ends w))) ∧
  (∀ (k : Fin 80) (s : State), mget none s.sched.given k = none → exec (.taskDelivered k) s = .next (s.ends s)) ∧
  (∀ (r : Fin 64) (u s : State), s.dead = false → (s.passEntry r).occupies r 6 = true →
    (s.passEntry r).oneCycle r = (u, true) → (u.region r).drl.st ≠ .armed →
    ∃ t, exec (.shift r) s = .next t ∧ s.goesOn u t r (((s.passEntry r).region r).pc + 1) (u.region r).stack) ∧
  (∀ (r : Fin 64) (u s : State), s.dead = false → (s.passEntry r).occupies r 6 = true →
    (s.passEntry r).oneCycle r = (u, true) → (u.region r).drl.st = .armed →
    let entry := fld ((s.passEntry r).instrAt r) 24 8
    let w := ((u.onRegion r (fun x => { x with pc := entry })).shiftSwap r).idleCycle r
    (∃ t, exec (.shift r) s = .next t ∧ s.goesOn w t r entry []) ∧ (w.region r).h = (!(u.region r).h) ∧
      (w.region r).stack = [] ∧ (w.region r).inh = false ∧ (w.region r).evtValid = false) ∧
  (∀ (r : Fin 64) (u s : State), s.dead = false → (s.passEntry r).occupies r 7 = true →
    (s.passEntry r).oneCycle r = (u, true) →
    let m := endMatch ((s.passEntry r).region r).pc (u.region r).stack
    let l := (List.range 7).filter (fun k => bit ((s.passEntry r).instrAt r) k)
    ∃ t, exec (.signal r) s = .next t ∧
      s.goesOn { u with raised := u.raised ++ l.map (fun k => 8 * u.logical r + k) } t r m.1 m.2)

/-- REGION_ENABLE of a region with EN 0 refuses with the lowest code of its check in REG_REASON, EN staying 0, or
sets EN and starts the sequencer at START_PC with an empty loop stack, INH, WTO and CXL clear, EVT_RET invalid
and the stall and cycle counts at 0; a region with EN 1 only takes START_PC, STOP and START in order (R8, R94,
R103, R104). REGION_DISABLE lets the cycle in progress end, completes or withdraws what it has with the
scheduler, lets an arming lapse and leaves STATE OFF and EN 0 in kickstand state (R94, R180, R193, R228). STOP
lets the cycle in progress end and halts a working, enabled region with cause 8, unless that cycle has halted
it; START of a halted, enabled region leaves it running at START_PC with a clean sequencer state (R93). What its
clauses fix beyond the rules is the model's choice (log entry 27). -/
def Obligations.RegionsEnableStopAndStart : Prop :=
  (∀ (r : Fin 64) (v : Word32) (s : State), s.dead = false →
    let b := regionBase r
    let w := s.setRf b 8 8 (fld v 8 8)
    let stops := fun u : State =>
      let y := u.endCycle r
      if u.seqIdle r = true ∨ u.regionEn r = false then u else if y.seqIdle r then y else y.halt r 8 (y.region r).pc
    let starts := fun u : State => if (u.region r).st ≠ .halted ∨ u.regionEn r = false then u else (u.setRb b 1 true).setRegion r { u.region r with
      stack := [], inh := false, evtValid := false, hcause := 0, haltPc := 0, wto := false, pc := u.rf b 8 8, st := .run, delay := none,
      runLeft := 0, waited := 0 }
    let acts := fun u : State => let x := if v.getLsbD 2 then stops u else u; if v.getLsbD 1 then starts x else x
    let does := fun z : State => exec (.regionEnable r v) s = .next (s.ends z)
    (s.rb b 0 = true → does (acts w)) ∧
    (∀ c ∈ w.regionCheck r, s.rb b 0 = false → (∀ d ∈ w.regionCheck r, c ≤ d) → does (w.setRf (b + 4) 0 16 c)) ∧
    (s.rb b 0 = false → w.regionCheck r = [] → does (acts ((w.setRb b 0 true).seqStart r)))) ∧
  (∀ (r : Nat) (s : State),
    let b := regionBase r
    let x := s.region r
    s.seqStart r = (((s.setRg64 (b + 0x70) 0).setRg64 (b + 0x80) 0).setRf (b + 0x24) 16 2 0).setRegion r { x.aguEnable with
      st := .run, pc := s.rf b 8 8, stack := [], inh := false, wto := false, cxl := false, evtValid := false, hcause := 0, haltPc := 0,
      delay := none, runLeft := 0, waited := 0,
      ports := (x.ports.filter (fun e => e.2.parkWait)).map (fun e => (e.1, { e.2 with pushed := false })) }) ∧
  (∀ (r : Fin 64) (v : Word32) (s : State), s.dead = false →
    let u := if s.regionEn r && !s.seqIdle r then s.endCycle r else s
    let w := ((u.setRf (regionBase r) 8 8 (fld v 8 8)).setRb (regionBase r) 0 false).setRb (regionBase r) 1 false
    let z := (if (w.region r).st = .take then { w with sched := { w.sched with way := w.sched.way ++ [(16 + r.val, true)] } } else w).schDiscard (16 + r)
    (s.regionEn r = false → exec (.regionDisable r v) s = .next (s.ends w)) ∧
    (s.regionEn r = true → ∃ t, exec (.regionDisable r v) s = .next t ∧ t.regionEn r = false ∧ s.onlyRegion z t r ∧
      (t.region r).parkedFrom (w.region r) ∧
      { t.region r with ports := (w.region r).ports, pinOut := (w.region r).pinOut } =
        { w.region r with
          st := .off, runLeft := 0, entryLeft := 0, delay := none, withdrawing := false,
          drl := { (w.region r).drl with st := if (w.region r).drl.st = .armed then .loaded else (w.region r).drl.st } })) ∧
  (∀ (r : Fin 64) (s : State), s.dead = false →
    let u := s.endCycle r
    let w := if (u.region r).st = .take then { u with sched := { u.sched with way := u.sched.way ++ [(16 + r.val, true)] } } else u
    ((s.seqIdle r = true ∨ s.regionEn r = false) → exec (.stop r) s = .next (s.ends s)) ∧
    (s.seqIdle r = false → s.regionEn r = true → u.seqIdle r = true → exec (.stop r) s = .next (s.ends u)) ∧
    (s.seqIdle r = false → s.regionEn r = true → u.seqIdle r = false →
      ∃ t, exec (.stop r) s = .next t ∧ s.haltsAs w t r 8 (u.region r).pc)) ∧
  (∀ (r : Fin 64) (s : State), s.dead = false →
    ((s.region r).st = .halted → s.regionEn r = true → ∃ t, exec (.start r) s = .next t ∧ s.startsAs s t r) ∧
    (((s.region r).st ≠ .halted ∨ s.regionEn r = false) → exec (.start r) s = .next (s.ends s)))

/-- PORT1_ACCESS on a region that is not on answers status 4; one that the owner state does not permit answers
status 1 and stores nothing (R120); a permitted one to a bank under preserving test, or behind one of the cell
that waits, waits and sets WAITING (R122). A permitted read with no write of its word due answers the word as
the checker delivers it, and what the checker finds is logged (R113, R116, R312). A permitted write answers
status 0, and its write phase is then due: in the bank cycle in which it starts for all 12 slots, two later for
a partial write; it starts in the next bank cycle in which port 1 of the bank is free (R116). Each restarts the
quiet time of a preserving test of its bank (R460). MEM_WRITE_PHASE in a region at rest with one write due lets
its cycles pass and stores the merged word with a fresh code, and leaves every other byte of memory alone
(R117); in a region that runs it changes nothing. What its clauses fix beyond the rules is the model's choice
(log entries 13, 16 to 18 and 28). -/
def Obligations.MemCellPortOneAccesses : Prop :=
  (∀ (m : Master) (r : Fin 64) (c : Fin 32) (w : Fin 1024) (op : P1Op) (s : State), s.settled = true → s.pstate r ≠ 0 →
    ∃ t, exec (.port1Access m r c w op) s = .next t ∧ t.out = s.out ++ [.answer m (cellAddr r c w) 4 0] ∧
      t.rg (nocBase + 0x30) = satInc32 (s.rg (nocBase + 0x30)) ∧ t.rb (nocBase + 0x74) 3 = true ∧
      t.raised = s.raised ++ (if s.rb (nocBase + 0x74) 19 then [1283] else []) ∧
      s.onlyRegs { t with out := s.out } [nocBase + 0x30, nocBase + 0x70, nocBase + 0x74]) ∧
  (∀ (m : Master) (r : Fin 64) (c : Fin 32) (w : Fin 1024) (op : P1Op) (s : State), s.settled = true → s.pstate r = 0 →
    s.portOneAllows m r c w (decide (op ≠ .read)) = false →
    ∃ t, exec (.port1Access m r c w op) s = .next t ∧ t.out = s.out ++ [.answer m (cellAddr r c w) 1 0] ∧
      t.rg (nocBase + 0x24) = satInc32 (s.rg (nocBase + 0x24)) ∧ t.raised = s.raised ∧
      s.onlyRegs { t with out := s.out } [nocBase + 0x24, nocBase + 0x70]) ∧
  (∀ (m : Master) (r : Fin 64) (c : Fin 32) (w : Fin 1024) (op : P1Op) (s : State), s.settled = true → s.pstate r = 0 →
    s.portOneAllows m r c w (decide (op ≠ .read)) = true →
    (s.lent r c w = true ∨ ∃ e ∈ s.p1Wait, e.2.1 = r.val ∧ e.2.2.1 = c.val) →
    ∃ t, exec (.port1Access m r c w op) s = .next t ∧ t.rb (memctl r c) 17 = true ∧
      t.p1Wait = s.p1Wait ++ [(m, r.val, c.val, w.val, op)] ∧
      s.onlyRegs { t with p1Wait := s.p1Wait } [memctl r c] ∧ t.raised = s.raised) ∧
  (∀ (m : Master) (r : Fin 64) (c : Fin 32) (w : Fin 1024) (op : P1Op) (s : State), s.pstate r = 0 →
    s.portOneAllows m r c w (decide (op ≠ .read)) = true → s.lent r c w = false →
    (∀ e ∈ s.p1Wait, ¬(e.2.1 = r.val ∧ e.2.2.1 = c.val)) →
    let a := cellAddr r c w
    let x := s.examine a
    let u := if x.ce then s.logPlane (planeOf r) .ce 1 a x.syn else if x.ue then s.logPlane (planeOf r) .ue 1 a x.syn else s
    let y := s.region r
    let k := y.portOneStart c w (match op with | .write slots _ => decide (slots = 0xFFF#12) | _ => false)
    let mine := decide ((s.march (planeOf r)).cur = 128 * planeIdx r + 4 * c.val + w.val % 4)
    (y.p1 = [] → k = mget 0 y.p1Busy (4 * c + w % 4)) ∧
    ∃ t, exec (.port1Access m r c w op) s = .next t ∧
      (∀ p, t.march p = if p = planeOf r ∧ mine = true then { s.march p with since := s.now } else s.march p) ∧
      (op = .read → (∀ b ∈ y.p1, ¬(b.cell = c.val ∧ b.word = w.val)) → t.region r = y.portOneTake c w k ∧
        s.onlyRegion { u with marches := t.marches, out := s.out ++ [.answer m a 0 x.data.toNat] } t r) ∧
      (∀ slots d, op = .write slots d →
        t.region r = (if slots = 0 then y else { y.portOneTake c w k with
          p1 := y.p1 ++ [{ cell := c, word := w, slots := slots, data := d, left := if slots = 0xFFF#12 then k + 1 else k + 3,
                           reads := decide (slots ≠ 0xFFF#12) }] }) ∧
        s.onlyRegion { s with marches := t.marches, out := s.out ++ [.answer m a 0 0] } t r) ∧
      (∀ b d, op = .bytes b d →
        t.region r = (if b = 0 then y else { y.portOneTake c w k with
          p1 := y.p1 ++ [{ cell := c, word := w, slots := 0, bytes := b, data := d, left := k + 3, reads := true }] }) ∧
        s.onlyRegion { s with marches := t.marches, out := s.out ++ [.answer m a 0 0] } t r)) ∧
  (∀ (r : Fin 64) (a : P1Write) (s : State), s.dead = false → s.resting r = true → (s.region r).p1 = [a] → 1 ≤ a.left →
    (a.reads = true → 3 ≤ a.left) → (s.region r).wrs = [] → (s.region r).rds = [] → (s.region r).fixes = [] →
    let x := s.examine (cellAddr r a.cell a.word)
    let ue := if a.reads then x.ue else a.ue
    ∃ t, exec (.memWritePhase r) s = .next t ∧ t = s.ends (iter (fun u => u.idleCycle r) a.left s) ∧
      lineAt t.mem (cellAddr r a.cell a.word) =
        (if a.bytes = 0 then mergeSlots x.raw ue (fun k => if a.slots.getLsbD k then some (lineChan a.data k) else none) []
          else mergeBytes x.raw ue a.bytes a.data) ∧
      t.code (cellAddr r a.cell a.word) = { wf := 3 } ∧ (t.region r).p1 = [] ∧
      (∀ b, b < cellAddr r a.cell a.word ∨ cellAddr r a.cell a.word + 32 ≤ b → readByte t.mem b = readByte s.mem b)) ∧
  (∀ (r : Fin 64) (s : State), s.dead = false → s.resting r = false → exec (.memWritePhase r) s = .next (s.ends s))

/-- OWNER_WRITE takes the other writable fields of MEMCTL in every case; where OWNER changes and a code of R121
applies, OWNER stays and MEM_REASON takes the lowest; otherwise OWNER takes the written state, and a change from
or to FABRIC lets an arming lapse (R121). MARCH_HANDBACK lets every access of the plane that waits proceed, in
order, each claiming its bank first: a bank under preserving test loses its borrow bit and WAITING, and the
engine, whose element is finished, turns to PREEMPTED, its quiet time beginning (R122, R460); a read then
answers the word. Only the registers named, the test's own record, port 1 of the bank and the answer change.
What its clauses fix beyond the rules is the model's choice (log entries 13 and 58). -/
def Obligations.OwnerWriteChecksAndHandback : Prop :=
  (∀ (r : Fin 64) (c : Fin 32) (v : Word32) (s : State), s.settled = true → s.dead = false →
    let o := memctl r c
    let old := s.owner r c
    let new := fld v 0 2
    let w := setFld (setFld (s.rg o) 4 8 (fld v 4 8)) 2 2 (if fld v 2 2 = 3 then 0 else fld v 2 2)
    (old = new → ∃ t, exec (.ownerWrite r c v) s = .next t ∧ t.rg o = w ∧ s.onlyRegs t [o] ∧ t.raised = s.raised) ∧
    (∀ k, old ≠ new → lowestCode (s.ownerCodes r c old new) = some k → ∃ t, exec (.ownerWrite r c v) s = .next t ∧ t.rg o = w ∧
      t.rg (planeBase (planeOf r) + 0xC800) = BitVec.ofNat 32 k ∧
      s.onlyRegs t [o, planeBase (planeOf r) + 0xC800] ∧ t.raised = s.raised) ∧
    (old ≠ new → lowestCode (s.ownerCodes r c old new) = none → ∃ t, exec (.ownerWrite r c v) s = .next t ∧
      t.rg o = setFld w 0 2 new ∧
      t.region r = { s.region r with drl := { (s.region r).drl with
        st := if (old = 0 ∨ new = 0) ∧ (s.region r).drl.st = .armed then .loaded else (s.region r).drl.st } } ∧
      (∀ p, p ≠ r.val → t.region p = s.region p) ∧ s.onlyRegs { t with regions := s.regions } [o] ∧ t.raised = s.raised)) ∧
  (∀ (p : Fin 4) (s : State), s.dead = false →
    let l := s.p1Wait.filter (fun e => planeOf e.2.1 == p.val)
    exec (.marchHandback p) s = .next (s.ends (l.foldl
      (fun u e => (u.claimOne e.2.1 e.2.2.1 e.2.2.2.1).portOneDo e.1 e.2.1 e.2.2.1 e.2.2.2.1 e.2.2.2.2)
      { s with p1Wait := s.p1Wait.filter (fun e => planeOf e.2.1 != p.val) }))) ∧
  (∀ (p : Fin 4) (m : Master) (r : Fin 64) (c : Fin 32) (w : Fin 1024) (s : State), s.dead = false →
    planeOf r = p.val → s.p1Wait = [(m, r.val, c.val, w.val, .read)] → s.lent r c w = true →
    s.portOneAllows m r c w false = true → (∀ b ∈ (s.region r).p1, ¬(b.cell = c.val ∧ b.word = w.val)) →
    let a := cellAddr r c w
    let x := s.examine a
    let u := ((s.setRb (memctl r c) (12 + w.val % 4) false).setRb (memctl r c) 17 false).setRf (mtStat p) 24 3 3
    let z := if x.ce then u.logPlane p .ce 1 a x.syn else if x.ue then u.logPlane p .ue 1 a x.syn else u
    ∃ t, exec (.marchHandback p) s = .next t ∧
      (∀ q, t.march q = if q = p.val then { s.march q with since := s.now, done := elementStart (elementAt (s.marchCycles q) + 1) }
        else s.march q) ∧
      t.region r = (s.region r).portOneTake c w ((s.region r).portOneStart c w false) ∧
      s.onlyRegion { z with p1Wait := [], marches := t.marches, out := s.out ++ [.answer m a 0 x.data.toNat] } t r)

/-- With e the state after the timeouts that come first (R153): PRODUCER_PUSH moves the oldest sample that the
producer holds to the end of the tail where the queue is enabled, holds fewer than 16 tail samples and is below
65,535 packets for an end mark, for a region port once the engine sees it, for a LINK while the network lets it
through; otherwise it changes nothing (R28, R142, R143, R293). CONSUMER_POP of an enabled queue takes the oldest
sample of the head for a MAC or a DMA channel that wants one, hands it to a LINK whose partner has room, or
completes a region's pop on its way once the engine sees it; the packet count falls with an end mark, and an
open mark counts the sample (R136, R143, R149). A sample whose parity is wrong is counted and noticed (R144,
R160). What its clauses fix beyond the rules is the model's choice (log entries 24 to 26 and 29). -/
def Obligations.QueuePushesAndPops : Prop :=
  (∀ (q : Fin 512) (c : Chan) (rest : List Chan) (s : State), s.dead = false →
    let e := s.timersFirst q 0
    let x := e.queue q
    let p := e.prod q
    let y : Queue := { x with tail := x.tail ++ [QSamp.ofChan c], pkts := x.pkts + b2n c.e,
                              tmr := if x.occ (e.simple q) = 0 then e.now else x.tmr }
    let room := x.on && decide (x.tail.length < 16) && (!c.e || decide (x.pkts < 65535))
    let goes := endpKind p != 5 || e.linkOpen (endpIndex p % 512) q
    e.portOf p = none → e.heldBy p = c :: rest →
    (room = true → goes = true → exec (.producerPush q) s = .next (s.ends { e.setQueue q y with held := mset [] e.held p rest })) ∧
    ((room = false ∨ goes = false) → exec (.producerPush q) s = .next (s.ends e))) ∧
  (∀ (q : Fin 512) (r i n : Nat) (c : Chan) (rest : List (Nat × Chan)) (s : State), s.dead = false →
    let e := s.timersFirst q 0
    let x := e.queue q
    let y : Queue := { x with tail := x.tail ++ [QSamp.ofChan c], pkts := x.pkts + b2n c.e,
                              tmr := if x.occ (e.simple q) = 0 then e.now else x.tmr }
    let room := x.on && decide (x.tail.length < 16) && (!c.e || decide (x.pkts < 65535))
    e.portOf (e.prod q) = some (r, i) → mget [] (e.region r).portWay i = (n, c) :: rest →
    (room = true → n + 1 ≤ e.noc.ns → exec (.producerPush q) s =
      .next (s.ends ((e.setQueue q y).onRegion r (fun z => { z with portWay := mset [] z.portWay i rest })))) ∧
    ((room = false ∨ e.noc.ns < n + 1) → exec (.producerPush q) s = .next (s.ends e))) ∧
  (∀ (q : Fin 512) (s : State), s.dead = false →
    let e := s.timersFirst q 0
    (∀ r i, e.portOf (e.prod q) = some (r, i) → mget [] (e.region r).portWay i = []) →
    (e.portOf (e.prod q) = none → e.heldBy (e.prod q) = []) → exec (.producerPush q) s = .next (s.ends e)) ∧
  (∀ (q : Fin 512) (h : QSamp) (rest : List QSamp) (s : State), (s.queue q).head = h :: rest →
    let x := s.queue q
    let m := b2n x.mark.isSome
    let b := planeBase (q / 128)
    ∃ z, s.popHead q = some (z, h.out) ∧ (z.queue q).head = rest ∧ (z.queue q).tail = x.tail ∧
      (z.queue q).pkts = x.pkts - b2n h.out.e ∧ (z.queue q).atBound = h.out.e ∧ (z.queue q).tmr = s.now ∧
      (x.mpend = false ∨ h.out.e = false → (z.queue q).mark = x.mark ∧ (z.queue q).marked = x.marked + m ∧
        (z.queue q).markPkts = x.markPkts + m * b2n h.out.e) ∧
      (x.mpend = true → h.out.e = true → (z.queue q).mark.isSome = true ∧ (z.queue q).marked = 0 ∧ (z.queue q).mpend = false) ∧
      (h.bad = true → z.rg (b + 0x2010) = satInc32 (s.rg (b + 0x2010)) ∧ z.rf (b + 0x2014) 0 9 = 256 + q.val % 128 ∧
        (z.queue q).notice = setBit x.notice 4 true ∧
        z.raised = s.raised ++ (if s.rb (queueBase q) 12 then [512 + q.val] else [])) ∧
      (h.bad = false → z.regs = s.regs ∧ z.raised = s.raised ∧ (z.queue q).notice = x.notice) ∧
      (∀ p, p ≠ q.val → z.queue p = s.queue p) ∧ s.onlyRegs { z with queues := s.queues } [b + 0x2010, b + 0x2014]) ∧
  (∀ (q : Fin 512) (c : Chan) (z s : State), s.dead = false → (s.queue q).on = true →
    let e := s.timersFirst q 1
    let p := e.cons q
    let l := endpIndex p % 512
    e.popHead q = some (z, c) → e.portOf p = none →
    (endpKind p ≠ 0 → endpKind p ≠ 5 → e.wants p = true →
      exec (.consumerPop q) s = .next (s.ends { z with taken := mset [] z.taken p (z.takenBy p ++ [c]) })) ∧
    (endpKind p = 5 → (e.queue l).tail.length + (e.heldBy (0x5000 + q)).length < 16 →
      exec (.consumerPop q) s = .next (s.ends { z with held := mset [] z.held (0x5000 + q) (z.heldBy (0x5000 + q) ++ [c]) })) ∧
    ((endpKind p = 0 ∨ (endpKind p ≠ 5 ∧ e.wants p = false) ∨
        (endpKind p = 5 ∧ 16 ≤ (e.queue l).tail.length + (e.heldBy (0x5000 + q)).length)) →
      exec (.consumerPop q) s = .next (s.ends e))) ∧
  (∀ (q : Fin 512) (r i n : Nat) (rest : List Nat) (c : Chan) (z s : State), s.dead = false → (s.queue q).on = true →
    let e := s.timersFirst q 1
    e.popHead q = some (z, c) → e.portOf (e.cons q) = some (r, i) → mget [] (e.region r).popWay i = n :: rest →
    (n + 1 ≤ e.noc.ns → exec (.consumerPop q) s =
      .next (s.ends (z.onRegion r (fun y => { y with popWay := mset [] y.popWay i rest })))) ∧
    (e.noc.ns < n + 1 → exec (.consumerPop q) s = .next (s.ends e))) ∧
  (∀ (q : Fin 512) (s : State), s.dead = false →
    ((s.queue q).on = false → exec (.consumerPop q) s = .next (s.ends s)) ∧
    ((s.queue q).on = true → ((s.timersFirst q 1).queue q).head = [] →
      exec (.consumerPop q) s = .next (s.ends (s.timersFirst q 1))))

/-- With e the state after the timeouts that come first (R153): Q_DATA_READ of a queue whose consumer is REG answers
V, P, E and the sample of the head's oldest, which is popped, and V 0 where the queue is disabled or its head
empty; of any other consumer it answers status 1. Q_DATA_WRITE to a REG producer pushes the sample or is refused
with status 1 where no push can complete; for any other producer it is refused (R142, R159). A refused access
changes nothing but the answer and what counts the status (R283). What its clauses fix beyond the rules is the
model's choice (log entries 29 and 38). -/
def Obligations.QueueDataRegisterReadsAndWrites : Prop :=
  (∀ (m : Master) (q : Fin 512) (s : State),
    let e := s.timersFirst q 1
    let a := 0x4200000000 + queueBase q + 0x3C
    let d := [27, 28, 35, 36].getD (q / 128) 0
    (e.cons q ≠ 0 → exec (.qDataRead m q) s = .next (s.ends { e.countStatus 1 d (masterRouter m) d with out := e.out ++ [.answer m a 1 0] })) ∧
    (e.cons q = 0 → ((e.queue q).on = false ∨ (e.queue q).head = []) →
      exec (.qDataRead m q) s = .next (s.ends { e with out := e.out ++ [.answer m a 0 0] })) ∧
    (∀ z c, e.cons q = 0 → (e.queue q).on = true → e.popHead q = some (z, c) →
      exec (.qDataRead m q) s = .next (s.ends { z with
        out := e.out ++ [.answer m a 0 (2 ^ 31 + b2n c.p * 2 ^ 21 + b2n c.e * 2 ^ 20 + c.v.toNat)] }))) ∧
  (∀ (m : Master) (q : Fin 512) (v : Word32) (s : State),
    let e := s.timersFirst q 0
    let x := e.queue q
    let a := 0x4200000000 + queueBase q + 0x3C
    let d := [27, 28, 35, 36].getD (q / 128) 0
    let c : Chan := { v := BitVec.ofNat 20 (fld v 0 20), e := v.getLsbD 20, p := v.getLsbD 21 }
    let y : Queue := { x with tail := x.tail ++ [QSamp.ofChan c], pkts := x.pkts + b2n c.e,
                              tmr := if x.occ (e.simple q) = 0 then e.now else x.tmr }
    let room := x.on && decide (x.tail.length < 16) && (!c.e || decide (x.pkts < 65535))
    (e.prod q = 0 → room = true →
      exec (.qDataWrite m q v) s = .next (s.ends { e.setQueue q y with out := e.out ++ [.answer m a 0 0] })) ∧
    ((e.prod q ≠ 0 ∨ room = false) →
      exec (.qDataWrite m q v) s = .next (s.ends { e.countStatus 1 d (masterRouter m) d with out := e.out ++ [.answer m a 1 0] }))) ∧
  (∀ (t src dest : Nat) (s : State), (s.countStatus 1 t src dest).rg (nocBase + 0x24) = satInc32 (s.rg (nocBase + 0x24)) ∧
    (s.countStatus 1 t src dest).raised = s.raised ∧
    s.onlyRegs (s.countStatus 1 t src dest) [nocBase + 0x24, nocBase + 0x70])

/-- With e the state after the timeouts that come first (R153): SHIP takes the samples that are due off the tail and
FLUSH the whole tail as far as the middle has room, one ring word after the other; at each word the write
position and the unread count advance by its samples, which are staged where they are the oldest unread and a
staging word is free, and an error response stops the queue (R137, R138, R147, R152); the places freed go back
to a region's port as credits (R136). MIDDLE_READ stages the samples of the word at the read position, or sets
MERR at an error response. HEAD_REFILL appends to the head the oldest staged samples, up to 12 and to its free
places, in order, and takes exactly those off the staging words (R138). SIMPLE_MODE_MOVE moves the buffer's
oldest sample to the head, then the tail's oldest to the buffer, where there is room (R141). Each leaves a queue
of the other mode, a disabled or a stopped one alone; FLUSH of a disabled queue stores 0x0314. What its clauses
fix beyond the rules is the model's choice (log entries 24 to 26 and 29). -/
def Obligations.QueueSamplesMoveInOrder : Prop :=
  (∀ (q : Fin 512) (n : Nat) (u s : State) (ok : Bool) (c : Instr), s.dead = false →
    let e := s.timersFirst q 0
    let x := e.queue q
    x.on = true → (c = .ship q ∧ n = e.shipDue q) ∨
      (c = .flush q ∧ n = if e.simple q || x.merr then 0 else max (min x.tail.length (e.ringFree q)) (e.shipDue q)) →
    let ts := x.tail.take n
    let w := ts.foldl (fun s t => if t.bad then s.parityError q false else s) e
    (n = 0 → exec c s = .next (s.ends e)) ∧
    (0 < n → (shipWords (e.mbase q) (e.ringCap q) x.wr (ts.map QSamp.out)).foldl (State.shipOne q) (w, true) = (u, ok) →
      exec c s = .next (s.ends (match u.portOf (u.prod q) with
        | some (r, i) => u.onRegion r (fun z => { z with
            credWay := mset [] z.credWay (64 + i)
              (mget [] z.credWay (64 + i) ++ List.replicate (x.tail.length - (u.queue q).tail.length) 3) })
        | none => u)))) ∧
  (∀ (q : Fin 512) (w : Nat × List (Nat × Chan)) (u s : State) (st : Nat),
    s.midWrite (queuePlane q) w.1 (shipMask w.2) (shipLine w.2) = (u, st) →
    let x := u.queue q
    let n := w.2.length
    (st ≠ 0 → State.shipOne q (s, true) w = (u.middleStop q, false)) ∧
    let fits := x.unread = x.staged ∧ x.stage.length < 8
    (st = 0 → State.shipOne q (s, true) w = (u.setQueue q { x with
      stage := if fits then x.stage ++ [w.2.map (fun a => lineChan (u.peekLine w.1) a.1)] else x.stage,
      rd := if fits then (x.rd + n) % u.ringCap q else x.rd, wr := (x.wr + n) % u.ringCap q, unread := x.unread + n,
      tail := x.tail.drop n }, true))) ∧
  (∀ (q : Fin 512) (s : State), s.dead = false →
    let e := s.timersFirst q 0
    (e.queue q).on = false → exec (.flush q) s = .next (s.ends (e.setRf (queueBase q + 4) 0 16 0x0314)) ∧
      exec (.ship q) s = .next (s.ends e) ∧ exec (.middleRead q) s = .next (s.ends e) ∧
      exec (.headRefill q) s = .next (s.ends e) ∧ exec (.simpleModeMove q) s = .next (s.ends e)) ∧
  (∀ (q : Fin 512) (u s : State) (a : MemAns), s.dead = false →
    let e := s.timersFirst q 0
    let x := e.queue q
    let n := min (x.unread - x.staged) (min (12 - x.rd % 12) (e.ringCap q - x.rd))
    let on := x.on && !e.simple q && !x.merr && decide (x.staged < x.unread) && decide (x.stage.length < 8)
    e.midRead (queuePlane q) (e.ringAddr q x.rd) = (u, a) →
    (on = true → a.status = 0 → exec (.middleRead q) s = .next (s.ends (u.setQueue q { u.queue q with
        stage := (u.queue q).stage ++ [(List.range n).map (fun k => lineChan a.x.data (x.rd % 12 + k))],
        rd := ((u.queue q).rd + n) % e.ringCap q }))) ∧
    (on = true → a.status ≠ 0 → exec (.middleRead q) s = .next (s.ends (u.middleStop q))) ∧
    (on = false → exec (.middleRead q) s = .next (s.ends e))) ∧
  (∀ (q : Fin 512) (s : State), s.dead = false →
    let e := s.timersFirst q 0
    let x := e.queue q
    let k := min 12 (16 - x.head.length)
    (x.on = true → e.simple q = false → x.merr = false → ∃ l, exec (.headRefill q) s = .next (s.ends (e.setQueue q { x with
        stage := l, unread := x.unread - (x.stage.flatten.take k).length,
        head := x.head ++ (x.stage.flatten.take k).map QSamp.ofChan })) ∧
      l.flatten = x.stage.flatten.drop k) ∧
    ((e.simple q = true ∨ x.merr = true) → exec (.headRefill q) s = .next (s.ends e))) ∧
  (∀ (q : Fin 512) (s : State), s.dead = false →
    let e := s.timersFirst q 0
    ((e.queue q).on = true → e.simple q = true → exec (.simpleModeMove q) s = .next (s.ends ((e.simpleOut q).simpleIn q))) ∧
    (e.simple q = false → exec (.simpleModeMove q) s = .next (s.ends e))) ∧
  (∀ (q : Fin 512) (u s : State) (a : MemAns),
    let x := s.queue q
    let on := !x.merr && decide (x.wp ≠ x.rp) && decide (x.head.length < 16)
    s.midRead (queuePlane q) (s.simpleAt q x.rp).1 = (u, a) →
    (on = false → s.simpleOut q = s) ∧ (on = true → a.status ≠ 0 → s.simpleOut q = u.middleStop q) ∧
    (on = true → a.status = 0 → s.simpleOut q = u.setQueue q { u.queue q with
      rp := (u.queue q).rp + 1, head := (u.queue q).head ++ [QSamp.ofChan (lineChan a.x.data (s.simpleAt q x.rp).2)] })) ∧
  (∀ (q : Fin 512) (h : QSamp) (rest : List QSamp) (u s : State) (st : Nat),
    let x := s.queue q
    let on := !x.merr && decide (x.wp - x.rp < 2 ^ s.rf (queueBase q + 0x18) 16 4)
    let w := if h.bad then s.parityError q false else s
    x.tail = h :: rest → w.midWrite (queuePlane q) (w.simpleAt q x.wp).1 (setBit 0 (w.simpleAt q x.wp).2 true)
      (shipLine [((w.simpleAt q x.wp).2, h.out)]) = (u, st) →
    (on = false → s.simpleIn q = s) ∧ (on = true → st ≠ 0 → s.simpleIn q = u.middleStop q) ∧
    (on = true → st = 0 → s.simpleIn q =
      (u.setQueue q { u.queue q with wp := (u.queue q).wp + 1, tail := rest }).tailFreed q 1)) ∧
  (∀ (q : Fin 512) (s : State), (s.queue q).tail = [] → s.simpleIn q = s)

/-- With e the state after the timeouts that come first (R153): SETMARK at a packet boundary places the mark at the
read position, and inside a packet waits for the next boundary (R149). REWIND of a queue with a mark and an
inactive consumer applies the pops still on their way, then returns the read position to the mark, with the head
and staging empty and the samples of head and mark unread again; the port that reads the queue presents nothing
until the head is refilled (R150). RELEASE drops the mark and a pending one. MARK_TIMEOUT drops the mark and
sets MLOST when MTMO ticks have passed, and else changes nothing (R151). Each is refused with 0x0314 while the
queue is disabled and with 0x0313 in simple mode, REWIND and RELEASE without a mark with 0x0310, REWIND with
0x0311 after a lost one and with 0x0312 while the consumer is active. What its clauses fix beyond the rules is
the model's choice (log entries 19, 24 and 29). -/
def Obligations.QueueMarksAndRewinds : Prop :=
  (∀ (q : Fin 512) (s : State) (c : Instr), s.dead = false →
    let e := s.timersFirst q 0
    c = .setmark q ∨ c = .rewind q ∨ c = .release q →
    ((e.queue q).on = false → exec c s = .next (s.ends (e.setRf (queueBase q + 4) 0 16 0x0314))) ∧
    ((e.queue q).on = true → e.simple q = true → exec c s = .next (s.ends (e.setRf (queueBase q + 4) 0 16 0x0313)))) ∧
  (∀ (q : Fin 512) (s : State), s.dead = false →
    let e := s.timersFirst q 0
    let x := e.queue q
    x.on = true → e.simple q = false →
    (x.atBound = true → exec (.setmark q) s = .next (s.ends (e.setQueue q { x with
      mark := some (e.readPos q), marked := 0, markPkts := 0, mpend := false, mlostf := false, mtmr := e.now }))) ∧
    (x.atBound = false → exec (.setmark q) s = .next (s.ends (e.setQueue q { x with mpend := true }))) ∧
    ((x.mark.isSome = true ∨ x.mpend = true) → exec (.release q) s = .next (s.ends (e.setQueue q { x with
      mark := none, marked := 0, markPkts := 0, mpend := false }))) ∧
    (x.mark = none → x.mpend = false → exec (.release q) s = .next (s.ends (e.setRf (queueBase q + 4) 0 16 0x0310))) ∧
    (x.mark = none → exec (.rewind q) s = .next (s.ends (e.setRf (queueBase q + 4) 0 16 (if x.mlostf then 0x0311 else 0x0310)))) ∧
    (x.mark.isSome = true → e.consumerActive q = true →
      exec (.rewind q) s = .next (s.ends (e.setRf (queueBase q + 4) 0 16 0x0312))) ∧
    (x.mark.isSome = true → e.consumerActive q = false →
      let u := e.popsLand q
      let y := u.queue q
      let z : Queue := { y with
        rd := y.mark.getD y.rd, unread := y.unread + y.head.length + y.marked, head := [], stage := [],
        pkts := y.pkts + y.markPkts, marked := 0, markPkts := 0, atBound := true, mtmr := e.now,
        tmr := if y.occ false = 0 then e.now else y.tmr }
      exec (.rewind q) s = .next (s.ends (match u.portOf (u.cons q) with
        | some (r, i) => (u.setQueue q z).onRegion r (fun a => { a with
            portVis := mset 0 a.portVis i 0, visWay := mset [] a.visWay i [] })
        | none => u.setQueue q z)) ∧ (e.portOf (e.cons q) = none → u = e) ∧
      (x.mpend = false → y.mark = x.mark))) ∧
  (∀ (q : Fin 512) (s : State), s.dead = false →
    let x := s.queue q
    let n := s.rf (queueBase q + 0x24) 16 14
    let due := decide (tickAt x.mtmr n (tickUnit (s.rf (queueBase q + 0x24) 30 2)) ≤ s.now)
    (x.on = true → x.mark.isSome = true → n ≠ 0 → due = true → exec (.markTimeout q) s = .next (s.ends ((s.setQueue q { x with
      mark := none, mlostf := true, marked := 0, markPkts := 0, notice := setBit x.notice 3 true }).raiseIf
        (s.rb (queueBase q) 11) (512 + q)))) ∧
    ((x.on = false ∨ x.mark = none ∨ n = 0 ∨ due = false) → exec (.markTimeout q) s = .next (s.ends s)))

/-- QUEUE_ENABLE of a queue with EN 0 refuses with the lowest code of R155 in Q_REASON, EN staying 0, or sets EN and
starts the queue empty and unmarked, its level flags as its watermarks ask, the region ports that feed and read
it at their starting credits with nothing to present (R136, R148, R155); with EN 1 it takes the writable fields.
QUEUE_DISABLE clears EN and discards tail, middle, head and mark; its counts and notices survive (R154).
QUEUE_TIMEOUT with the tick due restarts on it, sets TMOF and flushes the tail, and changes nothing before
(R146, R147); MIDDLE_ERROR of an enabled queue sets MERR and stops its middle (R152). Timeouts that fell due
earlier, or in this NoC cycle for what comes after them in it, are applied before a queue's next command, the
mark's first (R153). That HL and LL of a disabled queue read 0 is the model's choice, log entry 20. What its
clauses fix beyond the rules is the model's choice (log entries 21 and 29). -/
def Obligations.QueuesStartStopAndTimeOut : Prop :=
  (∀ (q : Fin 512) (v : Word32) (s : State), s.dead = false →
    let b := queueBase q
    let w := s.writeFields b (qCtrlSpec q) v
    let u := ((w.setRb b 0 true).headReset q).tailReset q
    let y : Queue := { on := true, hcnt := (s.queue q).hcnt, lcnt := (s.queue q).lcnt, notice := (s.queue q).notice }
    (s.rb b 0 = true → exec (.queueEnable q v) s = .next (s.ends w)) ∧
    (∀ c, s.rb b 0 = false → lowestCode (w.queueCheck q) = some c →
      exec (.queueEnable q v) s = .next (s.ends (w.setRf (b + 4) 0 16 c))) ∧
    (s.rb b 0 = false → lowestCode (w.queueCheck q) = none →
      exec (.queueEnable q v) s = .next (s.ends (u.setQueue q { y with hl := u.wantHigh q y, ll := u.wantLow q y })))) ∧
  (∀ (q : Fin 512) (s : State),
    (s.portOf (s.cons q) = none → s.headReset q = s) ∧ (s.portOf (s.prod q) = none → s.tailReset q = s) ∧
    (∀ r i, s.portOf (s.cons q) = some (r, i) → s.headReset q = s.onRegion r (fun x => { x with
      portVis := mset 0 x.portVis i 0, visWay := mset [] x.visWay i [], popWay := mset [] x.popWay i [] })) ∧
    (∀ r i, s.portOf (s.prod q) = some (r, i) → s.tailReset q = s.onRegion r (fun x => { x with
      credUsed := mset 0 x.credUsed (64 + i) (mget [] x.portWay i).length, credWay := mset [] x.credWay (64 + i) [] }))) ∧
  (∀ (q : Fin 512) (v : Word32) (s : State), s.dead = false →
    let b := queueBase q
    let u := (if (s.queue q).on then s.headReset q else s).setRb b 0 false
    exec (.queueDisable q v) s = .next (s.ends ((u.setQueue q
      { hcnt := (s.queue q).hcnt, lcnt := (s.queue q).lcnt, notice := (s.queue q).notice }).writeFields b (qCtrlSpec q) v))) ∧
  (∀ (q : Fin 512) (s : State), s.dead = false →
    let x := s.queue q
    let n := s.rf (queueBase q + 0x24) 0 14
    let at_ := tickAt x.tmr n (tickUnit (s.rf (queueBase q + 0x24) 14 2))
    let on := x.on && decide (x.occ (s.simple q) ≠ 0) && decide (n ≠ 0) && decide (at_ ≤ s.now)
    (on = true → exec (.queueTimeout q) s = .next (s.ends (((s.setQueue q { x with tmr := at_, notice := setBit x.notice 2 true }).raiseIf
      (s.rb (queueBase q) 10) (512 + q)).flushTail q))) ∧
    (on = false → exec (.queueTimeout q) s = .next (s.ends s))) ∧
  (∀ (q : Fin 512) (s : State), s.dead = false →
    ((s.queue q).on = true → exec (.middleError q) s = .next (s.ends ((s.setQueue q { s.queue q with
      merr := true, notice := setBit (s.queue q).notice 5 true }).raiseIf (s.rb (queueBase q) 13) (512 + q)))) ∧
    ((s.queue q).on = false → exec (.middleError q) s = .next (s.ends s))) ∧
  (∀ (q : Fin 512) (n : Nat) (s : State),
    let due : State := { s with now := s.now - n }
    let m := if due.markDue q then s.markDrop q else s
    (due.queueDue q = false → s.timersFirst q n = m) ∧ (due.queueDue q = true → s.timersFirst q n = m.queueFire q))

/-- PRELOAD from EMPTY or LOADED empties the inactive half and makes the derailleur BUSY with recipe REC, and is
otherwise refused with 0x0133. The preload's end brings the half it read and LOADED, or EMPTY with the code of
the first step that failed: 0x0137 for a read that fails, 0x0135 for a recipe not in the directory, 0x0136 for a
wrong digest, or the lowest of the checks (R171). ARM arms a loaded derailleur whose codes of R174 are none, and
otherwise leaves the lowest in REG_REASON; armed with that recipe it stays so. DISARM returns ARMED to LOADED.
SWAP on a region that is OFF or HALTED, with the expected recipe, exchanges the halves, clears the loop stack,
INH and EVT_RET.VALID, takes START_PC, EVT_EN and TASK_MASK of the new half and the time, and enters the park
samples; it is refused with the lowest of 0x0131, 0x0132 and 0x0134 (R177, R179). COMMIT releases the marks of
the last shift (R188). The check after a shift ends in LOADED or EMPTY (R178). Each refusal and end sets its
DRL_EVT bit and raises the plane's source where enabled (R197, R198). What its clauses fix beyond the rules is
the model's choice (log entry 30). -/
def Obligations.DerailleursPreloadArmAndSwap : Prop :=
  (∀ (r k : Fin 64) (s : State), s.dead = false →
    let b := regionBase r
    let x := s.region r
    let w := s.setRf (b + 0x100) 16 6 k
    ((x.drl.st = .empty ∨ x.drl.st = .loaded) → exec (.preload r k) s = .next (s.ends (w.setRegion r { x.setInactive {} with
      drl := { x.drl with st := .busy, job := .preload k, recInact := k } }))) ∧
    (x.drl.st ≠ .empty → x.drl.st ≠ .loaded → exec (.preload r k) s = .next (s.ends
      ((w.setRf (b + 0x108) 0 16 0x0133).event (b + 0x110) 1 9 (1856 + planeOf r))))) ∧
  (∀ (r : Fin 64) (n : Nat) (u : State) (y : Half) (code : Option Nat) (s : State), s.dead = false →
    (s.region r).drl.job = .preload n → s.preloadRead r n = (u, y, code) →
    let b := regionBase r
    let x := (u.region r).setInactive y
    (code = none → exec (.preloadDone r) s = .next (s.ends ((u.setRegion r { x with
      drl := { x.drl with st := .loaded, job := .idle } }).event (b + 0x110) 0 8 (1856 + planeOf r)))) ∧
    (∀ c, code = some c → exec (.preloadDone r) s = .next (s.ends (((u.setRegion r { x with
      drl := { x.drl with st := .empty, job := .idle } }).setRf (b + 0x108) 0 16 c).event (b + 0x110) 1 9 (1856 + planeOf r))))) ∧
  (∀ (r : Fin 64) (n : Nat) (u1 u2 u3 s : State) (dir dg sec : Option (List Line)),
    s.rawRange r (s.dirAddr n) 1 = (u1, dir) → u1.rawRange r (u1.dirAddr n + 0x1000 + 0x40 * r) 2 = (u2, dg) →
    u2.rawRange r (u2.sectionAddr n r) 2048 = (u3, sec) →
    (dir = none → s.preloadRead r n = (u1, {}, some 0x0137)) ∧
    (∀ l, dir = some l → (rawField l.toArray 0 1 % 2 = 0 ∨ (rawField l.toArray 8 8).testBit r = false) →
      s.preloadRead r n = (u1, {}, some 0x0135)) ∧
    (∀ l, dir = some l → rawField l.toArray 0 1 % 2 = 1 → (rawField l.toArray 8 8).testBit r = true →
      (dg = none → s.preloadRead r n = (u2, {}, some 0x0137)) ∧
      (∀ d, dg = some d → sec = none → s.preloadRead r n = (u3, {}, some 0x0137)) ∧
      (∀ d c, dg = some d → sec = some c → sha3Of512 (rawBytes c) ≠ rawBytes d →
        s.preloadRead r n = (u3, sectionHalf c.toArray, some 0x0136)) ∧
      (∀ d c, dg = some d → sec = some c → sha3Of512 (rawBytes c) = rawBytes d →
        s.preloadRead r n = (u3, sectionHalf c.toArray, lowestCode
          (State.stepFive (u3.setRegion r ((u3.region r).setInactive (sectionHalf c.toArray))) r ++ codeIf (sectionBad c.toArray) 0x0138))))) ∧
  (∀ (r k : Fin 64) (s : State), s.dead = false →
    let b := regionBase r
    let x := s.region r
    let w := s.setRf (b + 0x100) 16 6 k
    let same := decide (x.drl.st = .armed ∧ x.drl.recInact = k.val)
    (same = true → exec (.arm r k) s = .next (s.ends w)) ∧
    (same = false → w.armCodes r k = [] →
      exec (.arm r k) s = .next (s.ends (w.setRegion r { x with drl := { x.drl with st := .armed } }))) ∧
    (∀ c, same = false → c ∈ w.armCodes r k → (∀ d ∈ w.armCodes r k, c ≤ d) →
      exec (.arm r k) s = .next (s.ends ((w.setRf (b + 4) 0 16 c).event (b + 0x110) 2 10 (1856 + planeOf r)))) ∧
    exec (.disarm r) s = .next (s.ends (s.setRegion r { x with
      drl := { x.drl with st := if x.drl.st = .armed then .loaded else x.drl.st } }))) ∧
  (∀ (r k : Fin 64) (s : State), s.dead = false →
    let b := regionBase r
    let x := s.region r
    let d := x.drl
    let y := x.inactive
    let w := s.setRf (b + 0x100) 16 6 k
    let z := (((w.setRf b 8 8 y.startPc.toNat).setRf (b + 0x10) 0 8 y.evtEn.toNat).setRf (b + 0x20) 0 16 y.taskMask.toNat).setRg64
      (b + 0x118) s.now
    ((d.st = .loaded ∨ d.st = .armed) → d.recInact = k.val → s.seqIdle r = true →
      exec (.swap r k) s = .next (s.ends ((z.setRegion r { x with
        h := !x.h, stack := [], inh := false, evtValid := false,
        pinOut := x.pinOut ++ y.parks.map (fun e => { slot := e.1, c := { v := e.2 }, park := true }),
        drl := { d with st := .busy, job := .postShift, recAct := d.recInact, recInact := d.recAct } }).event
          (b + 0x110) 3 11 (1856 + planeOf r)))) ∧
    (¬((d.st = .loaded ∨ d.st = .armed) ∧ d.recInact = k.val ∧ s.seqIdle r = true) →
      exec (.swap r k) s = .next (s.ends ((w.setRf (b + 4) 0 16
        (if d.st ≠ .loaded ∧ d.st ≠ .armed then 0x0131 else if d.recInact ≠ k.val then 0x0132 else 0x0134)).event
          (b + 0x110) 1 9 (1856 + planeOf r))))) ∧
  (∀ (r : Fin 64) (s : State), s.dead = false →
    let u := (s.region r).drl.marked.foldl (fun v q => (v.timersFirst q 0).cmdRelease q) s
    exec (.commit r) s = .next (s.ends (u.setRegion r { u.region r with drl := { (u.region r).drl with marked := [], marks := false } }))) ∧
  (∀ (r : Fin 64) (s : State), s.dead = false →
    let b := regionBase r
    let x := s.region r
    (x.drl.job = .postShift → s.stepFive r = [] →
      exec (.postShiftCheck r) s = .next (s.ends (s.setRegion r { x with drl := { x.drl with st := .loaded, job := .idle } }))) ∧
    (∀ c ∈ s.stepFive r, x.drl.job = .postShift → (∀ d ∈ s.stepFive r, c ≤ d) →
      exec (.postShiftCheck r) s = .next (s.ends (((s.setRegion r { x with
        drl := { x.drl with st := .empty, job := .idle } }).setRf (b + 0x108) 0 16 c).event (b + 0x110) 1 9 (1856 + planeOf r)))) ∧
    (x.drl.job ≠ .postShift → exec (.postShiftCheck r) s = .next (s.ends s)) ∧
    ((∀ n, x.drl.job ≠ .preload n) → exec (.preloadDone r) s = .next (s.ends s)))

/-- MIGRATE to another region, refused with the lowest code of R189, marks both derailleurs MIGRATING. Its end lets
what is in flight land and copies the halves, registers, accumulators and every written MEM word onto the
target, which serves the source's grid place and queue ports from then on; the source is disabled, and the
target its substitute, or the substitution undone on the way back to the peer (R190, R191). A bank under
destructive test, or a failure, leaves both regions OFF, EMPTY and disabled with 0x0137 (R198, R475). PARK_PUSH
pushes the port's park sample with E once its queue has space (R181). CADENCE_FIRE of an enabled entry whose
time has come fires every due entry up to it in ascending order (R183, R185): an entry is spent, noted late
where it is, and raises its source or preloads, arms or disarms the regions of its mask (R184); before its time
it does nothing. What its clauses fix beyond the rules is the model's choice (log entry 30). -/
def Obligations.RegionsMigrateAndCadencesFire : Prop :=
  (∀ (r k : Fin 64) (s : State), s.dead = false →
    let b := regionBase r
    let w := s.setRf (b + 0x100) 24 6 k.val
    let u := w.setRegion r { w.region r with drl := { (w.region r).drl with wasSt := (w.region r).drl.st, st := .migrating, migTo := some k.val } }
    (w.migCodes r k = [] → exec (.migrate r k) s = .next (s.ends (u.setRegion k { u.region k with
      drl := { (u.region k).drl with wasSt := (u.region k).drl.st, st := .migrating, migFrom := some r.val } }))) ∧
    (∀ c ∈ w.migCodes r k, (∀ d ∈ w.migCodes r k, c ≤ d) →
      exec (.migrate r k) s = .next (s.ends ((w.setRf (b + 0x108) 0 16 c).event (b + 0x110) 1 9 (1856 + planeOf r))))) ∧
  (∀ (r k : Fin 64) (s : State), s.dead = false → r ≠ k → (s.region r).drl.migTo = some k.val →
    s.testedBank r = false → s.testedBank k = false →
    let u := (s.letLand r).letLand k
    let x := u.region r
    let back := x.drl.subof && x.drl.peer == k.val
    ∃ t, exec (.migrationDone r) s = .next t ∧
      (t.region k).h = x.h ∧ (t.region k).a = x.a ∧ (t.region k).b = x.b ∧ (t.region k).fx = x.fx ∧ (t.region k).fp = x.fp ∧
      (t.region k).agu = x.agu ∧ (t.region k).memOut = x.memOut ∧ (t.region k).stack = [] ∧ (t.region k).inh = false ∧
      (t.region k).evtValid = false ∧ (t.region k).ports = x.ports ∧ (t.region k).portWay = x.portWay ∧
      (t.region k).popWay = x.popWay ∧ (t.region k).portVis = x.portVis ∧
      (∀ i, i < 8 → mget 0 (t.region k).credUsed (64 + i) = mget 0 x.credUsed (64 + i)) ∧
      (t.region r).ports = [] ∧ (t.region r).portWay = [] ∧ (t.region r).popWay = [] ∧ (t.region r).portVis = [] ∧
      (t.region k).drl.st = x.drl.wasSt ∧ (t.region k).drl.recAct = x.drl.recAct ∧ (t.region k).drl.recInact = x.drl.recInact ∧
      (t.region r).st = .off ∧ (t.region r).drl.st = x.drl.wasSt ∧ (t.region r).drl.migTo = none ∧ (t.region r).drl.home = none ∧
      (t.region k).drl.home = (if u.logical r = k.val then none else some (u.logical r)) ∧ t.rb (regionBase r) 0 = false ∧
      (back = false → (t.region r).drl.subst = true ∧ (t.region r).drl.peer = k.val ∧ (t.region k).drl.subof = true ∧
        (t.region k).drl.peer = r.val) ∧
      (back = true → (t.region r).drl.subof = false ∧ (t.region k).drl.subst = false) ∧
      t.rf (regionBase k) 8 8 = u.rf (regionBase r) 8 8 ∧ t.rg (regionBase k + 0x10) = u.rg (regionBase r + 0x10) ∧
      t.rg (regionBase k + 0x20) = u.rg (regionBase r + 0x20) ∧ t.rg (regionBase k + 0x10C) = u.rg (regionBase r + 0x10C) ∧
      (∀ i, i < 8 → t.rg (regionBase k + 0x30 + 4 * i) = u.rg (regionBase r + 0x30 + 4 * i)) ∧
      (∀ c, c < 32 → t.rg (memctl k c) = u.rg (memctl r c)) ∧
      t.rb (regionBase r + 0x110) 4 = true ∧ t.rb (regionBase k + 0x110) 4 = true ∧
      (∀ c w, c < 32 → w < 1024 → (u.code (cellAddr r c w)).wf ≠ 0 →
        lineAt t.mem (cellAddr k c w) = (u.examine (cellAddr r c w)).data ∧
        (t.code (cellAddr k c w)).wf = (u.code (cellAddr r c w)).wf) ∧
      (∀ c w, c < 32 → w < 1024 → (u.code (cellAddr r c w)).wf = 0 → (t.code (cellAddr k c w)).wf = 0) ∧
      (∀ n, n ≠ r.val → n ≠ k.val → t.region n = u.region n)) ∧
  (∀ (r k : Fin 64) (s : State), s.dead = false → (s.region r).drl.migTo = some k.val →
    ((s.testedBank r = true ∨ s.testedBank k = true) → exec (.migrationDone r) s = exec (.migrationFailed r) s) ∧
    ∃ t, exec (.migrationFailed r) s = .next t ∧
      (∀ n, n = r.val ∨ n = k.val → (t.region n).st = .off ∧ (t.region n).drl.st = .empty ∧ (t.region n).drl.migTo = none ∧
        (t.region n).drl.subst = false ∧ (t.region n).drl.subof = false ∧ (t.region n).drl.home = none ∧
        t.rb (regionBase n) 0 = false ∧ t.rf (regionBase n + 0x108) 0 16 = 0x0137 ∧ t.rb (regionBase n + 0x110) 5 = true) ∧
      (∀ n, n ≠ r.val → n ≠ k.val → t.region n = s.region n)) ∧
  (∀ (r : Fin 64) (s : State), s.dead = false → (s.region r).drl.migTo = none →
    exec (.migrationDone r) s = .next (s.ends s) ∧ exec (.migrationFailed r) s = .next (s.ends s)) ∧
  (∀ (r : Fin 64) (i : Fin 8) (s : State), s.dead = false →
    let x := s.region r
    let v := mget 0 x.active.portRec i
    let c : Chan := { v := BitVec.ofNat 20 (fld v 0 20), e := true, p := v.getLsbD 20 }
    let may := (s.outQueue r i).isSome && (mget {} x.ports i).parkWait && decide (mget 0 x.credUsed (64 + i.val) < 16)
    (may = true → exec (.parkPush r i) s = .next (s.ends (s.setRegion r { x with
      portWay := mset [] x.portWay i (mget [] x.portWay i ++ [(s.noc.ns, c)]),
      credUsed := mset 0 x.credUsed (64 + i.val) (mget 0 x.credUsed (64 + i.val) + 1),
      lastOut := mset {} x.lastOut (64 + i.val) c, ports := mset {} x.ports i { pushed := true, lastE := true } }))) ∧
    (may = false → exec (.parkPush r i) s = .next (s.ends s))) ∧
  (∀ (n : Fin 128) (s : State), s.dead = false →
    (s.cadDue n = true → exec (.cadenceFire n) s =
      .next (s.ends (((List.range (n + 1)).filter (fun j => s.cadDue j)).foldl State.cadOne s))) ∧
    (s.cadDue n = false → exec (.cadenceFire n) s = .next (s.ends s))) ∧
  (∀ (n : Fin 128) (s : State),
    let e := evBase + 0x8000 + 0x20 * n.val
    let late := s.cadLate.contains n.val
    let w := (((s.setRb (e + 8) 31 false).setRb (e + 8) 30 late).setRg (evBase + 0x9004)
      (BitVec.ofNat 32 (2 ^ 31 + b2n late * 2 ^ 30 + n.val)))
    let w : State := { w with cadLate := s.cadLate.filter (fun j => j != n.val) }
    let act := s.rf (e + 8) 24 4
    let k := s.rf (e + 8) 16 6
    let l := (List.range 64).filter (fun r => (s.rg64 (e + 0x10)).testBit r)
    s.cadDue n = (s.rb (evBase + 0x9000) 0 && s.rb (e + 8) 31 && decide (s.rg64 e ≤ s.now)) ∧
    (act = 4 → s.cadOne n = { w with raised := w.raised ++ [2032 + s.rf (e + 8) 0 4] }) ∧
    (act = 1 → s.cadOne n = l.foldl (fun u r => u.drlPreload r k) w) ∧
    (act = 2 → s.cadOne n = l.foldl (fun u r => u.drlArm r k) w) ∧
    (act = 3 → s.cadOne n = l.foldl (fun u r => u.drlDisarm r) w))

/-- While the part has not entered the fatal path: FNOW_STEP of a freewheel region that is not powered off moves
RCLK_STAT.FNOW one code toward the effective target, which is RCLK_CTRL's minimum while THERM_N is driven
(R204), and changes nothing for another region. DROOP_TRIP counts the trip, shows STRETCH in a freewheel region
only and raises source 1990, once in a control cycle (R205, R219, R221); DROOP_TRIP_END ends the trip and clears
STRETCH; MARGIN_ALARM records the margin and raises source 1991 exactly where a timed region's margin is below
MGUARD (R213). Each answers exactly the state named. That commands of one nanosecond of the model's network time
are one control cycle is the model's choice, log entry 43. -/
def Obligations.FreewheelClockCommandsRun : Prop :=
  (∀ (r : Fin 64) (s : State), s.dead = false →
    let n := s.rf (rclk r + 4) 0 7
    let lo := s.rf (rclk r) 8 7
    let goal := if s.signals.therm then lo else max lo (min (s.rf (rclk r) 24 7) (s.rf (rclk r) 16 7))
    (s.rb (rclk r) 0 = true → s.pstate r ≠ 2 → exec (.fnowStep r) s =
      .next (s.ends (s.setRf (rclk r + 4) 0 7 (if n < goal then n + 1 else if goal < n then n - 1 else n)))) ∧
    ((s.rb (rclk r) 0 = false ∨ s.pstate r = 2) → exec (.fnowStep r) s = .next (s.ends s))) ∧
  (∀ (r : Fin 64) (s : State), s.dead = false →
    let b := regionBase r
    let u := s.setRg (b + 0x214) (satInc32 (s.rg (b + 0x214)))
    let w := (u.setRegion r { s.region r with trip := true }).setRb (rclk r + 4) 8 (s.rb (rclk r) 0)
    (s.mtime.droopAt = some s.noc.ns → exec (.droopTrip r) s = .next (s.ends w)) ∧
    (s.mtime.droopAt ≠ some s.noc.ns → exec (.droopTrip r) s = .next (s.ends
      { w with mtime := { s.mtime with droopAt := some s.noc.ns }, raised := s.raised ++ [1990] })) ∧
    exec (.droopTripEnd r) s = .next (s.ends ((s.setRegion r { s.region r with trip := false }).setRb (rclk r + 4) 8 false))) ∧
  (∀ (r m : Fin 64) (s : State), s.dead = false →
    let u := s.setRf (regionBase r + 0x210) 16 6 m
    let low := m.val < s.rf (govBase + 0x10C) 0 6
    (s.rb (rclk r) 0 = false → low → exec (.marginAlarm r m) s = .next (s.ends { u with raised := s.raised ++ [1991] })) ∧
    ((s.rb (rclk r) 0 = true ∨ ¬low) → exec (.marginAlarm r m) s = .next (s.ends u)))

/-- MT_ENABLE while EN is 0 takes the fields of MT_CTRL and, where the discipline is reserved or its port has
PTPROLE 0 or 3, refuses with GOV_REASON 0x0E02, EN staying 0; otherwise EN rises and a discipline begins in
ACQUIRE (R208, R211). While EN is 1 it writes the fields that may change then. MT_DISABLE while EN is 1 is
refused with 0x0E01 where an enabled timed region exists; otherwise EN falls and a discipline ends in FREE
(R211). A change of state raises source 1984 and starts the counts afresh; in FREE no correction is applied
(R207, R210). Each answers exactly the state named. What its clauses fix beyond the rules is the model's choice
(log entry 31). -/
def Obligations.MachineTimeEnableAndDisable : Prop :=
  (∀ (x : Nat) (s : State),
    let m := { s.mtime with good := 0, big := 0, edged := false, holdTold := false,
                            holdFrom := if x = 4 then s.now else s.mtime.holdFrom,
                            hist := if x = 1 then [] else s.mtime.hist }
    let u := if x = 1 then s.setRg (govBase + 0x1C) 0 else s
    (s.mtState = x → s.mtGo x = s) ∧
    (s.mtState ≠ x → s.mtGo x = { (u.setRf (govBase + 8) 0 3 x) with mtime := m, raised := s.raised ++ [1984] })) ∧
  (∀ (v : Word32) (s : State), s.rb govBase 0 = false →
    let src := fld v 1 2
    let w := s.setRg govBase (regTakes mtCtrlSpec false (s.rg govBase) (setBit v 0 true))
    let role := s.rf (0x810000 + 0x4000 * fld v 4 2) 5 2
    let bad := src = 3 ∨ (src = 2 ∧ (role = 0 ∨ role = 3))
    (bad → exec (.mtEnable v) s = .next (s.ends (w.setRf (govBase + 4) 0 16 0x0E02))) ∧
    (¬bad → src = 0 → exec (.mtEnable v) s = .next (s.ends (w.setRb govBase 0 true))) ∧
    (¬bad → src ≠ 0 → exec (.mtEnable v) s = .next (s.ends ((w.setRb govBase 0 true).mtGo 2)))) ∧
  (∀ (v : Word32) (s : State), s.rb govBase 0 = true →
    exec (.mtEnable v) s = .next (s.ends (s.setRg govBase (regTakes mtCtrlSpec true (s.rg govBase) (setBit v 0 true))))) ∧
  (∀ (v : Word32) (s : State),
    let u := s.setRb govBase 0 false
    let w := u.setRg govBase (regTakes mtCtrlSpec false (u.rg govBase) (setBit v 0 false))
    (s.rb govBase 0 = true → (∃ r, r < 64 ∧ s.regionEn r = true ∧ s.freewheel r = false) →
      exec (.mtDisable v) s = .next (s.ends
        ((s.setRg govBase (regTakes mtCtrlSpec true (s.rg govBase) (setBit v 0 false))).setRf (govBase + 4) 0 16 0x0E01))) ∧
    (s.rb govBase 0 = true → (∀ r, r < 64 → s.regionEn r = true → s.freewheel r = true) →
      exec (.mtDisable v) s = .next (s.ends (if s.mtSrc = 0 then w else w.mtGo 1))) ∧
    (s.rb govBase 0 = false → exec (.mtDisable v) s = .next (s.ends w)))

/-- With the Sync discipline at work MT_SYNC_OFFSET marks Sync as present, ends a HOLDOVER in ACQUIRE, lets the
offset act and steers; with no Sync discipline it changes nothing. The offset goes to MT_OFFSET. In LOCKED four
offsets above STEPMAX in a row lead to ACQUIRE; in ACQUIRE eight of at most 100 ns in a row lead to LOCKED, and
one above STEPMAX with STEP set moves the counter by the multiple of 4 ns nearest to it, counted in MT_STATUS,
with source 1985 and the cadence entries passed noted (R208); a tie of two multiples is the free value
Config.stepUp. Steering writes a correction within 250,000 ppb to MT_FADJ, at most MAXSLEW ppb from every one in
effect in the last millisecond, where those lie in these bounds themselves (R207). What the servo chooses within
them is a free value. What its clauses fix beyond the rules is the model's choice (log entry 31). -/
def Obligations.SyncOffsetSteersMachineTime : Prop :=
  (∀ (off : Int) (s : State),
    let u := s.setRb (govBase + 8) 5 true
    let v := if s.mtState = 4 then u.mtGo 2 else u
    (s.mtOn = true → s.mtSrc = 2 → exec (.mtSyncOffset off) s = .next (s.ends (v.mtOffset off true).steer)) ∧
    ((s.mtOn = false ∨ s.mtSrc ≠ 2) → exec (.mtSyncOffset off) s = .next (s.ends s))) ∧
  (∀ (off : Int) (may : Bool) (v : State),
    let w := v.setRg (govBase + 0x18) (satInt32 off)
    let big := (v.rg (govBase + 0x24)).toNat < off.natAbs
    let good := if off.natAbs ≤ 100 then v.mtime.good + 1 else 0
    let bads := if big then v.mtime.big + 1 else 0
    let z := if v.rb govBase 8 = true ∧ big ∧ may = true then w.mtStep off else w
    let zg : State := { z with mtime := { v.mtime with good := good } }
    let wb : State := { w with mtime := { v.mtime with big := bads } }
    (v.mtState = 2 → v.mtOffset off may = if 8 ≤ good then zg.mtGo 3 else zg) ∧
    (v.mtState = 3 → v.mtOffset off may = if 4 ≤ bads then wb.mtGo 2 else wb) ∧
    (v.mtState ≠ 2 → v.mtState ≠ 3 → v.mtOffset off may = w)) ∧
  (∀ (off : Int) (v : State),
    let n := ((v.now : Int) + stepOf off).toNat % 2 ^ 64
    let l := (List.range 128).filter (fun k => v.rb (evBase + 0x8008 + 0x20 * k) 31 &&
      decide (v.rg64 (evBase + 0x8000 + 0x20 * k) < n) && !v.cadLate.contains k)
    stepOf off % 4 = 0 ∧ (stepOf off - off).natAbs ≤ 2 ∧
    v.mtStep off = { (v.setRf (govBase + 8) 16 16 (min 65535 (v.rf (govBase + 8) 16 16 + 1))) with
                     now := n, raised := v.raised ++ [1985], cadLate := v.cadLate ++ l }.gridMoved) ∧
  (∀ v : State, (∀ e ∈ v.mtime.hist, e.2.natAbs ≤ 250000) →
    (∀ a ∈ v.fadjLately, ∀ b ∈ v.fadjLately, a - b ≤ v.rf govBase 16 8) →
    ∃ f : Int, v.steer = { v.applyFadj f with fresh := v.fresh + 1 } ∧ f.natAbs ≤ 250000 ∧
      ∀ a ∈ v.fadjLately, (f - a).natAbs ≤ v.rf govBase 16 8) ∧
  (∀ (f : Int) (v : State),
    (v.applyFadj f).mtime.hist.head? = some (v.noc.ns, f) ∧
      { v.applyFadj f with mtime := { (v.applyFadj f).mtime with hist := v.mtime.hist } } = v.setRg (govBase + 0x1C) (satInt32 f))

/-- PPS_EDGE records machine time in MT_PPSCAP and marks the input as present; with the PPS discipline at work it
ends a HOLDOVER whose reference is back, and its offset from the nearest whole second acts as R208 says, the
first edge of an acquisition stepping; in LOCKED an edge more than 4 ns off is counted and raises source 1986
(R209). MT_INPUT_LOSS clears the input's bit; the loss of the discipline's own input puts machine time into
HOLDOVER, for Sync with its port event and with the average of the corrections of the last 16 s held (R210).
MT_REF_RETURN sets the bit and leads a PPS discipline from HOLDOVER to ACQUIRE. HOLDMAX_EXCEEDED raises source
1987 once where HOLDOVER has outlasted HOLDMAX (R210). Each answers exactly the state named. What its clauses
fix beyond the rules is the model's choice (log entry 31). -/
def Obligations.MachineTimeInputsComeAndGo : Prop :=
  (∀ t : Nat, ((t : Int) + ppsOffset t) % 1000000000 = 0 ∧ -500000000 ≤ ppsOffset t ∧ ppsOffset t < 500000000) ∧
  (∀ s : State,
    let u := (s.setRg64 (govBase + 0x28) s.now).setRb (govBase + 8) 4 true
    let v := if s.mtState = 4 ∧ s.mtime.refLost = false then u.mtGo 2 else u
    let w := ({ v with mtime := { v.mtime with edged := true } } : State).mtOffset (ppsOffset s.now) (!v.mtime.edged)
    (s.mtOn = true → s.mtSrc = 1 → v.mtState = 3 → 4 < (ppsOffset s.now).natAbs →
      exec .ppsEdge s = .next (s.ends ((w.setRg (govBase + 0x30) (satInc32 (s.rg (govBase + 0x30)))).raise 1986))) ∧
    (s.mtOn = true → s.mtSrc = 1 → (v.mtState ≠ 3 ∨ (ppsOffset s.now).natAbs ≤ 4) → exec .ppsEdge s = .next (s.ends w)) ∧
    ((s.mtOn = false ∨ s.mtSrc ≠ 1) → exec .ppsEdge s = .next (s.ends u))) ∧
  (∀ (k : Fin 3) (s : State),
    let u := s.setRb (govBase + 8) (5 - k.val) false
    let v : State := { u with mtime := { s.mtime with refLost := s.mtime.refLost || k.val == 2 } }
    let p := s.rf govBase 4 2
    ((s.mtOn = false ∨ ¬(s.mtSrc = 2 ↔ k = 0)) → exec (.mtInputLoss k) s = .next (s.ends v)) ∧
    (s.mtOn = true → s.mtSrc ≠ 2 → k ≠ 0 → exec (.mtInputLoss k) s = .next (s.ends (v.mtGo 4))) ∧
    (s.mtOn = true → s.mtSrc = 2 → k = 0 → exec (.mtInputLoss k) s =
      .next (s.ends (((v.event (0x81000C + 0x4000 * p) 5 21 (1541 + 24 * p)).holdFadj).mtGo 4)))) ∧
  (∀ (f : Int) (v : State), (∀ e ∈ v.mtime.hist, e.2 = f) →
    ((∃ e ∈ v.mtime.hist, e.1 < v.noc.ns) → v.holdFadj = v.applyFadj f) ∧ (v.mtime.hist = [] → v.holdFadj = v)) ∧
  (∀ (t1 t2 : Nat) (f1 f2 : Int) (v : State), v.noc.ns = t2 + 8000000000 → t1 + 8000000000 = t2 →
    v.mtime.hist = [(t2, f2), (t1, f1)] → v.holdFadj = v.applyFadj ((f1 + f2) / 2)) ∧
  (∀ s : State,
    let u := s.setRb (govBase + 8) 3 true
    let v : State := { u with mtime := { s.mtime with refLost := false } }
    exec .mtRefReturn s = .next (s.ends (if s.mtOn = true ∧ s.mtSrc = 1 ∧ s.mtState = 4 then v.mtGo 2 else v))) ∧
  (∀ s : State,
    let due := s.mtState = 4 ∧ s.mtime.holdTold = false ∧ s.mtime.holdFrom + 1000000000 * s.rf (govBase + 0x20) 0 16 < s.now
    (due → exec .holdmaxExceeded s =
      .next (s.ends { s with mtime := { s.mtime with holdTold := true }, raised := s.raised ++ [1987] })) ∧
    (¬due → exec .holdmaxExceeded s = .next (s.ends s)))

/-- SENSOR_REFRESH writes the readings to TEMPn and the RMON of each region, drives THERM_N from THOT on until every
reading is 5 degrees below it, and raises sources 1988 and 1989 once until the readings have fallen back by 2
degrees; a first reading of 125 degrees or more leads into the fatal path with cause 3, its sensor and its
reading (R212). VTARGET_WRITE takes a value within the limits that is a multiple of 5 mV and no forbidden
lowering, and refuses any other with GOV_REASON 0x0E03 or VREFUSED (R213, R484). AVS_VOLTAGE_READ updates VNOW
once RUNNING has risen; AVS_STEP_WRITE issues the next write of the series, of at most 50 mV, 10 microseconds
after the last acknowledgement, ends the series at its goal, and gives up a lowering that the margins now
forbid; AVS_TRANSACTION_END records an acknowledged write, or a failure with source 1992 (R484). Each answers
exactly the state named. What its clauses fix beyond the rules is the model's choice (log entry 32). -/
def Obligations.SensorsAndCoreVoltage : Prop :=
  (∀ (n : Nat) (v : BitVec 12) (s : State),
    let u := s.setRf (govBase + 0x200 + 4 * n) 0 12 v.toNat
    s.setTemp n v = if n < 64 then u.setRf (regionBase n + 0x210) 0 12 v.toNat else u) ∧
  (∀ (vals : List (BitVec 12)) (s : State),
    let u := ((vals.take 69).zipIdx).foldl (fun (v : State) e => v.setTemp e.2 e.1) s
    let warn : Int := 4 * (u.rf (govBase + 0x110) 0 8 : Int)
    let hot : Int := 4 * (u.rf (govBase + 0x110) 8 8 : Int)
    let l := (List.range 69).map (fun n => (BitVec.ofNat 12 (u.rf (govBase + 0x200 + 4 * n) 0 12)).toInt)
    let isWarn := l.any (fun t => decide (warn ≤ t))
    let isHot := l.any (fun t => decide (hot ≤ t))
    let w : State := { u with
                       signals := { s.signals with therm := isHot || (s.signals.therm && !l.all (fun t => decide (t < hot - 20))) }
                       raised := s.raised ++ (if isWarn && !s.mtime.warnOff then [1988] else []) ++
                         (if isHot && !s.mtime.hotOff then [1989] else [])
                       mtime := { s.mtime with
                                  warnOff := isWarn || (s.mtime.warnOff && !l.all (fun t => decide (t ≤ warn - 8)))
                                  hotOff := isHot || (s.mtime.hotOff && !l.all (fun t => decide (t ≤ hot - 8))) } }
    ((s.dead = true ∨ ∀ t ∈ l, t < 500) → exec (.sensorRefresh vals) s = .next (s.ends w)) ∧
    (∀ n t, s.dead = false → l[n]? = some t → 500 ≤ t → (∀ k, k < n → l.getD k 0 < 500) →
      let x := u.rf (govBase + 0x200 + 4 * n) 0 12
      exec (.sensorRefresh vals) s = .next (s.ends (((w.lbAppend 0x0030 [(n, 4), (x, 4)]).raise 1989).enterFatal 3 n x)))) ∧
  (∀ (v : Word32) (s : State),
    let n := fld v 0 10
    let was := s.rf (govBase + 0x104) 0 10
    let bad := n < max 650 (s.rf (govBase + 0x108) 0 10) ∨ min 850 (s.rf (govBase + 0x108) 16 10) < n ∨ n % 5 ≠ 0
    let barred := n < was ∧ s.marginGuard = true
    (bad → exec (.vtargetWrite v) s = .next (s.ends (s.setRf (govBase + 4) 0 16 0x0E03))) ∧
    (¬bad → barred → exec (.vtargetWrite v) s = .next (s.ends ((s.setRb (govBase + 0x114) 1 true).raise 1995))) ∧
    (¬bad → ¬barred → n = was → exec (.vtargetWrite v) s = .next (s.ends s)) ∧
    (¬bad → ¬barred → n ≠ was → exec (.vtargetWrite v) s =
      .next (s.ends ({ s.setRf (govBase + 0x104) 0 10 n with avs := { s.avs with goal := some n } } : State).avsStep))) ∧
  (∀ s : State, s.marginGuard = true ↔ ∃ r, r < 64 ∧ s.regionEn r = true ∧ s.freewheel r = false ∧
    s.rf (regionBase r + 0x210) 16 6 < s.rf (govBase + 0x10C) 0 6) ∧
  (∀ (mv : Fin 1024) (s : State),
    (s.booted = true → exec (.avsVoltageRead mv) s =
      .next (s.ends { s.setRf (govBase + 0x104) 16 10 mv with out := s.out ++ [.avsRead] })) ∧
    (s.booted = false → exec (.avsVoltageRead mv) s = .next (s.ends s))) ∧
  (∀ s : State, exec .avsStepWrite s = .next (s.ends s.avsStep)) ∧
  (∀ (s : State) (g : Nat),
    let a := s.avs.at_
    let may := s.avs.goal = some g ∧ s.avs.sent = none ∧ s.booted = true ∧ (s.avs.acked = 0 ∨ s.avs.acked + 10000 ≤ s.now)
    let v := if g < a then max g (a - 50) else min g (a + 50)
    (s.avs.goal = none → s.avsStep = s) ∧ (s.avs.goal = some g → ¬may → s.avsStep = s) ∧
    (may → g = a → s.avsStep = { s with avs := { s.avs with goal := none } }) ∧
    (may → g < a → s.marginGuard = true → s.avsStep =
      ({ s with avs := { s.avs with goal := none }, raised := s.raised ++ [1995] } : State).setRb (govBase + 0x114) 1 true) ∧
    (may → (a < g ∨ (g < a ∧ s.marginGuard = false)) →
      s.avsStep = { s with avs := { s.avs with sent := some v }, out := s.out ++ [.avsWrite v] } ∧
        (a < g → a < v ∧ v ≤ g ∧ v ≤ a + 50) ∧ (g < a → g ≤ v ∧ v < a ∧ a ≤ v + 50))) ∧
  (∀ s : State,
    (∀ v, s.avs.sent = some v → exec (.avsTransactionEnd true) s = .next (s.ends { s with
      avs := { at_ := v, sent := none, acked := s.now, goal := if s.avs.goal = some v then none else s.avs.goal }
      out := s.out ++ [.avsStatus] })) ∧
    (s.avs.sent = none → exec (.avsTransactionEnd true) s = .next (s.ends s)) ∧
    exec (.avsTransactionEnd false) s = .next (s.ends (({ s with
      avs := { s.avs with sent := none, goal := if s.avs.sent = none then s.avs.goal else none }
      raised := s.raised ++ [1992] } : State).setRb (govBase + 0x114) 0 true)))

/-- GATE of a powered region, which the puppeteer's governor may gate with GATEOK alone (R213), turns PSTATE to
draining and shows RPWR_CTRL.GATE where no reason stands against it, and otherwise writes the lowest applying
code to REG_REASON (R214); GATE_DONE with no request on its port powers the region off, its cells and spokes as
at wake, no credit on its way back to its senders, its pins at their park samples and its pending bits clear,
and raises source 1993 (R29, R215); WAKE of a region that is off writes zero to every byte of its MEM cells and
to no other, with its senders' credits full (R29, R123, R216); WAKE_DONE turns PSTATE to on and raises source
1994. In any other state each changes nothing. A plane's scrubber has no visit due while no word can be visited
(R319). GOV_RAISE raises source 1996 + N for N below 52 (R220). SYSCLK_25M_STOP changes nothing but the level of
the input (R486). What its clauses fix beyond the rules is the model's choice (log entry 32). -/
def Obligations.PowerGatingRunsAndRefuses : Prop :=
  (∀ (m : Master) (r : Fin 64) (s : State), s.dead = false →
    let b := regionBase r
    let may := s.pstate r = 0 ∧ (m ≠ .puppeteer ∨ s.rb (b + 0x208) 2 = true)
    (¬may → exec (.gate (m, r)) s = .next (s.ends s)) ∧
    (may → s.gateCodes r = [] → exec (.gate (m, r)) s =
      .next (s.ends (((s.setRf (b + 0x20C) 0 2 1).setRb (b + 0x208) 0 true).scrubSees (planeOf r)))) ∧
    (∀ c ∈ s.gateCodes r, may → (∀ d ∈ s.gateCodes r, c ≤ d) →
      exec (.gate (m, r)) s = .next (s.ends (s.setRf (b + 4) 0 16 c)))) ∧
  (∀ (r c : Nat) (s : State), c ∈ s.gateCodes r ↔ (c = 0x0150 ∧ s.regionEn r = true) ∨
    (c = 0x0151 ∧ ∃ k, k < 32 ∧ s.owner r k = 2) ∨
    (c = 0x0152 ∧ ((s.region r).drl.st = .busy ∨ (s.region r).drl.st = .migrating)) ∨
    (c = 0x0153 ∧ (s.borrowed r = true ∨ s.bist = some (0, r)))) ∧
  (∀ (p : Nat) (s : State),
    let word := s.nextWord p 48 (s.rf (scrReg p + 8) 0 31) false
    (s.rb (scrReg p) 0 = false → s.scrubSees p = s) ∧
    (s.rb (scrReg p) 0 = true → s.scrubSees p = { s with
      scrubs := mset {} s.scrubs p { mget {} s.scrubs p with
        due := if word = none then none else some ((mget {} s.scrubs p).due.getD s.now) } })) ∧
  (∀ (r : Fin 64) (s : State), s.dead = false →
    let b := regionBase r
    let w := ((s.setRegion r (s.region r).cellsAtWake).dropCredits r).pinsRest r
    (s.pstate r = 1 → s.portBusy r = false → exec (.gateDone r) s =
      .next (s.ends ((((w.setRf (b + 0xC) 0 8 0).setRf (b + 0x20C) 0 2 2).setRb (b + 0x208) 0 false).raise 1993))) ∧
    ((s.pstate r ≠ 1 ∨ s.portBusy r = true) → exec (.gateDone r) s = .next (s.ends s)) ∧
    { w with regions := s.regions, pads := s.pads } = s ∧
    (∀ p, p ≠ r.val → { w.region p with credWay := (s.region p).credWay } = s.region p) ∧
    (∀ i p o, i < 64 → s.farSide r i = some (p, o) → mget [] (w.region p).credWay o = []) ∧
    { w.region r with slots := [] } = { (s.region r).cellsAtWake with pinOut := [], pinWay := [], slots := [] } ∧
    (∀ k v, ((s.region r).active.slotRec.map (fun e => e.1)).Nodup → mget 0 (s.region r).active.slotRec k = v → isOutputFunc (slotFunc v) = true →
      mget {} (w.region r).slots k = { mget {} (s.region r).slots k with
        drive := driveOf (v.getLsbD 0) (v.getLsbD 4), parked := true, gen := false, pwmRouted := none })) ∧
  (∀ (m : Master) (r : Fin 64) (s : State), s.dead = false →
    let b := regionBase r
    let may := s.pstate r = 2 ∧ (m ≠ .puppeteer ∨ s.rb (b + 0x208) 2 = true)
    let u := s.wakeCells r
    let v := u.clearLines (cellAddr r 0 0) 0x8000
    (may → exec (.wake (m, r)) s = .next (s.ends ((v.setRf (b + 0x20C) 0 2 3).setRb (b + 0x208) 1 true))) ∧
    (¬may → exec (.wake (m, r)) s = .next (s.ends s)) ∧
    { u with regions := s.regions } = s ∧ u.region r = (s.region r).cellsAtWake ∧
    (∀ p, p ≠ r.val → { u.region p with credUsed := (s.region p).credUsed, credWay := (s.region p).credWay } = s.region p) ∧
    (∀ i p o, i < 64 → s.farSide r i = some (p, o) → mget 0 (u.region p).credUsed o = 0 ∧ mget [] (u.region p).credWay o = []) ∧
    { v with mem := s.mem, codes := s.codes } = u ∧
    (∀ a, readByte v.mem a =
      if 0x4000000000 + r.val * 0x100000 ≤ a ∧ a < 0x4000000000 + r.val * 0x100000 + 0x100000 then 0 else readByte s.mem a)) ∧
  (∀ (r : Fin 64) (s : State), s.dead = false →
    let b := regionBase r
    (s.pstate r = 3 → exec (.wakeDone r) s = .next (s.ends
      ((((s.setRf (b + 0x20C) 0 2 0).setRb (b + 0x208) 1 false).scrubSees (planeOf r)).raise 1994))) ∧
    (s.pstate r ≠ 3 → exec (.wakeDone r) s = .next (s.ends s))) ∧
  (∀ (v : Word32) (s : State),
    (fld v 0 6 < 52 → exec (.govRaise v) s = .next (s.ends (s.raise (1996 + fld v 0 6)))) ∧
    (52 ≤ fld v 0 6 → exec (.govRaise v) s = .next (s.ends s))) ∧
  (∀ s : State, exec .sysclk25mStop s = .next (s.ends { s with signals := { s.signals with sysclk := false } }))

/-- With u the state after the read of the record: DEFINE of a task that is FREE, IDLE without a delay or
quarantined makes it IDLE with the operands, and is refused with 0x0411 otherwise or 0x0414 past 2,048 pinned
records; UNDEFINE makes it FREE; READY gives an IDLE task an entry at the tail of its level, sets RERUN on a
RUNNING one and leaves a READY one as it is; DELAY and DELAYABS replace its delay entry by one of the wake time;
CANCEL removes its entries and reports what it met; SETARG sets its argument (R230, R236). A FREE task is
refused with 0x0410, a quarantined one with 0x0412, one whose record or entry finds no place with 0x0413 and
FULL (R237). A disabled scheduler refuses with 0x0415. A record goes on chip, where need be in the place of one
written to the record table; an entry goes on chip while its reserve or the pool has room, else to its level's
ring, at a place that no live entry holds. Each reports in SCH_STAT and answers exactly the state named. What
its clauses fix beyond the rules is the model's choice (log entry 33). -/
def Obligations.SchedulerCommandsChangeTheirTask : Prop :=
  (∀ (id : Fin 65536) (prio : Fin 64) (cls : Fin 16) (pin : Bool) (arg : Word32) (wake : BitVec 64) (s : State), s.dead = false →
    let rep := fun (w : State) (code out : Nat) =>
      w.setRg (schBase + 0x18) (BitVec.ofNat 32 (2 ^ 31 + (if code = 0 then 0 else 2 ^ 30) + out * 2 ^ 16 + code))
    let placed := fun (x : State × Bool) => if x.2 then rep x.1 0 0 else rep (x.1.schEvent 1) 0x0413 0
    let w1 := s.setRg (schBase + 0x10) arg
    let w2 := s.setRg64 (schBase + 0x20) wake.toNat
    (s.schOn = false →
      (∀ c, c = .define id prio cls pin arg ∨ c = .delay id arg ∨ c = .setarg id arg → exec c s = .next (s.ends (rep w1 0x0415 0))) ∧
      exec (.delayabs id wake) s = .next (s.ends (rep w2 0x0415 0)) ∧
      (∀ c, c = .undefine id ∨ c = .ready id ∨ c = .cancel id → exec c s = .next (s.ends (rep s 0x0415 0)))) ∧
    (∀ u k, s.schOn = true → w1.taskGet id = (u, k) →
      let busy := k.st = .ready ∨ k.st = .running ∨ (k.dly = true ∧ k.st ≠ .quar)
      let full := pin = true ∧ k.pin = false ∧ 2048 ≤ (u.sched.onChip.filter (fun e => e.2.pin)).length
      (busy → exec (.define id prio cls pin arg) s = .next (s.ends (rep u 0x0411 0))) ∧
      (¬busy → full → exec (.define id prio cls pin arg) s = .next (s.ends (rep u 0x0414 0))) ∧
      (¬busy → ¬full → exec (.define id prio cls pin arg) s = .next (s.ends (placed
        (u.putTask id { st := .idle, prio := prio, cls := cls, pin := pin, arg := arg, wake := k.wake, dcnt := k.dcnt })))) ∧
      (k.st = .free → exec (.setarg id arg) s = .next (s.ends (rep u 0x0410 0))) ∧
      (k.st = .quar → exec (.setarg id arg) s = .next (s.ends (rep u 0x0412 0))) ∧
      (k.st ≠ .free → k.st ≠ .quar → exec (.setarg id arg) s = .next (s.ends (placed (u.putTask id { k with arg := arg }))))) ∧
    (∀ u k, s.schOn = true → s.taskGet id = (u, k) →
      let may := (k.st = .idle ∧ k.dly = false) ∨ k.st = .quar
      let p := u.putTask id { k with st := .ready }
      let q := p.1.pushReady id k.prio
      let c := ((u.dropReady id).dropDelay id).keepTask id { k with
        dly := false, rerun := false, cxp := k.cxp || k.st == .running, st := if k.st = .ready then .idle else k.st }
      (may → exec (.undefine id) s = .next (s.ends (placed (u.putTask id {})))) ∧
      (¬may → exec (.undefine id) s = .next (s.ends (rep u 0x0411 0))) ∧
      (k.st = .free → exec (.ready id) s = .next (s.ends (rep u 0x0410 0)) ∧ exec (.cancel id) s = .next (s.ends (rep u 0x0410 0))) ∧
      (k.st = .quar → exec (.ready id) s = .next (s.ends (rep u 0x0412 0)) ∧ exec (.cancel id) s = .next (s.ends (rep u 0x0412 0))) ∧
      (k.st = .ready → exec (.ready id) s = .next (s.ends (rep u 0 0))) ∧
      (k.st = .running → exec (.ready id) s = .next (s.ends (placed (u.putTask id { k with rerun := true })))) ∧
      (k.st = .idle → p.2 = false → exec (.ready id) s = .next (s.ends (rep (p.1.schEvent 1) 0x0413 0))) ∧
      (k.st = .idle → p.2 = true → q.2 = true → exec (.ready id) s = .next (s.ends (rep q.1 0 0))) ∧
      (k.st = .idle → p.2 = true → q.2 = false → exec (.ready id) s = .next (s.ends (rep ((q.1.keepTask id k).schEvent 1) 0x0413 0))) ∧
      (k.st ≠ .free → k.st ≠ .quar → exec (.cancel id) s = .next (s.ends (rep c 0
        (if k.st = .running then 2 else if k.st = .ready ∨ k.dly = true then 1 else 0))))) ∧
    (∀ u k (abs : Bool), s.schOn = true → (if abs then w2 else w1).taskGet id = (u, k) →
      let i : Instr := if abs then .delayabs id wake else .delay id arg
      let at_ := if abs then wake.toNat else s.now + arg.toNat
      let p := u.putTask id { k with wake := at_, dly := true }
      let q := (p.1.dropDelay id).pushDelay id at_
      (k.st = .free → exec i s = .next (s.ends (rep u 0x0410 0))) ∧
      (k.st = .quar → exec i s = .next (s.ends (rep u 0x0412 0))) ∧
      (k.st ≠ .free → k.st ≠ .quar →
        (p.2 = false → exec i s = .next (s.ends (rep (p.1.schEvent 1) 0x0413 0))) ∧
        (p.2 = true → q.2 = true → exec i s = .next (s.ends (rep q.1 0 0))) ∧
        (p.2 = true → q.2 = false → exec i s = .next (s.ends (rep ((q.1.undoDelay p.1 id k).schEvent 1) 0x0413 0)))))) ∧
  (∀ (id : Nat) (t : Task) (s : State),
    (s.hasPlace id → s.putTask id t = ({ s with sched := { s.sched with tasks := mset none s.sched.tasks id (some t) } }, true)) ∧
    (¬s.hasPlace id → s.victims = [] → s.putTask id t = (s, false)) ∧
    (∀ e w ok, ¬s.hasPlace id → s.victims[Config.cacheVictim s.fresh s.victims.length % s.victims.length]? = some e →
      (if s.sched.spillErr then (s, true) else s.spillWrite (s.recAddr e.1) 0xFFFFFFFF#32 e.2.line) = (w, ok) →
      s.putTask id t = ({ w with fresh := w.fresh + 1, sched := if ok = true then
        { w.sched with tasks := mset none (mdel e.1 w.sched.tasks) id (some t) } else w.sched }, ok))) ∧
  (∀ (id lvl : Nat) (s : State),
    let l := mget {} s.sched.lvls lvl
    let chip := l.on = l.ids.length ∧ (l.on < 8 ∨ s.sched.shared < 1536)
    (chip → s.pushReady id lvl = ({ s with
      sched := { s.sched with lvls := mset {} s.sched.lvls lvl { l with ids := l.ids ++ [id], on := l.on + 1 } } }, true)) ∧
    (¬chip → s.spillOk = false → s.pushReady id lvl = (s, false)) ∧
    (let k := freePlace l.slots (l.slots.length + 1) l.tl
     (l.slots.length < 65536 → k ∉ l.slots) ∧ k < 65536 ∧
     (∀ w ok, ¬chip → s.spillOk = true → s.ringWrite lvl k id = (w, ok) → s.pushReady id lvl =
       (if ok = true then w.setLevel lvl { l with ids := l.ids ++ [id], slots := l.slots ++ [k], tl := k + 1 } else w, ok)))) ∧
  (∀ (id wake : Nat) (s : State),
    let e : DelayEnt := { wake := wake, id := id, seq := s.fresh, past := decide (wake < s.now) }
    let c := s.sched
    let l := insertDelay e c.dly
    let i := (l.findIdx? (fun d => d == e)).getD 0
    let n := max i c.dlyOn
    let s1 : State := { s with fresh := s.fresh + 1 }
    let d := s1.delayWrite (c.dlyHd + (n - c.dlyOn)) (l.drop n)
    l.Perm (e :: c.dly) ∧ (c.dly.Pairwise (fun a b => a.wake ≤ b.wake) → l.Pairwise (fun a b => a.wake ≤ b.wake)) ∧
    (i ≤ c.dlyOn → c.dlyOn < 4096 → s.pushDelay id wake = ({ s1 with sched := { c with dly := l, dlyOn := c.dlyOn + 1 } }, true)) ∧
    (¬(i ≤ c.dlyOn ∧ c.dlyOn < 4096) → s.spillOk = false → s.pushDelay id wake = (s1, false)) ∧
    (¬(i ≤ c.dlyOn ∧ c.dlyOn < 4096) → s.spillOk = true →
      s.pushDelay id wake = (if d.2 then { d.1 with sched := { d.1.sched with dly := l } } else d.1, d.2))) ∧
  (∀ (id : Nat) (s : State),
    (∀ lvl, (mget {} (s.dropReady id).sched.lvls lvl).ids = (mget {} s.sched.lvls lvl).ids.erase id) ∧
    { s.dropReady id with sched := { (s.dropReady id).sched with lvls := s.sched.lvls } } = s ∧
    ((∀ e ∈ s.sched.dly, e.id ≠ id) → s.dropDelay id = s) ∧
    (∀ i e, s.sched.dly[i]? = some e → e.id = id → (∀ j d, j < i → s.sched.dly[j]? = some d → d.id ≠ id) → i < s.sched.dlyOn →
      s.dropDelay id = { s with sched := { s.sched with dly := s.sched.dly.eraseIdx i, dlyOn := s.sched.dlyOn - 1 } }))

/-- A TAKE request that arrives at the enabled scheduler completes the task its taker held, which becomes IDLE, or
READY where it reruns, and its cancel report is kept; the taker then waits with its class mask, or is told at
once that there is no task where it is a core marked offline (R225, R226, R229). A disabled scheduler answers a
core so and drops a region's request. A withdrawal removes the taker's request; a region that waited for it runs
the TAKE again or enters its event's handler, and a core goes on (R97, R228). DISPATCH gives the entry of
highest priority that a waiting taker may take to the first such taker: the record is RUNNING with that taker
and one more dispatch counted, the entry and the request are gone, and the task travels to the taker (R227,
R233, R234); an entry on its way from DRAM is read first. A write of SCH_TKOFF answers each core newly marked
offline that waits with no task, and completes what another newly marked one holds (R228, R229). Each answers
exactly the state named. What its clauses fix beyond the rules is the model's choice (log entry 33). -/
def Obligations.TakersWaitAndTasksAreDispatched : Prop :=
  (∀ (k : Fin 80) (s : State), s.dead = false →
    let w : State := { s with sched := { s.sched with way := s.sched.way.erase (k.val, false) } }
    let u := w.schComplete k
    let off := k.val < 16 ∧ u.rb (schBase + 0x140) k = true
    (s.sched.way.contains (k.val, false) = false → exec (.takeRequest k) s = .next (s.ends s)) ∧
    (s.sched.way.contains (k.val, false) = true →
      (s.schOn = false → exec (.takeRequest k) s = .next (s.ends (if k.val < 16 then w.giveTaker k { task := none } else w))) ∧
      (s.schOn = true → off →
        exec (.takeRequest k) s = .next (s.ends (u.giveTaker k { task := none, cxl := mget false u.sched.report k }))) ∧
      (s.schOn = true → ¬off → exec (.takeRequest k) s =
        .next (s.ends { u with sched := { u.sched with waiting := u.sched.waiting ++ [(k.val, u.takerMask k)] } })))) ∧
  (∀ (k : Nat) (g : Given) (v : State),
    v.giveTaker k g = { v with sched := { v.sched with given := mset none v.sched.given k (some g) } } ∧
    v.takerMask k = BitVec.ofNat 16 (if k < 16 then v.rf (schBase + 0x100 + 4 * k) 0 16 else v.rf (regionBase (k - 16) + 0x20) 0 16)) ∧
  (∀ (k : Nat) (v : State),
    let w : State := { v with sched := { v.sched with holds := mset none v.sched.holds k none } }
    (mget none v.sched.holds k = none → v.schComplete k = v) ∧
    (∀ id u x, mget none v.sched.holds k = some id → w.taskGet id = (u, x) →
      let y : Task := { x with st := .idle, cxp := false, rerun := false, taker := 0 }
      let z := fun b : Bool => ({ u with sched := { u.sched with report := mset false u.sched.report k b } } : State)
      (x.st = .quar → v.schComplete k = z true) ∧
      (x.st ≠ .quar → x.rerun = false → v.schComplete k = (z x.cxp).keepTask id y) ∧
      (x.st ≠ .quar → x.rerun = true → v.schComplete k = ((z x.cxp).keepTask id y).readyOrFull id y))) ∧
  (∀ (id : Nat) (x : Task) (v : State), mget none v.sched.tasks id = some x → x.bad = false → v.taskGet id = (v, x)) ∧
  (∀ (k : Fin 80) (s : State), s.dead = false →
    let w : State := { s with sched := { s.sched with
      way := s.sched.way.erase (k.val, true), waiting := s.sched.waiting.filter (fun e => e.1 != k.val) } }
    let given := (mget none s.sched.given k).isSome
    let x := s.region (k.val - 16)
    let c := s.core k
    (s.sched.way.contains (k.val, true) = false → exec (.takeWithdrawal k) s = .next (s.ends s)) ∧
    (s.sched.way.contains (k.val, true) = true →
      (k.val < 16 → exec (.takeWithdrawal k) s = .next (s.ends { w with
        cores := if given = true then s.cores else mset {} s.cores k (if c.leaving = true ∧ c.st = .take then { c with st := .run } else c) })) ∧
      (16 ≤ k.val → ¬(x.st = .take ∧ x.withdrawing = true ∧ given = false) → exec (.takeWithdrawal k) s = .next (s.ends w)) ∧
      (16 ≤ k.val → x.st = .take → x.withdrawing = true → given = false →
        let y : Region := { x with st := .run, withdrawing := false }
        (∀ l, w.eventLine (k.val - 16) = some l → x.eligible = true →
          ∃ t, exec (.takeWithdrawal k) s = .next t ∧ s.entersEvent w t (k.val - 16) y l x.pc) ∧
        ((w.eventLine (k.val - 16) = none ∨ x.eligible = false) →
          exec (.takeWithdrawal k) s = .next (s.ends (w.setRegion (k.val - 16) y)))))) ∧
  (∀ s : State, s.dead = false →
    ((s.schOn = false ∨ s.schChoice = none) → exec .dispatch s = .next (s.ends s)) ∧
    (∀ l id k i u, s.schOn = true → s.schChoice = some (l, id, k) → (mget {} s.sched.lvls l).ids.findIdx? (fun j => j == id) = some i →
      let lv := mget {} s.sched.lvls l
      (lv.on ≤ i → s.readyRead l i = (u, false) → exec .dispatch s = .next (s.ends u)) ∧
      (((i < lv.on ∧ u = s) ∨ (lv.on ≤ i ∧ s.readyRead l i = (u, true))) → ∀ v x, u.taskGet id = (v, x) →
        (x.st ≠ .ready → exec .dispatch s = .next (s.ends v)) ∧
        (x.st = .ready →
          let z := (v.dropReady id).keepTask id { x with st := .running, taker := k, dcnt := min 65535 (x.dcnt + 1) }
          let z1 := ({ z with sched := { z.sched with
            waiting := z.sched.waiting.filter (fun e => e.1 != k), holds := mset none z.sched.holds k (some id) } } : State).count64 (schBase + 0x68)
          exec .dispatch s = .next (s.ends (z1.giveTaker k { task := some id, arg := x.arg, cxl := mget false z1.sched.report k })))))) ∧
  (∀ (l id k : Nat) (s : State), s.schChoice = some (l, id, k) →
    id ∈ (mget {} s.sched.lvls l).ids ∧ (∃ e ∈ s.sched.waiting, e.1 = k ∧ e.2.getLsbD (s.taskPeek id).cls = true) ∧
      (∀ j i, j < l → i ∈ (mget {} s.sched.lvls j).ids → ∀ e ∈ s.sched.waiting, e.2.getLsbD (s.taskPeek i).cls = false)) ∧
  (∀ (v : Word32) (s : State), s.dead = false →
    let l := (List.range 16).filter (fun k => v.getLsbD k && !(s.rf (schBase + 0x140) 0 16).testBit k)
    let f := fun (w : State) (k : Nat) =>
      let z : State := { w with sched := { w.sched with waiting := w.sched.waiting.filter (fun e => e.1 != k) } }
      if w.sched.waiting.any (fun e => e.1 == k) then z.giveTaker k { task := none, cxl := mget false z.sched.report k } else z.schDiscard k
    exec (.schTkoffWrite v) s = .next (s.ends (l.foldl f (s.setRf (schBase + 0x140) 0 16 (fld v 0 16))))) ∧
  (∀ (k : Nat) (w : State),
    let u := w.schComplete k
    (mget none w.sched.holds k = none → w.schDiscard k = w) ∧
    (mget none w.sched.holds k ≠ none →
      w.schDiscard k = { u with sched := { u.sched with report := mset false u.sched.report k false } }))

/-- DELAY_EXPIRY takes up to 8 of the entries due, the one that expires first each time and of two at once the one
applied first; one entry goes, its task loses DLY and is made ready, and one more than a microsecond late is
counted with LATE (R235). A spilled entry is read first, and one found uncorrectable is dropped, its task IDLE,
and counted (R239, R241). SPILL_READ brings entries of a level with fewer than 4 on chip back from its ring, or
delay entries where no level is named, up to 8 at a time (R237). SPILL_ERROR stops spilling and sets its event
(R241). SCH_ENABLE while EN is 0 writes the fields and sets EN where the check finds no code, and spilling may
go on; otherwise the lowest code stands in SCH_REASON; while EN is 1 it changes nothing (R243). Each answers
exactly the state named. That 0x0403 is never found, since reserved bits are not held, is log entry 44. What its
clauses fix beyond the rules is the model's choice (log entry 33). -/
def Obligations.DelaysExpireAndSpilledEntriesReturn : Prop :=
  (∀ s : State, s.dead = false →
    (s.schOn = false → exec .delayExpiry s = .next (s.ends s)) ∧
    (s.schOn = true → exec .delayExpiry s = .next (s.ends (iter (fun v => v.nextExpiry.elim v v.expire) 8 s)))) ∧
  (∀ s : State, (s.nextExpiry = none ↔ ∀ d ∈ s.sched.dly, s.now < s.expiresAt d) ∧
    (∀ e, s.nextExpiry = some e → e ∈ s.sched.dly ∧ s.expiresAt e ≤ s.now ∧
      ∀ d ∈ s.sched.dly, s.expiresAt d ≤ s.now → s.expiresAt e < s.expiresAt d ∨ (s.expiresAt e = s.expiresAt d ∧ e.seq ≤ d.seq))) ∧
  (∀ (e : DelayEnt) (s : State),
    let tick := max 1 (100 * s.rf schBase 16 14)
    let at_ := (e.wake + tick - 1) / tick * tick
    let i := (s.sched.dly.findIdx? (fun d => d == e)).getD 0
    let end_ := fun v : State => if at_ + 1000 < s.now then (v.setRg (schBase + 0x64) (satInc32 (v.rg (schBase + 0x64)))).schEvent 3 else v
    s.expiresAt e = (if e.past then e.wake else at_) ∧
    (∀ u, s.sched.dlyOn ≤ i → s.delayRead i e = (u, false) → s.expire e = u) ∧
    (∀ u v x, ((i < s.sched.dlyOn ∧ u = s) ∨ (s.sched.dlyOn ≤ i ∧ s.delayRead i e = (u, true))) → (u.dropDelay e.id).taskGet e.id = (v, x) →
      let y := { x with dly := false }
      let z := v.keepTask e.id y
      ((x.st = .quar ∨ x.st = .free) → s.expire e = end_ z) ∧
      (x.st ≠ .quar → x.st ≠ .free → s.expire e = end_ (z.readyOrFull e.id y)))) ∧
  (∀ (id : Nat) (x : Task) (v : State), v.readyOrFull id x = if (v.makeReady id x).2 then (v.makeReady id x).1 else (v.makeReady id x).1.schEvent 1) ∧
  (∀ (v : Fin 64) (s : State), s.dead = false →
    let l := mget {} s.sched.lvls v
    (4 ≤ l.on → exec (.spillRead (some v)) s = .next (s.ends s)) ∧
    (l.on < 4 → exec (.spillRead (some v)) s = .next (s.ends
      (iter (fun w => if w.levelRoom v then w.refillOne v else w) (min 8 (l.ids.length - l.on)) s))) ∧
    (l.ids.length ≤ l.on → s.refillOne v = s) ∧
    (∀ u, l.on < l.ids.length → s.readyRead v l.on = (u, true) →
      s.refillOne v = { u with sched := { u.sched with lvls := mset {} u.sched.lvls v { l with on := l.on + 1, slots := l.slots.tail } } }) ∧
    (∀ u, l.on < l.ids.length → s.readyRead v l.on = (u, false) → s.refillOne v = u)) ∧
  (∀ (v i : Nat) (u s : State) (x : MemAns),
    let l := mget {} s.sched.lvls v
    s.wordGet .sched (s.ringAt v (l.slots.getD (i - l.on) 0) / 32 * 32) = (u, x) →
    let w := if x.status = 0 then u else u.spillStops
    let lost := fun z : State => (z.setRg (schBase + 0x60) (satInc32 (z.rg (schBase + 0x60)))).schEvent 2
    (x.status = 0 → x.x.ue = false → s.readyRead v i = (u, true)) ∧
    (∀ id, (x.status ≠ 0 ∨ x.x.ue = true) → l.ids[i]? = some id →
      let z := w.setLevel v (l.without id)
      s.readyRead v i = (lost (z.keepTask id { z.taskPeek id with st := .idle }), false))) ∧
  (∀ s : State, s.dead = false →
    let c := s.sched
    let f := fun w : State => match w.sched.dly[w.sched.dlyOn]? with
      | none => w
      | some e =>
        let p := w.delayRead w.sched.dlyOn e
        if p.2 then { p.1 with sched := { p.1.sched with dlyOn := p.1.sched.dlyOn + 1, dlyHd := p.1.sched.dlyHd + 1 } } else p.1
    (3072 ≤ c.dlyOn → exec (.spillRead none) s = .next (s.ends s)) ∧
    (c.dlyOn < 3072 → exec (.spillRead none) s = .next (s.ends (iter f (min 8 (c.dly.length - c.dlyOn)) s)))) ∧
  (∀ s : State, s.dead = false → exec .spillError s =
    .next (s.ends (({ s with sched := { s.sched with spillErr := true } } : State).event (schBase + 0x54) 2 10 1730))) ∧
  (∀ (v : Word32) (s : State), s.dead = false →
    let w := s.setRg schBase (regTakes schCtrlSpec false (s.rg schBase) (setBit v 0 true))
    let base := (s.rg (schBase + 8)).toNat + s.rf (schBase + 0xC) 0 8 * 2 ^ 32
    let spill := bit v 2 = true ∧ (base % 0x1000000 ≠ 0 ∨ 2 ^ 38 ≤ base ∨ s.dramWithin base 0x1000000 = false)
    let tick := fld v 16 14 = 0 ∨ 10000 < fld v 16 14
    (s.schOn = false → spill → exec (.schEnable v) s = .next (s.ends (w.setRf (schBase + 4) 0 16 0x0401))) ∧
    (s.schOn = false → ¬spill → tick → exec (.schEnable v) s = .next (s.ends (w.setRf (schBase + 4) 0 16 0x0402))) ∧
    (s.schOn = false → ¬spill → ¬tick → exec (.schEnable v) s =
      .next (s.ends { w.setRb schBase 0 true with sched := { s.sched with spillErr := false } })) ∧
    (s.schOn = true → exec (.schEnable v) s = .next (s.ends (s.setRg schBase (regTakes schCtrlSpec true (s.rg schBase) (setBit v 0 true))))))

/-- LDM, LDM.W, STM and STM.W are illegal with x0 in their mask, with rs1 or rs2 in LDM's, and a W-form in user
mode; a misaligned base traps with cause 4 or 6; otherwise the elements that LSMPROG leaves move in ascending
order to or from consecutive words, each counted in LSMPROG, until one faults, an interrupt stops them, or all
are done, LSMPROG is 0 and the pc moves on (R261, R262). A load traps with 4 misaligned, 24 poisoned and 5 not
answered, or writes its extended value to rd; LR.W is illegal on the puppeteer, traps outside the core's own
memory, and holds the reservation (R248, R250, R251). A fetch executes an Xtz instruction by its encoding or
traps; an instruction of no Xtz opcode is given by its own command, log entry 45. Stores write their bytes or
trap with 6 or 7; SC.W stores under a valid reservation and answers 0, else 1, and drops it; an AMO stores its
value and returns the old word (R248, R250). STORE_ERROR keeps the address and raises its source (R251). A core
that is not executing is left alone. Each answers exactly the state named. What its clauses fix beyond the rules
is the model's choice (log entries 34 and 35). -/
def Obligations.CoreMemoryInstructionsRun : Prop :=
  (∀ (n : Fin 17) (rs1 rs2 : Fin 32) (kind : LoadKind) (sk : StoreKind) (imm : BitVec 12) (rvc : Bool) (stop : Option (Fin 32))
    (c : Instr) (s : State), s.dead = false → s.coreGo n = false →
    c = .ldm n rs1 rs2 stop ∨ c = .ldmW n rs1 rs2 stop ∨ c = .stm n rs1 rs2 stop ∨ c = .stmW n rs1 rs2 stop ∨
      c = .load n kind rs2 rs1 imm rvc ∨ c = .store n sk rs1 rs2 imm rvc → exec c s = .next (s.ends s)) ∧
  (∀ (n : Fin 17) (rs1 rs2 : Fin 32) (load window : Bool) (stop : Option (Fin 32)) (s : State),
    let c : Instr := match load, window with
      | true, false => .ldm n rs1 rs2 stop | true, true => .ldmW n rs1 rs2 stop
      | false, false => .stm n rs1 rs2 stop | false, true => .stmW n rs1 rs2 stop
    let mask := s.reg n rs2
    let base := s.reg n rs1
    let cur := s.curBank n
    let bank := if window then (s.core n).bankwin else cur
    let lsm := (s.bank n cur).lsm
    let l := (elements mask).drop (if bit lsm 31 then fld lsm 0 5 else 0)
    let bad := (window = true ∧ (s.core n).user = true) ∨ bit mask 0 = true ∨
      (load = true ∧ window = false ∧ (bit mask rs1 = true ∨ bit mask rs2 = true))
    let cut := ∃ k, stop = some k ∧ 0 < k.val ∧ k.val < l.length ∧ (s.irq n).isSome = true
    s.dead = false → s.coreGo n = true →
    (bad → exec c s = .next (s.ends (s.illegal n))) ∧
    (¬bad → base.toNat % 4 ≠ 0 → exec c s = .next (s.ends (s.excp n (if load then 4 else 6) base))) ∧
    (¬bad → base.toNat % 4 = 0 → ¬cut → ∀ u ok, State.transfer n bank cur load base.toNat l s = (u, ok) →
      exec c s = .next (s.ends (if ok = true then (u.onBank n cur (fun b => { b with lsm := 0 })).advance n 4 else u))) ∧
    (∀ k, ¬bad → base.toNat % 4 = 0 → cut → stop = some k →
      exec c s = .next (s.ends (State.transfer n bank cur load base.toNat (l.take k) s).1))) ∧
  (∀ (n bank cur base i j : Nat) (l : List (Nat × Nat)) (s : State),
    let a := (base + 4 * j) % 2 ^ 32
    let next := fun (u : State) (load : Bool) =>
      State.transfer n bank cur load base l (u.onBank n cur (fun b => { b with lsm := BitVec.ofNat 32 (2 ^ 31 + (j + 1) % 32) }))
    (∀ load, State.transfer n bank cur load base [] s = (s, true)) ∧
    (∀ u v, s.coreRead n a 4 = (u, .ok v) →
      State.transfer n bank cur true base ((i, j) :: l) s = next (u.setXr n bank i (BitVec.ofNat 32 v)) true) ∧
    (∀ u p, s.coreRead n a 4 = (u, .error p) →
      State.transfer n bank cur true base ((i, j) :: l) s = (u.excp n (if p then 24 else 5) (BitVec.ofNat 32 a), false)) ∧
    (∀ u, s.coreWrite n a 4 (s.xr n bank i).toNat = (u, true) →
      State.transfer n bank cur false base ((i, j) :: l) s = next u false) ∧
    (∀ u, s.coreWrite n a 4 (s.xr n bank i).toNat = (u, false) →
      State.transfer n bank cur false base ((i, j) :: l) s = (u.excp n 7 (BitVec.ofNat 32 a), false))) ∧
  (∀ (n : Fin 17) (rs1 rs2 : Fin 32) (s : State),
    let mask := s.reg n rs2
    let base := (s.reg n rs1).toNat
    let at_ := fun j : Nat => localBase n + base + 4 * j
    s.dead = false → s.coreGo n = true → bit mask 0 = false → bit mask rs1 = false → bit mask rs2 = false → base % 4 = 0 →
    base + 128 ≤ localSize n → bit (s.bank n (s.curBank n)).lsm 31 = false →
    (∀ e ∈ elements mask, (s.examine (at_ e.2 / 32 * 32)).ue = false ∧
      bytesPoisoned (s.examine (at_ e.2 / 32 * 32)).data (at_ e.2 % 32) 4 = false) →
    ∃ t, exec (.ldm n rs1 rs2 none) s = .next t ∧
      (∀ e ∈ elements mask, (t.reg n e.1).toNat = fld (s.examine (at_ e.2 / 32 * 32)).data (8 * (at_ e.2 % 32)) 32) ∧
      (∀ i, i < 32 → bit mask i = false → t.reg n i = s.reg n i) ∧ (t.core n).pc = (s.core n).pc + 4#32) ∧
  (∀ (n : Fin 17) (kind : LoadKind) (rd rs1 : Fin 32) (imm : BitVec 12) (rvc : Bool) (s : State),
    let a := s.reg n rs1 + (if kind = .lr then 0 else imm).signExtend 32
    let lr := kind = .lr
    let size := match kind with
      | .lb | .lbu => 1 | .lh | .lhu => 2 | _ => 4
    let out := localSize n ≤ a.toNat
    let k := if rvc then 2 else 4
    s.dead = false → s.coreGo n = true → (∀ h, kind ≠ .fetch h) →
    (lr → n.val = 16 → exec (.load n kind rd rs1 imm rvc) s = .next (s.ends (s.illegal n))) ∧
    (¬(lr ∧ n.val = 16) → a.toNat % size ≠ 0 → exec (.load n kind rd rs1 imm rvc) s = .next (s.ends (s.excp n 4 a))) ∧
    (lr → n.val ≠ 16 → a.toNat % size = 0 → out → exec (.load n kind rd rs1 imm rvc) s = .next (s.ends (s.excp n 5 a))) ∧
    (∀ u p, ¬(lr ∧ (n.val = 16 ∨ out)) → a.toNat % size = 0 → s.coreRead n a.toNat size = (u, .error p) →
      exec (.load n kind rd rs1 imm rvc) s = .next (s.ends (u.excp n (if p then 24 else 5) a))) ∧
    (∀ u v, ¬(lr ∧ (n.val = 16 ∨ out)) → a.toNat % size = 0 → s.coreRead n a.toNat size = (u, .ok v) →
      let w := if kind = .lr then u.onCore n (fun c => { c with resv := some ((localBase n + a.toNat) / 32) }) else u
      let x : Word32 := match kind with
        | .lb => (BitVec.ofNat 8 v).signExtend 32 | .lh => (BitVec.ofNat 16 v).signExtend 32 | _ => BitVec.ofNat 32 v
      exec (.load n kind rd rs1 imm rvc) s = .next (s.ends ((w.setReg n rd x).advance n k)))) ∧
  (∀ (n : Fin 17) (half : Bool) (rd rs1 : Fin 32) (imm : BitVec 12) (rvc : Bool) (s : State), s.dead = false → s.coreGo n = true →
    let pc := (s.core n).pc
    let i : Instr := .load n (.fetch half) rd rs1 imm rvc
    (∀ u p, s.coreRead n pc.toNat 2 = (u, .error p) → exec i s = .next (s.ends (u.excp n (if p then 25 else 1) pc))) ∧
    (∀ u v, half = true → s.coreRead n pc.toNat 2 = (u, .ok v) → exec i s = .next (s.ends u)) ∧
    (∀ u v w p, half = false → s.coreRead n pc.toNat 2 = (u, .ok v) → u.coreRead n (pc + 2#32).toNat 2 = (w, .error p) →
      exec i s = .next (s.ends (w.excp n (if p then 25 else 1) (pc + 2#32)))) ∧
    (∀ u v w x, half = false → s.coreRead n pc.toNat 2 = (u, .ok v) → u.coreRead n (pc + 2#32).toNat 2 = (w, .ok x) →
      let f := x * 2 ^ 16 + v
      (f % 128 ≠ 0x0B → f % 128 ≠ 0x2B → exec i s = .next (s.ends w)) ∧
      (f % 128 = 0x0B ∨ f % 128 = 0x2B → xtzDecode f = none → exec i s = .next (s.ends (w.illegal n))) ∧
      (∀ y, xtzDecode f = some y → exec i s = .next (s.ends (w.xtzGo n y))))) ∧
  (∀ (n : Fin 17) (rd rs1 rs2 : Fin 32) (s : State), s.dead = false →
    exec (.ldm n rs1 rs2 none) s = .next (s.ends (s.xtzGo n (.ldm false rs1 rs2))) ∧
    exec (.ldmW n rs1 rs2 none) s = .next (s.ends (s.xtzGo n (.ldm true rs1 rs2))) ∧
    exec (.stm n rs1 rs2 none) s = .next (s.ends (s.xtzGo n (.stm false rs1 rs2))) ∧
    exec (.stmW n rs1 rs2 none) s = .next (s.ends (s.xtzGo n (.stm true rs1 rs2))) ∧
    exec (.bankrd n rd rs1) s = .next (s.ends (s.xtzGo n (.bankrd rd rs1))) ∧
    exec (.bankwr n rs2 rs1) s = .next (s.ends (s.xtzGo n (.bankwr rs2 rs1))) ∧
    exec (.coreTake n rd) s = .next (s.ends (s.xtzGo n (.take rd))) ∧
    exec (.coreReady n rd rs1) s = .next (s.ends (s.xtzGo n (.ready rd rs1))) ∧
    exec (.coreDelay n rd rs1 rs2) s = .next (s.ends (s.xtzGo n (.delay rd rs1 rs2))) ∧
    exec (.coreCancel n rd rs1) s = .next (s.ends (s.xtzGo n (.cancel rd rs1)))) ∧
  (∀ (n : Fin 17) (a size v : Nat) (s : State), size ∈ [1, 2, 4] →
    let x := localBase n + a
    let r := s.examine (x / 32 * 32)
    let w0 := (s.core n).xwin0 * 2 ^ 30 + (a - 0x40000000)
    let w1 := (s.core n).xwin1 * 2 ^ 30 + (a - 0x80000000)
    (a < localSize n → (s.coreRead n a size).2 = if r.ue = true ∨ bytesPoisoned r.data (x % 32) size = true then .error true
      else .ok (fld r.data (8 * (x % 32)) (8 * size))) ∧
    (0x40000000 ≤ a → a < 0x80000000 → s.coreRead n a size = s.busRead n w0 size ∧ s.coreWrite n a size v = (s.busWrite n a w0 size v, true)) ∧
    (0x80000000 ≤ a → a < 0xC0000000 → s.coreRead n a size = s.busRead n w1 size ∧ s.coreWrite n a size v = (s.busWrite n a w1 size v, true)) ∧
    (0xC0000000 ≤ a → a < 0xD0000000 → s.coreRead n a size = s.busRead n (0x4200000000 + (a - 0xC0000000)) size ∧
      s.coreWrite n a size v = (s.busWrite n a (0x4200000000 + (a - 0xC0000000)) size v, true)) ∧
    ((localSize n ≤ a ∧ a < 0x40000000) ∨ (0xD0000000 ≤ a ∧ (n.val ≠ 16 ∨ a < 0xE0000000 ∨ 0xE0001000 ≤ a)) →
      s.coreRead n a size = (s, .error false) ∧ s.coreWrite n a size v = (s, false))) ∧
  (∀ (n : Fin 17) (kind : StoreKind) (size : Nat) (rs1 rs2 : Fin 32) (imm : BitVec 12) (rvc : Bool) (s : State),
    let a := s.reg n rs1 + imm.signExtend 32
    s.dead = false → s.coreGo n = true → (kind = .sb ∧ size = 1) ∨ (kind = .sh ∧ size = 2) ∨ (kind = .sw ∧ size = 4) →
    (a.toNat % size ≠ 0 → exec (.store n kind rs1 rs2 imm rvc) s = .next (s.ends (s.excp n 6 a))) ∧
    (∀ u, a.toNat % size = 0 → s.coreWrite n a.toNat size (s.reg n rs2).toNat = (u, true) →
      exec (.store n kind rs1 rs2 imm rvc) s = .next (s.ends (u.advance n (if rvc then 2 else 4)))) ∧
    (∀ u, a.toNat % size = 0 → s.coreWrite n a.toNat size (s.reg n rs2).toNat = (u, false) →
      exec (.store n kind rs1 rs2 imm rvc) s = .next (s.ends (u.excp n 7 a)))) ∧
  (∀ (n : Fin 17) (a size v : Nat) (s : State), a < localSize n → a % size = 0 → size = 1 ∨ size = 2 ∨ size = 4 →
    let x := localBase n + a
    let r := s.examine (x / 32 * 32)
    ∃ u, s.coreWrite n a size v = (u, true) ∧ { u with mem := s.mem, codes := s.codes } = s ∧
      (r.ue = false → ∀ b, b < size → readByte u.mem (x + b) = BitVec.ofNat 8 (v / 256 ^ b)) ∧
      (∀ y, (y < x / 32 * 32 ∨ x / 32 * 32 + 32 ≤ y) → readByte u.mem y = readByte s.mem y) ∧
      ((s.code x).wf ≠ 0 → r.ce = false → r.ue = false →
        ∀ y, (y < x ∨ x + size ≤ y) → readByte u.mem y = readByte s.mem y)) ∧
  (∀ (n : Fin 17) (kind : StoreKind) (rs1 rs2 rd : Fin 32) (op : AmoOp) (imm : BitVec 12) (rvc : Bool) (s : State),
    let a := s.reg n rs1
    let x := s.reg n rs2
    let hit := (s.core n).resv == some ((localBase n + a.toNat) / 32)
    let u := if hit then (s.coreWrite n a.toNat 4 x.toNat).1 else s
    s.dead = false → s.coreGo n = true → kind = .sc rd ∨ kind = .amo op rd →
    (n.val = 16 → exec (.store n kind rs1 rs2 imm rvc) s = .next (s.ends (s.illegal n))) ∧
    (n.val ≠ 16 → a.toNat % 4 ≠ 0 → exec (.store n kind rs1 rs2 imm rvc) s = .next (s.ends (s.excp n 6 a))) ∧
    (n.val ≠ 16 → a.toNat % 4 = 0 → localSize n ≤ a.toNat →
      exec (.store n kind rs1 rs2 imm rvc) s = .next (s.ends (s.excp n 7 a))) ∧
    (n.val ≠ 16 → a.toNat % 4 = 0 → a.toNat < localSize n →
      (kind = .sc rd → exec (.store n kind rs1 rs2 imm rvc) s = .next (s.ends
        (((u.onCore n (fun c => { c with resv := none })).setReg n rd (if hit then 0 else 1)).advance n 4))) ∧
      (∀ w p, kind = .amo op rd → s.coreRead n a.toNat 4 = (w, .error p) →
        exec (.store n kind rs1 rs2 imm rvc) s = .next (s.ends (w.excp n 24 a))) ∧
      (∀ w v, kind = .amo op rd → s.coreRead n a.toNat 4 = (w, .ok v) →
        exec (.store n kind rs1 rs2 imm rvc) s = .next (s.ends
          (((w.coreWrite n a.toNat 4 (amoValue op (BitVec.ofNat 32 v) x).toNat).1.setReg n rd (BitVec.ofNat 32 v)).advance n 4))))) ∧
  (∀ (a b : Word32), amoValue .swap a b = b ∧ amoValue .add a b = a + b ∧ amoValue .xor a b = a ^^^ b ∧ amoValue .and a b = a &&& b ∧
    amoValue .or a b = a ||| b ∧ (amoValue .min a b).toInt = min a.toInt b.toInt ∧ (amoValue .max a b).toInt = max a.toInt b.toInt ∧
    (amoValue .minu a b).toNat = min a.toNat b.toNat ∧ (amoValue .maxu a b).toNat = max a.toNat b.toNat) ∧
  (∀ (n : Fin 17) (s : State), s.dead = false →
    ((s.core n).stores = [] → exec (.storeError n) s = .next (s.ends s)) ∧
    (∀ a l, (s.core n).stores = a :: l →
      (n.val < 16 → exec (.storeError n) s = .next (s.ends
        (((s.onCore n (fun c => { c with stores := l })).setRg (ccReg n + 0x18) a).raise (1792 + 4 * n.val + 3)))) ∧
      (n.val = 16 → exec (.storeError n) s = .next (s.ends ((s.onCore n (fun c => { c with stores := l, sterr := a })).raise 1875)))))

/-- BANKRD reads and BANKWR writes a register of the BANKWIN bank in machine mode (R261). TAKE with a destination on
a control core stands waiting and its request sets out, and is illegal otherwise; READY, DELAY and CANCEL send
their command and leave its result in rd, or a refusal in XSCHREF where rd is x0 (R263). A CSR instruction reads
the CSR into rd and writes, sets or clears it; a write of a read-only number and a machine CSR in user mode are
illegal; XRAISE raises the core's software source (R252, R266). ECALL, EBREAK and an illegal instruction trap;
FENCE completes once every store has its response (R251); WFI waits. An FP instruction is illegal on the
puppeteer, in bank 7 and with FS Off; otherwise it first saves the FP state where FPL is set, a fault of which
traps with cause 28, and then writes its results and dirties the state (R256). A core that is not executing is
left alone. Each answers exactly the state named. The values of an FP instruction are its command's operands,
and what a CSR that the spec does not name reads is free, log entry 46. What its clauses fix beyond the rules is
the model's choice (log entries 34 and 35). -/
def Obligations.CoreRegisterInstructionsRun : Prop :=
  (∀ (n : Fin 17) (rd rs1 rs2 : Fin 32) (f : BitVec 12) (op : SysOp) (fp : FpOp) (rvc : Bool) (c : Instr) (s : State), s.dead = false → s.coreGo n = false →
    c = .bankrd n rd rs1 ∨ c = .bankwr n rs2 rs1 ∨ c = .coreTake n rd ∨ c = .coreReady n rd rs1 ∨ c = .coreDelay n rd rs1 rs2 ∨
      c = .coreCancel n rd rs1 ∨ c = .xraise n f op ∨ c = .fpInstruction n fp rvc → exec c s = .next (s.ends s)) ∧
  (∀ (n : Fin 17) (rd k rs1 : Fin 32) (s : State), s.dead = false → s.coreGo n = true →
    ((s.core n).user = true → exec (.bankrd n rd k) s = .next (s.ends (s.illegal n)) ∧
      exec (.bankwr n k rs1) s = .next (s.ends (s.illegal n))) ∧
    ((s.core n).user = false →
      exec (.bankrd n rd k) s = .next (s.ends ((s.setXr n (s.curBank n) rd (s.xr n (s.core n).bankwin k)).advance n 4)) ∧
      exec (.bankwr n k rs1) s = .next (s.ends ((s.setXr n (s.core n).bankwin k (s.reg n rs1)).advance n 4)))) ∧
  (∀ (n b i : Nat) (v : Word32) (s : State),
    (i = 0 → s.setXr n b i v = s) ∧ (∀ k, k < 32 → i < 32 → i ≠ 0 → ∀ c, (s.setXr n b i v).xr n c k = if c = b ∧ k = i then v else s.xr n c k) ∧
    s.reg n i = (if i = 0 then 0 else mget 0 (s.core n).x (32 * s.curBank n + i))) ∧
  (∀ (n : Fin 17) (rd : Fin 32) (s : State), s.dead = false → s.coreGo n = true →
    (n.val = 16 ∨ rd.val = 0 → exec (.coreTake n rd) s = .next (s.ends (s.illegal n))) ∧
    (n.val < 16 → rd.val ≠ 0 → exec (.coreTake n rd) s = .next (s.ends
      { s.onCore n (fun c => { c with st := .take, takeRd := rd }) with
        sched := { s.sched with way := s.sched.way ++ [(n.val, false)] } }))) ∧
  (∀ (n : Fin 17) (rd rs1 rs2 : Fin 32) (s : State) (c : Instr) (a : SchAns), s.dead = false → s.coreGo n = true →
    let id := fld (s.reg n rs1) 0 16
    (c = .coreReady n rd rs1 ∧ a = s.schReady id) ∨ (c = .coreDelay n rd rs1 rs2 ∧ a = s.schDelay id (s.now + (s.reg n rs2).toNat)) ∨
      (c = .coreCancel n rd rs1 ∧ a = s.schCancel id) →
    (rd.val ≠ 0 → exec c s = .next (s.ends
      ((a.s.setReg n rd (BitVec.ofNat 32 ((if a.code = 0 then 0 else 2 ^ 31) + a.outcome * 2 ^ 16 + a.code))).advance n 4))) ∧
    (rd.val = 0 → a.code = 0 → exec c s = .next (s.ends (a.s.advance n 4))) ∧
    (rd.val = 0 → a.code ≠ 0 → exec c s = .next (s.ends
      ((a.s.onCore n (fun x => { x with xschref := BitVec.ofNat 32 (2 ^ 31 + a.code) })).advance n 4)))) ∧
  (∀ (n : Fin 17) (kind : CsrKind) (csr : BitVec 12) (rd src : Fin 32) (imm : Bool) (s : State), s.dead = false → s.coreGo n = true →
    let c := csr.toNat
    let i : Instr := .xraise n csr (.csr kind rd src imm)
    let x : Word32 := if imm then BitVec.ofNat 32 src else s.reg n src
    let writes := kind = .rw ∨ src.val ≠ 0
    let new := fun old : Word32 => match kind with
      | .rw => x | .rs => old ||| x | .rc => old &&& ~~~x
    let bad := (c / 2 ^ 10 = 3 ∧ writes) ∨ (c / 2 ^ 8 % 4 ≠ 0 ∧ (s.core n).user = true)
    let w : State := { s with fresh := s.fresh + 1 }
    let old := s.csrRead n c
    (bad → exec i s = .next (s.ends (s.illegal n))) ∧
    (¬bad → ¬(1 ≤ c ∧ c ≤ 3) → writes → exec i s = .next (s.ends (((w.csrSet n c (new old)).setReg n rd old).advance n 4))) ∧
    (¬bad → ¬(1 ≤ c ∧ c ≤ 3) → ¬writes → exec i s = .next (s.ends ((w.setReg n rd old).advance n 4))) ∧
    (∀ at_ k, ¬bad → (c = 1 ∧ at_ = 0 ∧ k = 5) ∨ (c = 2 ∧ at_ = 5 ∧ k = 3) ∨ (c = 3 ∧ at_ = 0 ∧ k = 8) →
      let all := (s.core n).fcsr
      let v : Word32 := BitVec.ofNat 32 (fld all at_ k)
      exec i s = exec (.fpInstruction n (.other none (some (rd, v))
        (if writes then some (setFld all at_ k (new v).toNat) else none)) false) s)) ∧
  (∀ (n : Fin 17) (s : State),
    let c := s.core n
    let b := s.bank n (s.curBank n)
    let w := s.bank n c.bankwin
    let m := s.csrRead n 0x300
    bit m 3 = c.mie ∧ bit m 7 = bit b.bstat 27 ∧ fld m 11 2 = fld b.bstat 25 2 ∧ fld m 13 2 = c.fs.toNat ∧ bit m 31 = (c.fs == 3) ∧
    s.csrRead n 0x305 = c.mtvec ∧ s.csrRead n 0x340 = c.mscratch ∧ s.csrRead n 0x341 = b.mepc ∧ s.csrRead n 0x342 = b.mcause ∧
    s.csrRead n 0x343 = b.mtval ∧ s.csrRead n 0x7C0 = BitVec.ofNat 32 c.bankwin ∧ s.csrRead n 0x7C1 = s.coreCfg n &&& 0xFFFFE001#32 ∧
    s.csrRead n 0x7C2 = b.bstat ∧ s.csrRead n 0x7C3 = b.fpsa ∧ s.csrRead n 0x7C4 = b.lsm ∧ s.csrRead n 0x7C5 = w.bstat ∧
    s.csrRead n 0x7C6 = w.fpsa ∧ s.csrRead n 0x7C7 = w.lsm ∧ s.csrRead n 0x7C8 = w.mepc ∧ s.csrRead n 0x7C9 = w.mcause ∧
    s.csrRead n 0x7CA = w.mtval ∧ s.csrRead n 0x7CB = BitVec.ofNat 32 c.xwin0 ∧ s.csrRead n 0x7CC = BitVec.ofNat 32 c.xwin1 ∧
    s.csrRead n 0x7CD = 0 ∧ s.csrRead n 0x7CE = c.xschref ∧ s.csrRead n 0x7CF = c.sterr ∧ s.csrRead n 0xCC0 = c.tkarg ∧
    s.csrRead n 0xFC0 = BitVec.ofNat 32 (c.lowres * 2 ^ 8 + c.depth)) ∧
  (∀ (n : Fin 17) (v : Word32) (s : State),
    let k := s.curBank n
    let win := (s.core n).bankwin
    let keep := fun (m old : Word32) => (old &&& ~~~m) ||| (v &&& m)
    let m : Word32 := if n.val = 16 then 0x0E1F0000#32 else 0xFE1F0000#32
    let set := fun (b : Nat) (f : Bank → Bank) => s.onBank n b f
    s.csrSet n 0x300 v = (s.onCore n (fun c => { c with mie := bit v 3, fs := if n.val = 16 then 0 else BitVec.ofNat 2 (fld v 13 2) })).onBank n k
      (fun b => { b with bstat := setFld (setBit b.bstat 27 (bit v 7)) 25 2 (if fld v 11 2 = 3 ∨ n.val = 16 then 3 else 0) }) ∧
    s.csrSet n 0x305 v = s.onCore n (fun c => { c with mtvec := v &&& 0xFFFFFFFD#32 }) ∧
    s.csrSet n 0x340 v = s.onCore n (fun c => { c with mscratch := v }) ∧
    s.csrSet n 0x341 v = set k (fun b => { b with mepc := v &&& 0xFFFFFFFE#32 }) ∧ s.csrSet n 0x342 v = set k (fun b => { b with mcause := v }) ∧
    s.csrSet n 0x343 v = set k (fun b => { b with mtval := v }) ∧ s.csrSet n 0x7C0 v = s.onCore n (fun c => { c with bankwin := fld v 0 3 }) ∧
    s.csrSet n 0x7C2 v = set k (fun b => { b with bstat := keep m b.bstat }) ∧
    s.csrSet n 0x7C3 v = set k (fun b => { b with fpsa := if n.val = 16 then 0 else v }) ∧
    s.csrSet n 0x7C4 v = set k (fun b => { b with lsm := v &&& 0x8000001F#32 }) ∧
    s.csrSet n 0x7C5 v = set win (fun b => { b with bstat := keep (if win = k then m else m ||| 0x1F00#32) b.bstat }) ∧
    s.csrSet n 0x7C6 v = set win (fun b => { b with fpsa := if n.val = 16 then 0 else v }) ∧
    s.csrSet n 0x7C7 v = set win (fun b => { b with lsm := v &&& 0x8000001F#32 }) ∧
    s.csrSet n 0x7C8 v = set win (fun b => { b with mepc := v &&& 0xFFFFFFFE#32 }) ∧
    s.csrSet n 0x7C9 v = set win (fun b => { b with mcause := v }) ∧ s.csrSet n 0x7CA v = set win (fun b => { b with mtval := v }) ∧
    s.csrSet n 0x7CB v = s.onCore n (fun c => { c with xwin0 := fld v 0 10 }) ∧ s.csrSet n 0x7CC v = s.onCore n (fun c => { c with xwin1 := fld v 0 10 }) ∧
    s.csrSet n 0x7CD v = (if bit v 0 then s.raise (if n.val < 16 then 1792 + 4 * n.val else 1874) else s) ∧
    s.csrSet n 0x7CE v = s.onCore n (fun c => { c with xschref := setBit c.xschref 31 (bit v 31) }) ∧
    (∀ c, c = 0x7C1 ∨ c = 0x7CF ∨ c = 0xCC0 ∨ c = 0xFC0 → s.csrSet n c v = s)) ∧
  (∀ (n : Fin 17) (f : BitVec 12) (s : State), s.dead = false → s.coreGo n = true →
    exec (.xraise n f .ecall) s = .next (s.ends (s.excp n (if (s.core n).user then 8 else 11) 0)) ∧
    (∃ v, exec (.xraise n f .ebreak) s = .next (s.ends (({ s with fresh := s.fresh + 1 } : State).excp n 3 v))) ∧
    (∃ v, s.illegal n = ({ s with fresh := s.fresh + 1 } : State).excp n 2 v) ∧
    ((s.core n).stores = [] → exec (.xraise n f .fence) s = .next (s.ends (s.advance n 4))) ∧
    ((s.core n).stores ≠ [] → exec (.xraise n f .fence) s = .next (s.ends s)) ∧
    exec (.xraise n f .wfi) s = .next (s.ends ((s.advance n 4).onCore n (fun c => { c with st := .wfi })))) ∧
  (∀ (n : Fin 17) (op : FpOp) (rvc : Bool) (s : State), s.dead = false → s.coreGo n = true →
    let bad := n.val = 16 ∨ (s.core n).held ≠ none ∨ (s.core n).fs = 0
    let k := if rvc then 2 else 4
    (bad → exec (.fpInstruction n op rvc) s = .next (s.ends (s.illegal n))) ∧
    (∀ u a, ¬bad → s.lazySave n = (u, some a) → exec (.fpInstruction n op rvc) s = .next (s.ends (u.excp n 28 (BitVec.ofNat 32 a)))) ∧
    (∀ u, ¬bad → s.lazySave n = (u, none) →
      (∀ rd rs1 imm, op = .flw rd rs1 imm →
        let a := u.reg n rs1 + imm.signExtend 32
        (a.toNat % 4 ≠ 0 → exec (.fpInstruction n op rvc) s = .next (s.ends (u.excp n 4 a))) ∧
        (∀ w p, a.toNat % 4 = 0 → u.coreRead n a.toNat 4 = (w, .error p) →
          exec (.fpInstruction n op rvc) s = .next (s.ends (w.excp n (if p then 24 else 5) a))) ∧
        (∀ w v, a.toNat % 4 = 0 → u.coreRead n a.toNat 4 = (w, .ok v) → exec (.fpInstruction n op rvc) s = .next (s.ends
          ((w.onCore n (fun c => { c with f := mset 0 c.f rd (BitVec.ofNat 32 v), fs := 3#2 })).advance n k)))) ∧
      (∀ rs2 rs1 imm, op = .fsw rs2 rs1 imm →
        let a := u.reg n rs1 + imm.signExtend 32
        (a.toNat % 4 ≠ 0 → exec (.fpInstruction n op rvc) s = .next (s.ends (u.excp n 6 a))) ∧
        (∀ w, a.toNat % 4 = 0 → u.coreWrite n a.toNat 4 (mget 0 (u.core n).f rs2).toNat = (w, true) →
          exec (.fpInstruction n op rvc) s = .next (s.ends (w.advance n k))) ∧
        (∀ w, a.toNat % 4 = 0 → u.coreWrite n a.toNat 4 (mget 0 (u.core n).f rs2).toNat = (w, false) →
          exec (.fpInstruction n op rvc) s = .next (s.ends (w.excp n 7 a)))) ∧
      (∀ f x fcsr, op = .other f x fcsr →
        let w := u.onCore n (fun c => { c with
          f := match f with
            | some e => mset 0 c.f e.1 e.2
            | none => c.f
          fcsr := (fcsr.map (fun v => v &&& 0xFF#32)).getD c.fcsr
          fs := if f = none ∧ fcsr = none then c.fs else 3#2 })
        exec (.fpInstruction n op rvc) s = .next (s.ends ((match x with
          | some e => w.setReg n e.1 e.2
          | none => w).advance n k))))) ∧
  (∀ (n : Fin 17) (s : State),
    let k := s.curBank n
    (bit (s.bank n k).bstat 31 = false → s.lazySave n = (s, none)) ∧
    (∀ u, bit (s.bank n k).bstat 31 = true → s.storeWords n (s.bank n k).fpsa.toNat (s.core n).fpWords = (u, none) →
      s.lazySave n = (u.onBank n k (fun b => { b with bstat := setBit (setBit b.bstat 30 true) 31 false }), none)) ∧
    (∀ u a, bit (s.bank n k).bstat 31 = true → s.storeWords n (s.bank n k).fpsa.toNat (s.core n).fpWords = (u, some a) →
      s.lazySave n = (u, some a)))

/-- A trap entry refused at the deepest level stops the core FATAL with code 30, an exception in bank 7 with 31; a
poison raises its source; in SPILL mode an entry that needs a bank still in use goes to bank 7 with its frame
first; else it is taken: the pc, the cause, its value, the level, privilege, MIE and FS are kept in the new
bank, whose sp lies below the old one, MIE is cleared and the pc is the handler's (R253 to R258).
INTERRUPT_ENTRY takes the interrupt that may be taken, whose source is no longer pending, withdraws a waiting
TAKE first, and wakes a WFI at any pending source. MRET is illegal in user mode, ends a bank-7 trap, reloads FP
state that was saved, fills a spilled bank first, and otherwise returns to the pc, MIE, FS and privilege kept
(R255, R258). CC_ENABLE starts the core at CC_PC where its check passes and leaves the lowest code otherwise;
CC_DISABLE stops it, and a FATAL one stays FATAL; RESET empties every bank and starts the core again where EN is
1 (R268). Each answers exactly the state named. What its clauses fix beyond the rules is the model's choice (log
entries 34 and 35). -/
def Obligations.CoresTrapReturnAndStart : Prop :=
  (∀ (n cause level : Nat) (c tval epc : Word32) (int : Bool) (s : State),
    let x := s.core n
    let d := x.depth + 1
    let last := d = if s.spillMode n then 31 else 8
    let poison := n < 16 ∧ (c = 24#32 ∨ c = 25#32)
    let u := if poison then s.raise (1792 + 4 * n + 1) else s
    let spill := s.spillMode n = true ∧ 7 ≤ d ∧ x.lowres + 6 ≤ d
    (x.held ≠ none → s.excp n cause tval = s.coreFatal n 31) ∧
    (x.held = none → s.excp n cause tval = s.trap n (BitVec.ofNat 32 cause) tval x.pc 0 false) ∧
    (last → s.trap n c tval epc level int = s.coreFatal n 30) ∧
    (¬last → spill → s.trap n c tval epc level int = u.bankTrap n 26 (s.bankOf n d) (s.frameBase n + 0xA0 * (d - 7))
      (.entry c tval epc level int x.user)) ∧
    (¬last → ¬spill → s.trap n c tval epc level int = u.takeEntry n c tval epc level int x.user)) ∧
  (∀ (n level : Nat) (cause tval epc : Word32) (int user : Bool) (s : State),
    let x := s.core n
    let d := x.depth + 1
    let old := s.coreLevel n
    let sp := mget 0 x.x (32 * s.bankOf n x.depth + 2) - 132#32
    let k := s.bankOf n d
    let b := mget {} x.banks k
    s.takeEntry n cause tval epc level int user = s.onCore n (fun _ => { x with
      depth := d, mie := false, user := false
      pc := (x.mtvec &&& ~~~3#32) + if fld x.mtvec 0 2 = 1 ∧ bit cause 31 = true then BitVec.ofNat 32 (4 * fld cause 0 31) else 0
      x := mset 0 x.x (32 * k + 2) (sp &&& 0xFFFFFFF0#32)
      banks := mset {} x.banks k { b with
        mepc := epc, mcause := cause, mtval := tval, fpsa := if n = 16 then 0 else sp
        bstat := BitVec.ofNat 32 ((if int then level else old) * 2 ^ 8 + old * 2 ^ 16 + (if user then 0 else 3) * 2 ^ 25 +
          b2n x.mie * 2 ^ 27 + x.fs.toNat * 2 ^ 28 + b2n (x.fs != 0) * 2 ^ 31) } })) ∧
  (∀ (n cause window frame : Nat) (h : Held) (s : State),
    let x := s.core n
    let l := s.coreLevel n
    let b := mget {} x.banks 7
    cause < 2 ^ 31 → s.bankTrap n cause window frame h = s.onCore n (fun _ => { x with
      held := some h, bankwin := window, user := false, pc := x.mtvec &&& ~~~3#32
      banks := mset {} x.banks 7 { b with
        mcause := BitVec.ofNat 32 cause, mtval := BitVec.ofNat 32 frame, bstat := setFld b.bstat 8 5 l } })) ∧
  (∀ (n code : Nat) (s : State),
    let pc := (s.core n).pc
    let u := if n < 16 then ((s.setRf (ccReg n + 0x10) 24 5 code).setRg (ccReg n + 0x14) pc).raise (1792 + 4 * n + 2)
      else { s with signals := { s.signals with fatal := true } }
    s.coreFatal n code = (u.onCore n (fun c => { c with st := .fatal })).enterFatal (if code = 30 then 1 else 2) (n + code * 2 ^ 8) pc.toNat) ∧
  (∀ (n : Fin 17) (s : State), s.dead = false →
    let x := s.core n
    let i : Instr := .interruptEntry n
    let to_ := fun f : Core → Core => s.onCore n f
    ((x.st = .off ∨ x.st = .fatal) → exec i s = .next (s.ends s)) ∧
    (x.st ≠ .off → x.st ≠ .fatal → s.irq n = none →
      (x.st = .wfi → x.pend ≠ [] → exec i s = .next (s.ends (to_ (fun c => { c with st := .run })))) ∧
      (x.leaving = true → x.st = .run → exec i s = .next (s.ends (to_ (fun c => { c with leaving := false })))) ∧
      (¬(x.st = .wfi ∧ x.pend ≠ []) → ¬(x.leaving = true ∧ x.st = .run) → exec i s = .next (s.ends s))) ∧
    (∀ l src, x.st ≠ .off → x.st ≠ .fatal → s.irq n = some (l, src) →
      (x.st = .take → x.leaving = true → exec i s = .next (s.ends s)) ∧
      (x.st = .take → x.leaving = false → exec i s = .next (s.ends { to_ (fun c => { c with leaving := true }) with
        sched := { s.sched with way := s.sched.way ++ [(n.val, true)] } })) ∧
      (x.st ≠ .take → (x.depth + 1 = if s.spillMode n then 31 else 8) → exec i s = .next (s.ends (s.coreFatal n 30))) ∧
      (x.st ≠ .take → (x.depth + 1 ≠ if s.spillMode n then 31 else 8) → exec i s = .next (s.ends
        ((to_ (fun c => { c with pend := mdel src c.pend, leaving := false, st := .run })).trap n
          (BitVec.ofNat 32 (2 ^ 31 + 16 + l)) (BitVec.ofNat 32 src) x.pc l true)))) ∧
    (∀ l src, s.irq n = some (l, src) → x.mie = true ∧ x.held = none ∧ (src, some l) ∈ x.pend ∧
      (s.coreLevel n = 31 ∨ s.coreLevel n < l) ∧ ∀ e ∈ x.pend, ∀ k, e.2 = some k → s.coreLevel n = 31 ∨ s.coreLevel n < k → k ≤ l)) ∧
  (∀ (n : Fin 17) (s : State), s.dead = false →
    let x := s.core n
    let i : Instr := .mret n
    let to_ := fun f : Core → Core => s.onCore n f
    (s.coreGo n = false → exec i s = .next (s.ends s)) ∧
    (s.coreGo n = true → x.user = true → exec i s = .next (s.ends (s.illegal n))) ∧
    (s.coreGo n = true → x.user = false →
      (∀ c tv epc l int us, x.held = some (.entry c tv epc l int us) → exec i s = .next (s.ends
        ((to_ (fun c => { c with held := none, lowres := c.lowres + 1 })).takeEntry n c tv epc l int us))) ∧
      (x.held = some .ret → exec i s = .next (s.ends ((to_ (fun c => { c with held := none, lowres := c.lowres - 1 })).returnTo n))) ∧
      (x.held = none → x.depth = 0 →
        let b := mget {} x.banks 0
        exec i s = .next (s.ends (to_ (fun c => { c with
          pc := b.mepc, mie := bit b.bstat 27, user := decide (n.val < 16 ∧ fld b.bstat 25 2 ≠ 3)
          banks := mset {} x.banks 0 { b with bstat := setFld (setBit b.bstat 27 true) 25 2 0 } })))) ∧
      (∀ u e, x.held = none → x.depth ≠ 0 → s.fpReload n = (u, some e) →
        exec i s = .next (s.ends (u.excp n e.1 (BitVec.ofNat 32 e.2)))) ∧
      (∀ u, x.held = none → x.depth ≠ 0 → s.fpReload n = (u, none) →
        let fill := u.spillMode n = true ∧ 1 < x.depth ∧ x.depth ≤ x.lowres
        (fill → exec i s = .next (s.ends
          (u.bankTrap n 27 (u.bankOf n (x.depth - 1)) (u.frameBase n + 0xA0 * (x.depth - 2)) .ret))) ∧
        (¬fill → exec i s = .next (s.ends (u.returnTo n)))))) ∧
  (∀ (n : Nat) (s : State),
    let x := s.core n
    let b := mget {} x.banks (s.bankOf n x.depth)
    let k := s.bankOf n (x.depth - 1)
    let y := mget {} x.banks k
    s.returnTo n = s.onCore n (fun _ => { x with
      depth := x.depth - 1, pc := b.mepc, mie := bit b.bstat 27, fs := BitVec.ofNat 2 (fld b.bstat 28 2)
      user := decide (n < 16 ∧ fld b.bstat 25 2 ≠ 3)
      banks := mset {} x.banks k { y with bstat := setFld y.bstat 8 5 (fld b.bstat 16 5) } }) ∧
    (bit (s.bank n (s.curBank n)).bstat 30 = false → s.fpReload n = (s, none)) ∧
    (∀ u e, bit (s.bank n (s.curBank n)).bstat 30 = true →
      s.loadWords n 33 (s.bank n (s.curBank n)).fpsa.toNat = (u, .error e) → s.fpReload n = (u, some e)) ∧
    (∀ u l, bit (s.bank n (s.curBank n)).bstat 30 = true → s.loadWords n 33 (s.bank n (s.curBank n)).fpsa.toNat = (u, .ok l) →
      ∃ w, s.fpReload n = (w, none) ∧ (∀ i, i < 32 → mget 0 (w.core n).f i = l.getD i 0) ∧
        w = u.onCore n (fun c => { c with f := (w.core n).f, fcsr := l.getD 32 0 }))) ∧
  (∀ (n : Fin 16) (v : Word32) (s : State), s.dead = false →
    let b := ccReg n
    let low := s.ccCheck n
    let rst := fun u : State => if bit v 1 then u.coreReset n else u
    (s.rb b 0 = true → exec (.ccEnable n v) s = .next (s.ends (rst s))) ∧
    (s.rb b 0 = false → low = [] → exec (.ccEnable n v) s = .next (s.ends (rst ((s.setRb b 0 true).coreStart n)))) ∧
    (∀ c ∈ low, s.rb b 0 = false → (∀ d ∈ low, c ≤ d) → exec (.ccEnable n v) s = .next (s.ends (rst (s.setRf (b + 4) 0 16 c)))) ∧
    exec (.ccDisable n v) s = .next (s.ends (rst ((s.setRb b 0 false).onCore n (fun c => { c with
      st := if c.st = .fatal then .fatal else .off })))) ∧
    exec (.ccReset n) s = .next (s.ends (s.coreReset n)) ∧
    (∀ c, c ∈ low ↔ (c = 0x0C01 ∧ 0x40000 ≤ (s.rg (b + 0xC)).toNat / 2 * 2) ∨
      (c = 0x0C02 ∧ s.rb (b + 8) 0 = true ∧ 0x40000 < s.rf (b + 8) 13 19 * 2 ^ 13 + 0x2000))) ∧
  (∀ (n : Fin 16) (u : State),
    let pc : Word32 := BitVec.ofNat 32 ((u.rg (ccReg n + 0xC)).toNat / 2 * 2)
    let w := (u.onCore n (fun c => { c with st := .off, x := [], banks := [], depth := 0, lowres := 1, held := none,
                                            mie := false, user := false, leaving := false, resv := none })).setRf (ccReg n + 0x10) 24 5 0
    u.coreStart n = u.onCore n (fun c => { c with st := .run, pc := pc }) ∧
    u.coreReset n = if u.rb (ccReg n) 0 then w.coreStart n else w)

/-- EVENT_SOURCE_ARRIVAL takes a raised source off those on their way; one that was not raised changes nothing. It
arms every region whose DRL_TRIG names it and triggers the cameras set to it, but in the fatal path, and then,
with EV_CTRL.EN 1, takes the routes enabled for it: low, pending at every core of CMASK at LEVEL; the region
line's pending bit; READY of a task, a refusal kept in SCH_EVREF; and MSI-X, sent, or pending where its vector
is closed (R270, R271, R399); in the fatal path MSI-X alone (R471). EV_RAISE raises the source for the puppeteer
and is answered ACCESS_REFUSED for others; a route write takes its value, or is refused with 0x0D01 or 0x0D02;
EV_CTRL_ENABLE sets EN where every route passes, else leaves the lowest code, and changes nothing while EN is 1
(R272). Each answers exactly the state named. What its clauses fix beyond the rules is the model's choice (log
entry 25). -/
def Obligations.EventsReachTheirRoutes : Prop :=
  (∀ (n : Fin 2048) (s : State),
    let u : State := { s with raised := s.raised.erase n.val }
    let w := (List.range 16).foldl (fun v i => v.cxpTrigger i n) (u.armBySource n)
    (n.val ∉ s.raised → exec (.eventSourceArrival n) s = .next (s.ends s)) ∧
    (n.val ∈ s.raised → s.dead = false → exec (.eventSourceArrival n) s = .next (s.ends (w.routeSource n))) ∧
    (n.val ∈ s.raised → s.dead = true → exec (.eventSourceArrival n) s = .next (s.ends (u.routeSource n)))) ∧
  (∀ (n : Nat) (s : State),
    s.armBySource n = (List.range 64).foldl (fun v r =>
      if v.rb (regionBase r + 0x10C) 31 = true ∧ v.rf (regionBase r + 0x10C) 0 11 = n then v.drlArm r (v.rf (regionBase r + 0x10C) 16 6) else v) s) ∧
  (∀ (n i : Nat) (s : State), ¬(s.cxpOn i = true ∧ s.rb (cxpReg i) 12 = true ∧ s.rf (cxpReg i) 16 11 = n) → s.cxpTrigger i n = s) ∧
  (∀ (n : Nat) (s : State),
    let low := s.rb (routeReg n) 31
    let h := s.rg (routeReg n + 4)
    let v1 := if low then s.pendAt n else s
    let v2 := if bit h 31 then v1.setRb (regionBase (v1.physical (fld h 24 6)) + 0xC) (fld h 20 3) true else v1
    let a := v2.schReady (fld h 0 16)
    let v3 := if bit h 18 then (if a.code = 0 then a.s else
      (a.s.setRg (schBase + 0x5C) (BitVec.ofNat 32 (2 ^ 31 + a.code * 2 ^ 16 + fld h 0 16))).schEvent 4) else v2
    (s.rb (evBase + 0x4000) 0 = false → s.routeSource n = s) ∧
    (s.rb (evBase + 0x4000) 0 = true → s.dead = false → s.routeSource n = if bit h 19 then v3.msixRaise n else v3) ∧
    (s.rb (evBase + 0x4000) 0 = true → s.dead = true → s.routeSource n = if bit h 19 then s.msixRaise n else s)) ∧
  (∀ (n : Nat) (s : State),
    let t := s.pendAt n
    { t with cores := s.cores } = s ∧ (∀ k, { t.core k with pend := (s.core k).pend } = s.core k) ∧
    (∀ k, k < 17 → s.rb (routeReg n) k = true → mget none (t.core k).pend n = some (s.rf (routeReg n) 24 4)) ∧
    (∀ k, (17 ≤ k ∨ s.rb (routeReg n) k = false) → (t.core k).pend = (s.core k).pend) ∧
    (∀ k m, m ≠ n → mget none (t.core k).pend m = mget none (s.core k).pend m)) ∧
  (∀ (n : Nat) (s : State),
    let b := msixBase + 16 * n
    (s.booted = false → s.msixRaise n = s) ∧
    (s.booted = true → s.msixOpen n = true → s.msixRaise n = { s with out := s.out ++ [.msix (s.rg64 b) (s.rg (b + 8))] }) ∧
    (s.booted = true → s.msixOpen n = false → s.msixRaise n = { s with host := { s.host with pend := mset false s.host.pend n true } }) ∧
    s.msixOpen n = (s.host.msixOn && !s.host.fmask && !s.rb (b + 12) 0)) ∧
  (∀ (m : Master) (n : Fin 2048) (s : State),
    (m = .puppeteer → exec (.evRaise m n) s =
      .next (s.ends { s with raised := s.raised ++ [n.val], out := s.out ++ [.answer m 0x4200514200 0 0] })) ∧
    (m ≠ .puppeteer → ∃ t, exec (.evRaise m n) s = .next t ∧ t.out = s.out ++ [.answer m 0x4200514200 1 0] ∧
      t.rg (nocBase + 0x24) = satInc32 (s.rg (nocBase + 0x24)) ∧ (s.ends { s with out := t.out }).netSame t)) ∧
  (∀ (n : Fin 2048) (high : Bool) (v : Word32) (s : State),
    let o := routeReg n + (if high then 4 else 0)
    let bad := if high then v &&& ~~~ 0xBF7CFFFF#32 ≠ 0 else v &&& ~~~ 0x8F01FFFF#32 ≠ 0
    let none_ := high = false ∧ bit v 31 = true ∧ fld v 0 17 = 0
    (¬bad → ¬none_ → exec (.routeWrite n high v) s = .next (s.ends (s.setRg o v))) ∧
    (bad → exec (.routeWrite n high v) s = .next (s.ends (s.setRf (evBase + 0x4004) 0 16 0x0D01))) ∧
    (¬bad → none_ → exec (.routeWrite n high v) s = .next (s.ends (s.setRf (evBase + 0x4004) 0 16 0x0D02)))) ∧
  (∀ (v : Word32) (s : State),
    let bad := ∃ n, n < 2048 ∧ (s.rg (routeReg n) &&& ~~~ 0x8F01FFFF#32 ≠ 0 ∨ s.rg (routeReg n + 4) &&& ~~~ 0xBF7CFFFF#32 ≠ 0)
    let none_ := ∃ n, n < 2048 ∧ s.rb (routeReg n) 31 = true ∧ s.rf (routeReg n) 0 17 = 0
    (s.rb (evBase + 0x4000) 0 = true → exec (.evCtrlEnable v) s = .next (s.ends s)) ∧
    (s.rb (evBase + 0x4000) 0 = false → ¬bad → ¬none_ → exec (.evCtrlEnable v) s = .next (s.ends (s.setRb (evBase + 0x4000) 0 true))) ∧
    (s.rb (evBase + 0x4000) 0 = false → bad → exec (.evCtrlEnable v) s = .next (s.ends (s.setRf (evBase + 0x4004) 0 16 0x0D01))) ∧
    (s.rb (evBase + 0x4000) 0 = false → ¬bad → none_ → exec (.evCtrlEnable v) s = .next (s.ends (s.setRf (evBase + 0x4004) 0 16 0x0D02))))

/-- SHA_GO absorbs the bytes that its read delivers and, with FIN, prepares the digest of ALG over the whole
message; a failed or poisoned read, or the reserved ALG, makes the operation end in ERR. SHA_DONE clears BUSY
and sets ERR, or stores the digest byte by byte in SHA_OUT and sets DONE (R433). VERIFY checks the signature
over the message with the key read, SIGN signs the message with the identity key and context KWFW, PUBKEY gives
the identity public key; each stays BUSY, and a failed operand ends it in ERR; MLD_DONE writes the output bytes,
VALID of a verification, DONE, and ERR where the operation or its write failed (R431 to R433). A GO while BUSY
changes nothing, nor does an end with nothing running. Each answers exactly the state named. ML-DSA-87 is FIPS
204's; the random bytes of a signature are free, log entry 40. -/
def Obligations.EnginesStartAndEnd : Prop :=
  (∀ (v : Word32) (u s : State) (x : BytesAns),
    let w := s.setRg engBase (regTakes { rw := 0x36#32 } false (s.rg engBase) v)
    let y := u.setRb (engBase + 0x18) 0 true
    let msg := (if u.rb engBase 1 then u.sha.msg else []) ++ x.bytes.map (·.1)
    let alg := fld v 4 2
    let dig := if alg = 0 then sha3Of256 msg else if alg = 1 then sha3Of512 msg else shake256 (min 64 (u.rf (engBase + 0x14) 0 7)) msg
    let bad := x.status ≠ 0 ∨ x.bad = true ∨ alg = 3
    s.rb (engBase + 0x18) 0 = false →
    w.bytesGet .puppeteer ((s.rg (engBase + 8)).toNat + s.rf (engBase + 0xC) 0 8 * 2 ^ 32) (s.rg (engBase + 0x10)).toNat = (u, x) →
    (bad → exec (.shaGo v) s = .next (s.ends { y with sha := { u.sha with ends := some none } })) ∧
    (¬bad → exec (.shaGo v) s = .next (s.ends { y with sha := { msg := msg, ends := some (some (if u.rb engBase 2 then dig else [])) } }))) ∧
  (∀ (v : Word32) (s : State), s.rb (engBase + 0x18) 0 = true → exec (.shaGo v) s = .next (s.ends s)) ∧
  (∀ s : State,
    let u := ({ s with sha := { s.sha with ends := none } } : State).setRb (engBase + 0x18) 0 false
    (s.sha.ends = none → exec .shaDone s = .next (s.ends s)) ∧
    (s.sha.ends = some none → exec .shaDone s = .next (s.ends (u.setRb (engBase + 0x18) 2 true))) ∧
    (∀ o : List (BitVec 8), s.sha.ends = some (some o) →
      let w := o.zipIdx.foldl (fun (v : State) e => v.setRf (engBase + 0x40 + e.2 / 4 * 4) (8 * (e.2 % 4)) 8 e.1.toNat) u
      exec .shaDone s = .next (s.ends (w.setRb (engBase + 0x18) 1 true)) ∧
        (o.length ≤ 64 → ∀ i b, o[i]? = some b → w.rf (engBase + 0x40 + i / 4 * 4) (8 * (i % 4)) 8 = b.toNat))) ∧
  (∀ (s : State) (c : Instr), s.mld.isSome = true → c = .verify ∨ c = .sign ∨ c = .pubkey → exec c s = .next (s.ends s)) ∧
  (∀ (s a b d : State) (m g k : Option (List (BitVec 8))), s.mld = none →
    let w := (s.setRf (engBase + 0x100) 1 2 0).setRb (engBase + 0x114) 0 true
    w.mldRead (engBase + 0x108) 64 = (a, m) → a.mldRead (engBase + 0x10C) 4627 = (b, g) → b.mldRead (engBase + 0x110) 2592 = (d, k) →
    (∀ x y z, m = some x → g = some y → k = some z →
      exec .verify s = .next (s.ends { d with mld := some { valid := some (dsaValid x y z) } })) ∧
    ((m = none ∨ g = none ∨ k = none) → exec .verify s = .next (s.ends { d with mld := some { err := true } }))) ∧
  (∀ (s a : State) (m : Option (List (BitVec 8))), s.mld = none →
    let w := (s.setRf (engBase + 0x100) 1 2 1).setRb (engBase + 0x114) 0 true
    let dst := a.coreRange 16 (a.rg (engBase + 0x10C)).toNat 4627
    w.mldRead (engBase + 0x108) 64 = (a, m) →
    ((m = none ∨ dst = none) → exec .sign s = .next (s.ends { a with mld := some { err := true } })) ∧
    (∀ x y, m = some x → dst = some y → ∃ rnd : BitVec 256,
      let z : State := { a with fresh := a.fresh + 1 }
      (∀ g, dsaSign a.identity [0x4B#8, 0x57#8, 0x46#8, 0x57#8] x (natBytes 32 rnd.toNat) = some g →
        exec .sign s = .next (s.ends { z with mld := some { dst := y, bytes := g } })) ∧
      (dsaSign a.identity [0x4B#8, 0x57#8, 0x46#8, 0x57#8] x (natBytes 32 rnd.toNat) = none →
        exec .sign s = .next (s.ends { z with mld := some { err := true } })))) ∧
  (∀ s : State, s.mld = none →
    let w := (s.setRf (engBase + 0x100) 1 2 2).setRb (engBase + 0x114) 0 true
    let dst := s.coreRange 16 (s.rg (engBase + 0x110)).toNat 2592
    (∀ y, dst = some y → exec .pubkey s = .next (s.ends { w with mld := some { dst := y, bytes := s.identity.pub } })) ∧
    (dst = none → exec .pubkey s = .next (s.ends { w with mld := some { err := true } })) ∧
    s.identity = dsaKeyGen (natBytes 32 s.otp.seed.toNat)) ∧
  (∀ (reg n : Nat) (s : State),
    let r := s.coreRange 16 (s.rg reg).toNat n
    (r = none → s.mldRead reg n = (s, none)) ∧
    (∀ a u x, r = some a → s.bytesGet .puppeteer a n = (u, x) →
      s.mldRead reg n = (u, if x.status ≠ 0 ∨ x.bytes.any (·.2) = true then none else some (x.bytes.map (·.1))))) ∧
  (∀ s : State,
    (s.mld = none → exec .mldDone s = .next (s.ends s)) ∧
    (∀ u j st n, s.mld = some j →
      State.bytesPut (({ s with mld := none } : State).setRb (engBase + 0x114) 0 false) .puppeteer j.dst (j.bytes.map some) false = (u, st, n) →
      let w := (j.valid.map (fun b => u.setRb (engBase + 0x114) 2 b)).getD u
      exec .mldDone s = .next (s.ends (w.setRb (engBase + 0x114) (if j.err = true ∨ st ≠ 0 then 3 else 1) true))))

/-- PACKET_HOP lets a master inject a request: it takes the lowest free tag and its response's flits, becomes
outstanding and enters with the epoch in force, or its ingress router answers a malformed request with status 2
and an address of no range with 3; without a free tag, without room in the response buffer, or at an ordered
port while a request of the old epoch to that router is outstanding, it waits (R279, R280, R284, R285, R293). A
response enters at its router, or, malformed, is discarded and counted (R279). A packet leaves its router by the
entry of its epoch's bank: to the next router once that has room, into the local port, or, where the entry is
NONE, a request is answered with status 6 and a response discarded; a port that does not exist discards it; a
new request to a region that is not ON is answered with 4 (R275, R289, R295). Packets of the same ports, network
and epoch keep their order (R287). A sideband found uncorrectable discards the packet and is counted (R286).
Nothing but the network's counters, events, trace and probes changes besides. What its clauses fix beyond the
rules is the model's choice (log entries 26 and 37). -/
def Obligations.PacketsEnterAndTravel : Prop :=
  (∀ (m : Master) (r : NocReq) (tag : Nat) (s : State),
    let a := masterRouter m
    let d := (s.destOf r.addr.toNat).getD (a, 0)
    let n := responseFlits r.op.toNat r.rlen.toNat
    let q : Packet := { m := m, dest := d.1, dport := d.2, op := r.op.toNat, addr := r.addr.toNat, rlen := r.rlen.toNat,
                        rsize := r.rsize.toNat, slots := r.slots, bytes := r.bytes, tag := tag, data := r.data }
    let u : State := { s with noc := { s.noc with
      outstanding := s.noc.outstanding ++ [{ m := m, tag := tag, dest := d.1, addr := r.addr.toNat, op := r.op.toNat,
                                             epoch := s.epoch, sent := s.now, flits := n }],
      retired := s.noc.retired.filter (fun o => !(o.m == m && o.tag == tag)) } }
    s.freeTag m = some tag → s.responseRoom m n = true →
    (orderedPort m r.op.toNat = true → ∀ o ∈ s.noc.outstanding, o.m = m → o.dest = d.1 → o.epoch = s.epoch) →
    (reqMalformed r = true → ∃ t, exec (.packetHop (.inject m r)) s = .next t ∧ s.answersWith u t a q (responseOp q.op) 2 []) ∧
    (reqMalformed r = false → s.destOf r.addr.toNat = none →
      ∃ t, exec (.packetHop (.inject m r)) s = .next t ∧ s.answersWith u t a q (responseOp q.op) 3 []) ∧
    (reqMalformed r = false → (s.destOf r.addr.toNat).isSome = true →
      ∃ t, exec (.packetHop (.inject m r)) s = .next t ∧
        (s.ends { u with noc := { u.noc with
          moving := u.noc.moving ++ [{ pkt := { q with epoch := s.epoch }, at_ := a, from_ := a }] } }).netSame t)) ∧
  (∀ (m : Master) (r : NocReq) (s : State),
    (s.freeTag m = none ∨ s.responseRoom m (responseFlits r.op.toNat r.rlen.toNat) = false ∨
      (orderedPort m r.op.toNat = true ∧ ∃ o ∈ s.noc.outstanding, o.m = m ∧ o.epoch ≠ s.epoch ∧
        o.dest = ((s.destOf r.addr.toNat).getD (masterRouter m, 0)).1)) →
    exec (.packetHop (.inject m r)) s = .next (s.ends s)) ∧
  (∀ (e : Fin 76) (m : Master) (r : NocReq) (st tag : BitVec 8) (s : State),
    let k : Packet := { m := m, dest := masterRouter m, dport := sourcePort m, vn := true, epoch := s.epoch, op := r.op.toNat,
                        addr := r.addr.toNat, status := st.toNat, tag := tag.toNat, data := r.data }
    (rspMalformed r st.toNat = true → ∃ t, exec (.packetHop (.response e m r st tag)) s = .next t ∧ (s.ends s).netSame t ∧
      t.rg (nocBase + 0x28) = satInc32 (s.rg (nocBase + 0x28)) ∧ t.noc = s.noc) ∧
    (rspMalformed r st.toNat = false → ∃ t, exec (.packetHop (.response e m r st tag)) s = .next t ∧
      (s.ends { s with noc := { s.noc with moving := s.noc.moving ++ [{ pkt := k, at_ := e, from_ := e }] } }).netSame t)) ∧
  (∀ (i : Nat) (p : Moving) (s : State), s.noc.moving[i]? = some p → p.arrived = false → s.behind i p = false →
    let k := s.rtEntry (b2n p.pkt.epoch) p.at_ p.pkt.dest
    let u : State := { s with noc := { s.noc with moving := s.noc.moving.eraseIdx i } }
    let z := s.probeAt p.at_ k p.pkt.seen
    let v : State := { z with noc := { z.noc with moving := z.noc.moving.eraseIdx i } }
    let off : Prop := p.pkt.vn = false ∧ p.pkt.dport = 0 ∧ p.at_ < 64 ∧ s.pstate p.at_ ≠ 0
    (∀ n, portHop p.at_ k = .next n → s.inputRoom p.at_ n p.pkt = true → ∃ t, exec (.packetHop (.move i)) s = .next t ∧
      (s.ends { s with noc := { s.noc with moving := s.noc.moving.set i { p with at_ := n, from_ := p.at_ } } }).netSame t) ∧
    (∀ n, portHop p.at_ k = .next n → s.inputRoom p.at_ n p.pkt = false → exec (.packetHop (.move i)) s = .next (s.ends s)) ∧
    (portHop p.at_ k = .local_ → ¬off → ∃ t, exec (.packetHop (.move i)) s = .next t ∧
      (s.ends { u with noc := { u.noc with moving := u.noc.moving ++ [{ p with arrived := true, since := s.now }] } }).netSame t) ∧
    (portHop p.at_ k = .local_ → off → u.netSame v ∧ v.rg (nocBase + 0x30) = u.rg (nocBase + 0x30) ∧
      ∃ t, exec (.packetHop (.move i)) s = .next t ∧ s.answersWith v t p.at_ p.pkt (responseOp p.pkt.op) 4 []) ∧
    (portHop p.at_ k = .none_ → p.pkt.vn = false →
      ∃ t, exec (.packetHop (.move i)) s = .next t ∧ s.answersWith u t p.at_ p.pkt (responseOp p.pkt.op) 6 []) ∧
    ((portHop p.at_ k = .missing ∨ (portHop p.at_ k = .none_ ∧ p.pkt.vn = true)) →
      exec (.packetHop (.move i)) s = .next (s.ends u))) ∧
  (∀ (i : Nat) (p : Moving) (s : State), s.noc.moving[i]? = some p →
    ((p.arrived = true ∨ s.behind i p = true) → exec (.packetHop (.move i)) s = .next (s.ends s)) ∧
    (p.arrived = false → s.settled = true → ∃ t, exec (.packetHop (.sideband i)) s = .next t ∧
      t.noc = { s.noc with moving := s.noc.moving.eraseIdx i } ∧ t.rg (nocBase + 0x60) = satInc32 (s.rg (nocBase + 0x60)) ∧
      t.rb (nocBase + 0x74) 5 = true ∧ t.raised = s.raised ++ (if s.rb (nocBase + 0x74) 21 then [1285] else []) ∧
      s.onlyRegs { t with noc := s.noc } [nocBase + 0x60, nocBase + 0x74]))

/-- A request that has arrived, with no earlier one of its port to the same word or register before it, leaves the
network, is performed at its target, a DRAM channel taking it by its queues' rules, and is answered: RD reads
RLEN words, WR the slots of SLOTMASK and WRB the bytes of BYTEMASK, RGR and RGW one register; RD, WR and WRB to
a register answer SIZE, RGR and RGW elsewhere TARGET_ERROR, an uncorrectable header payload MALFORMED with
nothing performed (R278, R281, R282, R283, R287). A data flit found uncorrectable is delivered with its four
groups poisoned and is counted (R288). A response completes the outstanding request of its tag with its status
and data; without one it is counted and discarded (R285). A request outstanding for RTO microseconds, RTO not 0,
completes with TIMEOUT, and its tag is retired (R285). What its clauses fix beyond the rules is the model's
choice (log entries 37 and 38). -/
def Obligations.RequestsAreAnswered : Prop :=
  (∀ (i : Nat) (bad : BitVec 8) (b1 : Bool) (c : Bool → Instr) (op : Nat) (p : Moving) (s : State),
    s.requestAt i op = some p →
    ((c = fun h => .rd i h) ∧ op = 1) ∨ ((c = fun h => .wr i h bad) ∧ op = 2) ∨ ((c = fun h => .wrb i h b1) ∧ op = 3) ∨
      ((c = fun h => .rgr i h) ∧ op = 4) ∨ ((c = fun h => .rgw i h b1) ∧ op = 5) →
    let w : State := { s with noc := { s.noc with moving := s.noc.moving.eraseIdx i } }
    let rsp := responseOp op
    let d := p.pkt.data.zipIdx.map (fun e => if bit (if op = 2 then bad else BitVec.ofNat 8 (b2n b1)) e.2 then linePoison e.1 else e.1)
    let v := w.linkBad ((List.range p.pkt.data.length).filter (fun k => bit (if op = 2 then bad else BitVec.ofNat 8 (b2n b1)) k)).length
    let z := if p.pkt.rsize = 2 then 4 else if p.pkt.rsize = 3 then 8 else 0
    (∃ t, exec (c true) s = .next t ∧ s.answersWith w t p.at_ p.pkt rsp 2 []) ∧
    (s.takesNow i p.pkt = false → exec (c false) s = .next (s.ends s)) ∧
    (s.takesNow i p.pkt = true →
      (op = 1 → inRegisters p.pkt.addr = true → ∃ t, exec (c false) s = .next t ∧ s.answersWith w t p.at_ p.pkt rsp 5 []) ∧
      ((op = 2 ∨ op = 3) → inRegisters p.pkt.addr = true → ∃ t, exec (c false) s = .next t ∧ s.answersWith v t p.at_ p.pkt rsp 5 []) ∧
      (op = 4 → inRegisters p.pkt.addr = false → ∃ t, exec (c false) s = .next t ∧ s.answersWith w t p.at_ p.pkt rsp 8 []) ∧
      (op = 5 → inRegisters p.pkt.addr = false → ∃ t, exec (c false) s = .next t ∧ s.answersWith v t p.at_ p.pkt rsp 8 []) ∧
      (∀ u st l, op = 1 → inRegisters p.pkt.addr = false → State.wordsAtTarget p.pkt.m p.pkt.rlen p.pkt.addr w = (u, st, l) →
        (st = 0 → l.length = p.pkt.rlen) ∧ ∃ t, exec (c false) s = .next t ∧ s.answersWith u t p.at_ p.pkt rsp st l) ∧
      (∀ u st, op = 2 → inRegisters p.pkt.addr = false → State.wrWords p.pkt.m p.pkt.slots 0 p.pkt.addr d v = (u, st) →
        ∃ t, exec (c false) s = .next t ∧ s.answersWith u t p.at_ p.pkt rsp st []) ∧
      (∀ u st, op = 3 → inRegisters p.pkt.addr = false →
        v.putAtTarget p.pkt.m p.pkt.addr 0 p.pkt.bytes (plainBytes p.pkt.bytes (d.headD 0)) = (u, st) →
        ∃ t, exec (c false) s = .next t ∧ s.answersWith u t p.at_ p.pkt rsp st []) ∧
      (∀ u st x, op = 4 → inRegisters p.pkt.addr = true → w.regGet p.pkt.m (p.pkt.addr - 0x4200000000) z = (u, st, x) →
        ∃ t, exec (c false) s = .next t ∧ s.answersWith u t p.at_ p.pkt rsp st [BitVec.ofNat 256 x]) ∧
      (∀ u st, op = 5 → inRegisters p.pkt.addr = true →
        v.regPut p.pkt.m (p.pkt.addr - 0x4200000000) z (fld (d.headD 0) 0 64 % 2 ^ (8 * z)) (fld (d.headD 0) 252 2 != 0) = (u, st) →
        ∃ t, exec (c false) s = .next t ∧ s.answersWith u t p.at_ p.pkt rsp st []))) ∧
  (∀ (n : Nat) (s : State), (s.linkBad n).rg (nocBase + 0x68) = iter satInc32 n (s.rg (nocBase + 0x68)) ∧
    (0 < n → (s.linkBad n).rb (nocBase + 0x74) 10 = true) ∧ (n = 0 → s.linkBad n = s) ∧
    s.onlyRegs (s.linkBad n) [nocBase + 0x68, nocBase + 0x74]) ∧
  (∀ (i : Nat) (bad : BitVec 8) (c : Instr) (op : Nat) (p : Moving) (s : State), s.settled = true →
    s.noc.moving[i]? = some p → p.arrived = true → p.pkt.vn = true → p.pkt.op = op →
    (c = .rdr i bad ∧ op = 8) ∨ (c = .wra i ∧ op = 9 ∧ bad = 0) ∨ (c = .rgrr i bad ∧ op = 0xA) ∨ (c = .rgwa i ∧ op = 0xB ∧ bad = 0) →
    let n := ((List.range p.pkt.data.length).filter (fun k => bit bad k)).length
    let d := p.pkt.data.zipIdx.map (fun e => if bit bad e.2 then linePoison e.1 else e.1)
    let e := if 0 < n ∧ s.rb (nocBase + 0x74) 26 = true then [1290] else []
    ((∃ o ∈ s.noc.outstanding, o.m = p.pkt.m ∧ o.tag = p.pkt.tag) → ∃ t, exec c s = .next t ∧
      t.noc = { s.noc with moving := s.noc.moving.eraseIdx i,
                           outstanding := s.noc.outstanding.filter (fun o => !(o.m == p.pkt.m && o.tag == p.pkt.tag)) } ∧
      t.out = s.out ++ [.answer p.pkt.m p.pkt.addr p.pkt.status (d.foldr (fun x acc => x.toNat + 2 ^ 256 * acc) 0)] ∧
      t.rg (nocBase + 0x68) = iter satInc32 n (s.rg (nocBase + 0x68)) ∧ (0 < n → t.rb (nocBase + 0x74) 10 = true) ∧
      t.raised = s.raised ++ e ∧
      s.onlyRegs { t with noc := s.noc, out := s.out } (if n = 0 then [] else [nocBase + 0x68, nocBase + 0x74])) ∧
    ((∀ o ∈ s.noc.outstanding, ¬(o.m = p.pkt.m ∧ o.tag = p.pkt.tag)) → ∃ t, exec c s = .next t ∧
      t.noc = { s.noc with moving := s.noc.moving.eraseIdx i,
                           retired := s.noc.retired.filter (fun o => !(o.m == p.pkt.m && o.tag == p.pkt.tag)) } ∧
      t.rg (nocBase + 0x64) = satInc32 (s.rg (nocBase + 0x64)) ∧ t.rb (nocBase + 0x74) 6 = true ∧
      t.rg (nocBase + 0x68) = iter satInc32 n (s.rg (nocBase + 0x68)) ∧ (0 < n → t.rb (nocBase + 0x74) 10 = true) ∧
      t.raised = s.raised ++ e ++ (if s.rb (nocBase + 0x74) 22 then [1286] else []) ∧
      s.onlyRegs { t with noc := s.noc } [nocBase + 0x64, nocBase + 0x68, nocBase + 0x74])) ∧
  (∀ (i : Nat) (o : Outstanding) (s : State), s.settled = true → s.noc.outstanding[i]? = some o →
    (s.rf nocBase 16 16 ≠ 0 → o.sent + 1000 * s.rf nocBase 16 16 ≤ s.now → ∃ t, exec (.requestTimeout i) s = .next t ∧
      t.noc = { s.noc with outstanding := s.noc.outstanding.eraseIdx i, retired := s.noc.retired ++ [{ o with sent := s.now }] } ∧
      t.out = s.out ++ [.answer o.m o.addr 7 0] ∧ t.rg (nocBase + 0x3C) = satInc32 (s.rg (nocBase + 0x3C)) ∧
      t.rb (nocBase + 0x74) 4 = true ∧ t.raised = s.raised ++ (if s.rb (nocBase + 0x74) 20 then [1284] else []) ∧
      s.onlyRegs { t with noc := s.noc, out := s.out } [nocBase + 0x3C, nocBase + 0x70, nocBase + 0x74]) ∧
    ((s.rf nocBase 16 16 = 0 ∨ s.now < o.sent + 1000 * s.rf nocBase 16 16) →
      exec (.requestTimeout i) s = .next (s.ends s)))

/-- FLIP while DRAINED is 1 takes the offline marks and starts the check; while DRAINED is 0 it stores 0x0504; while
the check runs it changes no more than the other fields of the register (R291). FLIP_CHECK_DONE stores the
lowest code, or inverts the epoch and clears DRAINED, and a router isolated before that is not marked now
carries traffic again (R291, R292, R294). DRAINED sets the bit when no packet of the old epoch is in flight, and
from then on the marks hold (R292, R294). ROUTE_TABLE_WRITE is performed only in the bank not in use, and by the
loader (R290). TRCLR empties the trace buffer (R302). PROBE_ENABLE sets EN where the check finds no code and
otherwise stores the lowest (R303). What its clauses fix beyond the rules is the model's choice (log entry 37). -/
def Obligations.RoutingTablesAreCheckedAndFlipped : Prop :=
  (∀ (v : Word32) (s : State), s.settled = true → v.getLsbD 2 = false →
    let w := s.writeFields nocBase { rw := 0xFFFF0008#32 } v
    (s.rb (nocBase + 4) 2 = false → s.rb (nocBase + 4) 1 = true → ∃ t, exec (.flip v) s = .next t ∧
      t.noc = { s.noc with checkOff := (List.range 76).filter (fun k => s.rb (nocBase + 0x10 + 4 * (k / 32)) (k % 32)) } ∧
      t.rg (nocBase + 4) = setBit (s.rg (nocBase + 4)) 2 true ∧ t.rg nocBase = setBit (w.rg nocBase) 1 true ∧
      s.onlyRegs { t with noc := s.noc } [nocBase, nocBase + 4] ∧ t.raised = s.raised) ∧
    (s.rb (nocBase + 4) 2 = false → s.rb (nocBase + 4) 1 = false → ∃ t, exec (.flip v) s = .next t ∧
      t.rf (nocBase + 8) 0 16 = 0x0504 ∧ t.rb (nocBase + 0x74) 8 = true ∧ t.rg nocBase = w.rg nocBase ∧
      t.raised = s.raised ++ (if s.rb (nocBase + 0x74) 24 then [1288] else []) ∧
      s.onlyRegs t [nocBase, nocBase + 8, nocBase + 0x74]) ∧
    (s.rb (nocBase + 4) 2 = true → ∃ t, exec (.flip v) s = .next t ∧ t.rg nocBase = w.rg nocBase ∧
      s.onlyRegs t [nocBase] ∧ t.raised = s.raised)) ∧
  (∀ s : State, s.settled = true → s.rb (nocBase + 4) 2 = true →
    let codes := s.flipCodes (1 - b2n s.epoch) s.noc.checkOff
    (codes = [] → ∃ t, exec .flipCheckDone s = .next t ∧ t.epoch = !s.epoch ∧
      t.noc = { s.noc with off := s.noc.off.filter (fun k => s.noc.checkOff.contains k) } ∧ t.rb (nocBase + 4) 1 = false ∧
      t.rb (nocBase + 4) 2 = false ∧ t.rb nocBase 1 = false ∧ t.rb (nocBase + 0x74) 7 = true ∧
      t.raised = s.raised ++ (if s.rb (nocBase + 0x74) 23 then [1287] else []) ∧
      s.onlyRegs { t with noc := s.noc } [nocBase, nocBase + 4, nocBase + 0x74]) ∧
    (∀ c, c ∈ codes → (∀ d ∈ codes, c ≤ d) → ∃ t, exec .flipCheckDone s = .next t ∧ t.epoch = s.epoch ∧
      t.rb (nocBase + 4) 2 = false ∧ t.rb nocBase 1 = false ∧ t.rf (nocBase + 8) 0 16 = c ∧ t.rb (nocBase + 0x74) 8 = true ∧
      t.raised = s.raised ++ (if s.rb (nocBase + 0x74) 24 then [1288] else []) ∧
      s.onlyRegs t [nocBase, nocBase + 4, nocBase + 8, nocBase + 0x74])) ∧
  (∀ s : State, s.settled = true →
    (s.rb (nocBase + 4) 1 = false → (∀ p ∈ s.noc.moving, p.pkt.epoch = s.epoch) → ∃ t, exec .drained s = .next t ∧
      t.rb (nocBase + 4) 1 = true ∧ t.noc = { s.noc with off := s.noc.checkOff } ∧ t.rb (nocBase + 0x74) 9 = true ∧
      t.raised = s.raised ++ (if s.rb (nocBase + 0x74) 25 then [1289] else []) ∧
      s.onlyRegs { t with noc := s.noc } [nocBase + 4, nocBase + 0x74]) ∧
    ((s.rb (nocBase + 4) 1 = true ∨ ∃ p ∈ s.noc.moving, p.pkt.epoch ≠ s.epoch) →
      ∃ t, exec .drained s = .next t ∧ s.onlyRegs t [] ∧ t.raised = s.raised)) ∧
  (∀ (m : Master) (bank : Bool) (k : Fin 76) (n : Fin 10) (v : Word32) (s : State), s.settled = true →
    let o := rtReg (b2n bank) k (8 * n)
    ((m = .loader ∨ (s.rb (nocBase + 4) 1 = true ∧ bank ≠ s.epoch)) → ∃ t, exec (.routeTableWrite m bank k n v) s = .next t ∧
      (∀ d : Nat, d < 8 → 8 * n.val + d < 76 → t.rtEntry (b2n bank) k (8 * n + d) = fld v (4 * d) 4) ∧
      t.out = s.out ++ [.answer m (0x4200000000 + o) 0 0] ∧ s.onlyRegs { t with out := s.out } [o] ∧ t.raised = s.raised) ∧
    (m ≠ .loader → (s.rb (nocBase + 4) 1 = false ∨ bank = s.epoch) → ∃ t, exec (.routeTableWrite m bank k n v) s = .next t ∧
      t.rg (nocBase + 0x24) = satInc32 (s.rg (nocBase + 0x24)) ∧ t.out = s.out ++ [.answer m (0x4200000000 + o) 1 0] ∧
      s.onlyRegs { t with out := s.out } [nocBase + 0x24, nocBase + 0x70] ∧ t.raised = s.raised)) ∧
  (∀ (v : Word32) (s : State), s.settled = true → v.getLsbD 1 = false → ∃ t, exec (.trclr v) s = .next t ∧
    t.noc = { s.noc with trace := [] } ∧ t.rg (nocBase + 0xF0) = 0 ∧
    t.rg nocBase = (s.writeFields nocBase { rw := 0xFFFF0008#32 } v).rg nocBase ∧
    s.onlyRegs { t with noc := s.noc } [nocBase, nocBase + 0xF0] ∧ t.raised = s.raised) ∧
  (∀ (n : Fin 8) (v : Word32) (s : State), s.settled = true →
    let o := probeReg n
    let w := s.writeFields o { rwl := 0x3B7F0FE0#32, en := o, enBit := 31 } (v ||| 0x80000000#32)
    let codes := w.probeCodes n (w.rg o)
    (s.rb o 31 = true → ∃ t, exec (.probeEnable n v) s = .next t ∧ s.onlyRegs t [] ∧ t.raised = s.raised) ∧
    (s.rb o 31 = false → codes = [] → ∃ t, exec (.probeEnable n v) s = .next t ∧ t.rg o = setBit (w.rg o) 31 true ∧
      s.onlyRegs t [o] ∧ t.raised = s.raised) ∧
    (∀ c, s.rb o 31 = false → c ∈ codes → (∀ d ∈ codes, c ≤ d) → ∃ t, exec (.probeEnable n v) s = .next t ∧
      t.rb o 31 = false ∧ t.rf (nocBase + 8) 0 16 = c ∧ s.onlyRegs t [o, nocBase + 8] ∧ t.raised = s.raised))

/-- A visit that is due of an enabled scrubber is at the next word that can be visited; SCR_POS then names the word
after, or the first with one pass more counted, and the next visit is due one INTERVAL after this one (R319).
Before its time, with nothing to visit, or disabled, nothing happens, and a visit in front of which a channel
froze is made again (R320, R321). A plane's visit takes port 1 of the bank; three bank cycles later a
correctable word holds its corrected data with a fresh code and is counted, and a clean one is as it was (R322).
A channel's visit comes behind the requests to its burst, passes over a word still to be filled, freezes the
channel at a word whose guard fails, and rewrites and reports any other bad word (R321, R323). Once a second,
with AUTO_SCRUB, INTERVAL halves where CE_CNT rose by CETHR, stays where it rose by less, doubles where it did
not, within IMIN and IBASE (R324, R325). SCRUB_ENABLE sets EN with a visit due at once where the intervals pass,
and is refused otherwise (R326). What its clauses fix beyond the rules is the model's choice (log entry 58). -/
def Obligations.ScrubbersVisitAdaptAndStart : Prop :=
  (∀ (dram : Bool) (k : Fin 4) (s : State), s.dead = false →
    let u : Nat := if dram then k.val + 4 else k.val
    let b := scrReg u
    let next := s.scrubNext u
    let due := (mget {} s.scrubs u).due
    ((s.rb b 0 = false ∨ next = none ∨ due = none ∨ ∃ d, due = some d ∧ s.now < d) → exec (.scrubVisit dram k) s = .next (s.ends s)) ∧
    (∀ i wrapped d w ok, s.rb b 0 = true → next = some (i, wrapped) → due = some d → d ≤ s.now →
      (if dram = false then (s.scrubCell (s.scrubAddr u i), true) else s.scrubDram k (s.scrubAddr u i)) = (w, ok) →
      let v := if wrapped then w.setRg (b + 0xC) (satInc32 (w.rg (b + 0xC))) else w
      let x : State := { v with scrubs := mset {} v.scrubs u { mget {} v.scrubs u with due := some (d + 1000 * v.rf b 16 10) } }
      (ok = false → exec (.scrubVisit dram k) s = .next (s.ends w)) ∧
      (ok = true → i + 1 < x.scrubWords u → exec (.scrubVisit dram k) s = .next (s.ends (x.setRf (b + 8) 0 31 (i + 1)))) ∧
      (ok = true → x.scrubWords u ≤ i + 1 → exec (.scrubVisit dram k) s =
        .next (s.ends ((x.setRf (b + 8) 0 31 0).setRg (b + 0xC) (satInc32 (x.rg (b + 0xC)))))))) ∧
  (∀ (r : Fin 64) (c : Fin 32) (w : Fin 1024) (s : State),
    let k := (s.region r).portOneStart c w false
    s.scrubCell (cellAddr r c w) = s.onRegion r (fun x => { x.portOneTake c w k with
      fixes := x.fixes ++ [{ cell := c, word := w, left := k + 3 }] })) ∧
  (∀ (r : Fin 64) (f : ScrubFix) (s : State), s.dead = false → s.resting r = true → (s.region r).fixes = [f] → f.left = 3 →
    (s.region r).p1 = [] → (s.region r).wrs = [] → (s.region r).rds = [] → f.found = none → f.crossed = false →
    let a := cellAddr r f.cell f.word
    let x := s.examine a
    ∃ t, exec (.memWritePhase r) s = .next t ∧ (t.region r).fixes = [] ∧
      (x.ue = false → x.ce = false → x.flagBad = false → t.mem = s.mem ∧ t.codes = s.codes) ∧
      (x.ue = false → x.ce = true → lineAt t.mem a = x.data ∧ t.code a = { wf := 3 } ∧
        t.rg (scrReg (planeOf r) + 0x14) = satInc32 (s.rg (scrReg (planeOf r) + 0x14)) ∧
        ∀ b, (b < a ∨ a + 32 ≤ b) → readByte t.mem b = readByte s.mem b)) ∧
  (∀ (c a : Nat) (s : State),
    let u := s.drainBurst c a
    let l := (s.dramPlace a).2
    let v := u.dramTouch c l
    let x := v.examine a
    ((u.dram c).st = .frozen → s.scrubDram c a = (u, false)) ∧
    ((u.dram c).st ≠ .frozen → (u.dram c).unfilled l = true → s.scrubDram c a = (u, true)) ∧
    ((u.dram c).st ≠ .frozen → (u.dram c).unfilled l = false →
      (x.guard = true → s.scrubDram c a = ((v.scrubLog (4 + c) .guard a 0).freeze c 3 a, true)) ∧
      (x.guard = false → x.ue = true → s.scrubDram c a = ((v.putLine a x.data).scrubLog (4 + c) .ueScrub a x.syn, true)) ∧
      (x.guard = false → x.ue = false → x.ce = true → s.scrubDram c a = ((v.putLine a x.data).scrubLog (4 + c) .ceScrub a x.syn, true)) ∧
      (x.guard = false → x.ue = false → x.ce = false → x.flagBad = true →
        s.scrubDram c a = ((v.putLine a x.data).scrubLog (4 + c) .flag a x.syn, true)) ∧
      (x.guard = false → x.ue = false → x.ce = false → x.flagBad = false → s.scrubDram c a = (v, true)))) ∧
  (∀ s : State, exec .scrubAdapt s = .next (s.ends ((List.range 8).foldl (fun v u => v.scrubAdaptOne u) s))) ∧
  (∀ (u : Nat) (s : State),
    let b := scrReg u
    let ce := (s.rg (b + 0x14)).toNat
    let was := (mget {} s.scrubs u).ceLast
    let iv := s.rf b 16 10
    let want := if ce ≤ was then 2 * iv else if ce - was < s.rf (b + 0x10) 24 8 then iv else iv / 2
    let v : State := { s with scrubs := mset {} s.scrubs u { mget {} s.scrubs u with ceLast := ce } }
    (s.rb (govBase + 0x100) 2 = false → s.scrubAdaptOne u = v) ∧
    (s.rb (govBase + 0x100) 2 = true →
      s.scrubAdaptOne u = v.setRf b 16 10 (min (s.rf (b + 0x10) 0 10) (max (s.rf (b + 0x10) 12 10) want)))) ∧
  (∀ (u : Fin 8) (v : Word32) (s : State),
    let b := scrReg u
    let w := s.setRg b ((s.rg b &&& ~~~0x03FF0000#32) ||| (v &&& 0x03FF0000#32))
    let off := fun n : Nat => n < 1 ∨ 1000 < n
    let bad := off (fld v 16 10) ∨ off (s.rf (b + 0x10) 0 10) ∨ off (s.rf (b + 0x10) 12 10) ∨ s.rf (b + 0x10) 0 10 < s.rf (b + 0x10) 12 10
    let e := w.setRb b 0 true
    let x : State := { e with scrubs := mset {} s.scrubs u { mget {} s.scrubs u with due := some s.now } }
    (s.rb b 0 = true → exec (.scrubEnable u v) s = .next (s.ends w)) ∧
    (s.rb b 0 = false → bad → exec (.scrubEnable u v) s = .next (s.ends (w.setRf (b + 4) 0 16 (if u.val < 4 then 0x0209 else 0x0640)))) ∧
    (s.rb b 0 = false → ¬bad → exec (.scrubEnable u v) s = .next (s.ends (if u.val < 4 then x.scrubSees u else x))))

/-- DRAM_ISSUE of a running channel pays a postponed refresh of each rank for which no request waits, or pulls one
in up to LIM (R341), and then, where a write is next, issues every write held for the burst of the oldest: a
whole word as it is with a fresh code, one of fewer slots merged with the word as read; one that meets a guard
error, or an uncorrectable word under STRICT, freezes the channel and stays held (R336, R338, R346). With
nothing waiting and no refresh left it writes the next burst of the zero-fill (R352). REFRESH_DUE uses a pulled-
in refresh, postpones one for a waiting request up to LIM, or forces it and counts it (R341, R347). MR4_POLL
starts and ends doubled refresh and reports it (R342, R343). PAGE_IDLE_PRECHARGE closes a row idle for IDLE with
no request to its bank (R339). SELF_REFRESH_ENTRY after SRIDLE of no request enters, or counts the entry
cancelled (R344, R345). In any other case each changes nothing. Each answers exactly the state named. The
activation counts toward refresh management are PRESUMED, log entry 47. What its clauses fix beyond the rules is
the model's choice (log entry 39). -/
def Obligations.DramChannelsIssueAndRefresh : Prop :=
  (∀ (c : Fin 4) (s : State),
    let d := s.dram c
    let owes := fun k : Nat => 0 < (d.rank k).post ∨ (d.rank k).pull < (d.rank k).limit
    let t := (List.range (s.ranks c)).foldl (fun v k => v.restRefresh c k) s
    let writes := d.wq ≠ [] ∧ s.readNext c = none
    let fills := d.st = .fill ∧ s.waitPlaces c = [] ∧ ∀ k, k < s.ranks c → ¬owes k
    (d.live = false → exec (.dramIssue c) s = .next (s.ends s)) ∧
    (d.live = true → writes → exec (.dramIssue c) s = .next (s.ends (t.dramIssueOldest c))) ∧
    (d.live = true → ¬writes → fills → exec (.dramIssue c) s = .next (s.ends (s.fillTo c (d.fillPos / 2 * 2 + 2)))) ∧
    (d.live = true → ¬writes → ¬fills → exec (.dramIssue c) s = .next (s.ends t)) ∧
    (s.readQueue c = [] → s.readNext c = none) ∧
    (∀ e ∈ s.readQueue c, s.aged c e.2 = true ∨ d.drain = false ∨ d.wq = [] → s.readNext c ≠ none) ∧
    ((∀ e ∈ s.readQueue c, s.aged c e.2 = false) → d.drain = true → d.wq ≠ [] → s.readNext c = none)) ∧
  (∀ (c k : Nat) (s : State),
    let x := (s.dram c).rank k
    (s.rankWaits c k = true → s.restRefresh c k = s) ∧
    (s.rankWaits c k = false → 0 < x.post →
      s.restRefresh c k = s.onDram c (fun d => (d.setRank k { x with post := x.post - 1 }).precharge k)) ∧
    (s.rankWaits c k = false → x.post = 0 → x.pull < x.limit →
      s.restRefresh c k = s.onDram c (fun d => (d.setRank k { x with pull := x.pull + 1 }).precharge k)) ∧
    (s.rankWaits c k = false → x.post = 0 → x.limit ≤ x.pull → s.restRefresh c k = s) ∧
    (∀ d : Dram, { d.precharge k with rows := d.rows, acts := d.acts } = d ∧
      ∀ b, mget none (d.precharge k).rows b = if 64 * k ≤ b ∧ b < 64 * k + 64 then none else mget none d.rows b)) ∧
  (∀ (c : Nat) (s : State),
    let d := s.dram c
    ((d.st = .frozen ∨ d.wq = []) → s.dramIssueOldest c = s) ∧
    (∀ w rest, d.st ≠ .frozen → d.wq = w :: rest →
      let l := d.wq.filter (fun x => x.addr / 64 = w.addr / 64)
      let u := l.foldl (fun v x => if (v.dram c).st = .frozen then v else v.dramIssueWrite c x) s
      let v := u.drainMark c
      s.dramIssueOldest c = v.onDram c (fun x => { x with idleFrom := v.now }) ∧
        { v.dram c with drain := (u.dram c).drain } = u.dram c)) ∧
  (∀ (c : Nat) (w : DramWrite) (s : State),
    let a := w.addr
    let t := s.dramTouch c (s.dramPlace a).2
    let x := t.examine a
    let drop := fun v : State => v.onDram c (fun d => { d with wq := d.wq.erase w })
    let put := fun (v : State) (d : Line) =>
      ({ v with mem := putBytes v.mem (a / 32 * 32) d.toNat 32, codes := mset {} v.codes (a / 32) { wf := 3 } } : State)
    let y := if x.ce then t.logChannel c .ce 1 a x.syn else if x.ue then t.logChannel c .ue 1 a x.syn else t
    (w.slots = 0xFFF#12 → s.dramIssueWrite c w = put ((drop s).dramTouch c (s.dramPlace a).2) w.data) ∧
    (w.slots ≠ 0xFFF#12 →
      (x.guard = true → s.dramIssueWrite c w = (t.logGrave (dramBase c + 0x8000) (1344 + 16 * c) .guard 1 a 0).freeze c 3 a) ∧
      (x.guard = false → x.ue = true → y.rb (dramBase c) 1 = true → s.dramIssueWrite c w = y.freeze c 4 a) ∧
      (x.guard = false → (x.ue = false ∨ y.rb (dramBase c) 1 = false) →
        s.dramIssueWrite c w = put (drop y) (writeMerge x.raw x.ue w.slots w.bytes w.data)))) ∧
  (∀ (c l : Nat) (s : State),
    let p := dramLoc (s.rg (dramBase c + 8)) (l / 32)
    let d := s.dram c
    let open_ := ∃ t, mget none d.rows p.key = some (p.row, t)
    let v := if s.rf (dramBase c + 0x14) 0 13 = 0 then none else some (p.row, s.now)
    (open_ → s.dramTouch c l = s.onDram c (fun d => { d with rows := mset none d.rows p.key v })) ∧
    (¬open_ → s.dramTouch c l = s.onDram c (fun d => { d with rows := mset none d.rows p.key v, acts := mupd 0 d.acts p.key actsNext }))) ∧
  (∀ (c n : Nat) (s : State),
    let u := s.fillTouches c n
    let t := s.fillTo c n
    (∀ a, readByte t.mem a = if a < 2 ^ 38 ∧ (s.dramPlace a).1 = c ∧ (s.dram c).fillPos ≤ (s.dramPlace a).2 / 32 ∧
      (s.dramPlace a).2 / 32 < n ∧ (s.dram c).skip.contains ((s.dramPlace a).2 / 64) = false then 0 else readByte s.mem a) ∧
    (∀ k, s.fillHits c n (32 * k) → mget {} t.codes k = {}) ∧ (∀ k, ¬s.fillHits c n (32 * k) → mget {} t.codes k = mget {} s.codes k) ∧
    t.dram c = { u.dram c with fillPos := max (s.dram c).fillPos n, skip := (s.dram c).skip.filter (fun b => n ≤ 2 * b) } ∧
    { u.dram c with rows := (s.dram c).rows, acts := (s.dram c).acts } = s.dram c ∧ (∀ k, k ≠ c → t.dram k = s.dram k) ∧
    { t with mem := s.mem, codes := s.codes, drams := s.drams } = s) ∧
  (∀ (c : Fin 4) (k : Fin 2) (s : State),
    let b := dramBase c
    let d := s.dram c
    let x := d.rank k
    let forced := (s.onDram c (fun d => d.precharge k)).setRg (b + 0x58) (satInc32 (s.rg (b + 0x58)))
    ((s.ranks c ≤ k.val ∨ (d.live = false ∧ d.st ≠ .frozen)) → exec (.refreshDue c k) s = .next (s.ends s)) ∧
    (k.val < s.ranks c → d.st = .frozen → exec (.refreshDue c k) s = .next (s.ends forced)) ∧
    (k.val < s.ranks c → d.live = true →
      (0 < x.pull → exec (.refreshDue c k) s = .next (s.ends (s.onDram c (fun d => d.setRank k { x with pull := x.pull - 1 })))) ∧
      (x.pull = 0 → s.rankWaits c k = true → x.post < x.limit →
        exec (.refreshDue c k) s = .next (s.ends (s.onDram c (fun d => d.setRank k { x with post := x.post + 1 })))) ∧
      (x.pull = 0 → (s.rankWaits c k = false ∨ x.limit ≤ x.post) → exec (.refreshDue c k) s = .next (s.ends forced)))) ∧
  (∀ (c : Fin 4) (k : Fin 2) (rate : Fin 3) (s : State),
    let b := dramBase c
    let d := s.dram c
    let x := d.rank k
    let u := if rate = 2 then s.event (b + 0x24) 2 18 (1344 + 16 * c + 6) else s
    let on_ := u.onDram c (fun d => (d.setRank k { post := 0, pull := min 2 x.pull, doubled := true }).precharge k)
    let off_ := u.onDram c (fun d => d.setRank k { x with doubled := false })
    let may := k.val < s.ranks c ∧ (d.live = true ∨ d.st = .frozen)
    (¬may → exec (.mr4Poll c k rate) s = .next (s.ends s)) ∧
    (may → rate ≠ 0 → x.doubled = false → exec (.mr4Poll c k rate) s = .next (s.ends (on_.event (b + 0x24) 1 17 (1344 + 16 * c + 5)))) ∧
    (may → rate = 0 → x.doubled = true → exec (.mr4Poll c k rate) s = .next (s.ends (off_.event (b + 0x24) 1 17 (1344 + 16 * c + 5)))) ∧
    (may → (rate ≠ 0 ↔ x.doubled = true) → exec (.mr4Poll c k rate) s = .next (s.ends u))) ∧
  (∀ (c : Fin 4) (key : Fin 128) (s : State),
    let waits := ∃ p ∈ s.waitPlaces c, p.key = key.val
    (mget none (s.dram c).rows key = none → exec (.pageIdlePrecharge c key) s = .next (s.ends s)) ∧
    (∀ row at_, mget none (s.dram c).rows key = some (row, at_) →
      let idle := at_ + s.rf (dramBase c + 0x14) 0 13 ≤ s.now
      (idle → ¬waits → exec (.pageIdlePrecharge c key) s =
        .next (s.ends (s.onDram c (fun d => { d with rows := mset none d.rows key none })))) ∧
      ((¬idle ∨ waits) → exec (.pageIdlePrecharge c key) s = .next (s.ends s)))) ∧
  (∀ (c : Fin 4) (cancelled : Bool) (s : State),
    let b := dramBase c
    let idle := 1000 * s.rf (b + 0x14) 18 14
    let may := s.rb b 2 = true ∧ idle ≠ 0 ∧ (s.dram c).st = .run ∧ s.waitPlaces c = [] ∧ (s.dram c).idleFrom + idle ≤ s.now
    let e : Dram := { s.dram c with
      rows := [], acts := [], rank0 := { (s.dram c).rank0 with post := 0 }, rank1 := { (s.dram c).rank1 with post := 0 } }
    (¬may → exec (.selfRefreshEntry c cancelled) s = .next (s.ends s)) ∧
    (may → cancelled = false → exec (.selfRefreshEntry c cancelled) s =
      .next (s.ends ((s.onDram c (fun _ => { e with st := .sref })).setRg (b + 0x50) (satInc32 (s.rg (b + 0x50)))))) ∧
    (may → cancelled = true → exec (.selfRefreshEntry c cancelled) s =
      .next (s.ends ((s.onDram c (fun _ => { e with idleFrom := s.now })).setRg (b + 0x54) (satInc32 (s.rg (b + 0x54)))))))

/-- A freeze cause on a channel stops it with the cause, place, time and number of held writes in DDR_FRZ, a logbook
entry and event 0; a later cause, or a record not yet taken, is only counted in MORE (R346 to R348). UNFREEZE
issues the writes held and runs, or is refused with 0x0610 where nothing is frozen (R348). A training-wheels
operation of another master than the puppeteer is answered with ACCESS_REFUSED, one while BUSY is ignored, one
in a state other than OFF and FROZEN is refused with 0x0611, a reserved PAT does nothing; else WRRD stores the
raw pattern and compares, RD compares, CMD sends the command and takes each device's MRR result, and TW_DONE
sets DONE and event 4 (R349, R357). CHRST returns the channel to OFF, DDR_TRAINED and DDR_FAIL set their bits,
the latter with the state FAILED, for the puppeteer and the boot alone (R350, R351, R356). DDR_ENABLE sets EN
with a zero-fill where the channel is not filled, or stores the lowest code of R354; with UNFREEZE set it
unfreezes first. FILL_DONE ends the fill (R352). Each answers exactly the state named. -/
def Obligations.DramChannelsFreezeTrainAndStart : Prop :=
  (∀ (c : Fin 4) (crc : Bool) (a : Addr) (rank sub : Fin 2) (s : State),
    let b := dramBase c
    let on_ := (s.dram c).live = true ∨ (s.dram c).st = .sref ∨ (s.dram c).st = .frozen
    let u := s.freeze c (if crc then 2 else 1) (if crc then a.toNat else 0)
    let first := s.rb (b + 0x30) 31 = false ∧ (s.dram c).st ≠ .frozen
    (¬on_ → exec (.dramAlert c crc a rank sub) s = .next (s.ends s)) ∧
    (on_ → first → exec (.dramAlert c crc a rank sub) s = .next (s.ends ((u.setRf (b + 0x30) 9 1 rank).setRf (b + 0x30) 8 1 sub))) ∧
    (on_ → ¬first → exec (.dramAlert c crc a rank sub) s = .next (s.ends u))) ∧
  (∀ (c cause a : Nat) (s : State),
    let b := dramBase c
    let more := fun v : State => v.setRf (b + 0x30) 4 4 (min 15 (v.rf (b + 0x30) 4 4 + 1))
    let u := s.onDram c (fun d => { d with st := .frozen })
    let p := dramLoc (s.rg (b + 8)) ((s.dramPlace a).2 / 32)
    let place := if 3 ≤ cause then p.rank * 2 ^ 9 + p.sub * 2 ^ 8 else 0
    let w := if s.rb (b + 0x30) 31 then more u
      else (((u.setRg (b + 0x30) (BitVec.ofNat 32 (2 ^ 31 + min 127 (s.dram c).wq.length * 2 ^ 16 + place + cause))).setRg (b + 0x34)
        (BitVec.ofNat 32 (a / 32 * 32))).setRg (b + 0x38) (BitVec.ofNat 32 (a / 2 ^ 32 % 256))).setRg64 (b + 0x40) s.now
    ((s.dram c).st = .frozen → s.freeze c cause a = more s) ∧
    ((s.dram c).st ≠ .frozen → s.freeze c cause a =
      (w.lbAppend 0x0011 [(c, 4), ((w.rg (b + 0x30)).toNat, 4), (a, 8)]).event (b + 0x24) 0 16 (1344 + 16 * c + 4))) ∧
  (∀ (c : Fin 4) (s : State), exec (.unfreeze c) s = .next (s.ends (s.unfreeze c)) ∧
    ((s.dram c).st ≠ .frozen → s.unfreeze c = s.setRf (dramBase c + 4) 0 16 0x0610) ∧
    ((s.dram c).st = .frozen → s.unfreeze c =
      iter (fun v => v.dramIssueOldest c) (s.dram c).wq.length (s.onDram c (fun d => { d with st := .run })))) ∧
  (∀ (m : Master) (c : Fin 4) (v : Word32) (bad : List (Nat × Nat × BitVec 40)) (mrr : List (BitVec 8)) (cmd : Instr) (op : Nat) (s : State),
    let b := dramBase c
    let w := s.setRg (b + 0x4000) ((s.rg (b + 0x4000) &&& ~~~0xFFFF007E#32) ||| (setFld v 1 2 op &&& 0xFFFF007E#32))
    let off_ := (s.dram c).st = .off ∨ (s.dram c).st = .frozen
    let busy := fun u : State => u.onDram c (fun d => { d with twBusy := true })
    (cmd = .twWrrd m c v bad ∧ op = 0) ∨ (cmd = .twRd m c v bad ∧ op = 1) ∨ (cmd = .twCmd m c v mrr ∧ op = 2) →
    (m ≠ .puppeteer → ∃ t, exec cmd s = .next t ∧ t.out = s.out ++ [.answer m (0x4200000000 + (b + 0x4000)) 1 0] ∧
      t.rg (nocBase + 0x24) = satInc32 (s.rg (nocBase + 0x24)) ∧ (s.ends { s with out := t.out }).netSame t) ∧
    (m = .puppeteer → (s.dram c).twBusy = true → exec cmd s = .next (s.ends s)) ∧
    (m = .puppeteer → (s.dram c).twBusy = false → ¬off_ → exec cmd s = .next (s.ends (w.setRf (b + 4) 0 16 0x0611))) ∧
    (m = .puppeteer → (s.dram c).twBusy = false → off_ → 2 ≤ fld v 3 2 → exec cmd s = .next (s.ends w)) ∧
    (m = .puppeteer → (s.dram c).twBusy = false → off_ → fld v 3 2 < 2 →
      (op = 0 → exec cmd s = .next (s.ends (busy (w.twWrrd c bad))) ∧
        { w.twWrrd c bad with mem := w.mem, codes := w.codes, regs := w.regs } = w ∧
        (∀ o, (o < b + 0x4200 ∨ b + 0x4400 ≤ o) → (w.twWrrd c bad).rg o = w.rg o) ∧
        (fld v 16 16 = 0 → bad = [] → (∀ o, (w.twWrrd c bad).rg o = w.rg o) ∧
          (w.twWrrd c bad).rawSlot (s.dramAddr c (32 * w.twWord c 0)) = slotOfBeats (w.twBeat c 0) ∧
          (w.twWrrd c bad).rawSlot (s.dramAddr c (32 * (w.twWord c 0 + 1))) = slotOfBeats (fun k => w.twBeat c 0 (8 + k)))) ∧
      (op = 1 → exec cmd s = .next (s.ends (busy (w.twRd c bad))) ∧ { w.twRd c bad with regs := w.regs } = w ∧
        (∀ o, (o < b + 0x4200 ∨ b + 0x4400 ≤ o) → (w.twRd c bad).rg o = w.rg o)) ∧
      (op = 2 →
        let sub := 2 * b2n (w.rb (b + 0x4000) 5) + b2n (w.rb (b + 0x4000) 6)
        let at_ := fun i : Nat => b + 0x4800 + 0x200 * sub + 4 * (92 + i)
        let u : State := { w with out := s.out ++ [.dramRaw c (w.rb (b + 0x4000) 5) (w.rb (b + 0x4000) 6) (s.rg (b + 0x4008))] }
        let x := w.twCmd c mrr
        exec cmd s = .next (s.ends (busy x)) ∧ { x with regs := u.regs } = u ∧
          (∀ i r, i < 10 → mrr[i]? = some r → x.rf (at_ i) 0 8 = r.toNat) ∧
          (∀ o, (∀ i, i < 10 → i < mrr.length → o ≠ at_ i) → x.rg o = u.rg o)))) ∧
  (∀ (c : Fin 4) (s : State),
    ((s.dram c).twBusy = true → exec (.twDone c) s = .next (s.ends
      (((s.onDram c (fun d => { d with twBusy := false })).setRb (dramBase c + 0x400C) 30 true).event (dramBase c + 0x24) 4 20 (1344 + 16 * c + 8)))) ∧
    ((s.dram c).twBusy = false → exec (.twDone c) s = .next (s.ends s))) ∧
  (∀ (m : Master) (c : Fin 4) (s : State),
    let b := dramBase c
    let ans := fun u : State => ({ u with out := s.out ++ [.answer m (0x4200000000 + b + 0x20) 0 0] } : State)
    let may := m = .puppeteer ∨ m = .loader
    (may → exec (.chrst m c) s = .next (s.ends (ans (((s.setRf (b + 0x20) 0 2 0).setRb b 0 false).onDram c (fun _ => {}))))) ∧
    (may → exec (.ddrTrained m c) s = .next (s.ends (ans (s.setRb (b + 0x20) 0 true)))) ∧
    (may → exec (.ddrFail m c) s = .next (s.ends (ans ((s.setRb (b + 0x20) 1 true).onDram c (fun d => { d with st := .failed }))))) ∧
    (∀ cmd, ¬may → cmd = .chrst m c ∨ cmd = .ddrTrained m c ∨ cmd = .ddrFail m c →
      ∃ t, exec cmd s = .next t ∧ t.out = s.out ++ [.answer m (0x4200000000 + b + 0x20) 1 0] ∧
        t.rg (nocBase + 0x24) = satInc32 (s.rg (nocBase + 0x24)) ∧ (s.ends { s with out := t.out }).netSame t)) ∧
  (∀ (c : Fin 4) (v : Word32) (s : State),
    let b := dramBase c
    let w := s.setRg b ((s.rg b &&& ~~~0x6#32) ||| (v &&& 0x6#32))
    let u := if bit v 3 then w.unfreeze c else w
    let e := (u.setRb b 0 true).onDram c (fun d => { d with
      st := if d.st = .frozen then .frozen else if d.filled then .run else .fill, rank0 := {}, rank1 := {}, idleFrom := u.now })
    (s.rb b 0 = true → exec (.ddrEnable c v) s = .next (s.ends u)) ∧
    (s.rb b 0 = false → u.ddrCheck c = [] → exec (.ddrEnable c v) s = .next (s.ends e)) ∧
    (∀ k, s.rb b 0 = false → k ∈ u.ddrCheck c → (∀ d ∈ u.ddrCheck c, k ≤ d) →
      exec (.ddrEnable c v) s = .next (s.ends (u.setRf (b + 4) 0 16 k)))) ∧
  (∀ (c k : Nat) (s : State),
    let b := dramBase c
    let org := s.rf (b + 8) 4 2
    let q := b + 0x18
    k ∈ s.ddrCheck c ↔ (k = 0x0601 ∧ org = 3) ∨ (k = 0x0602 ∧ s.rf (b + 8) 0 3 = 7) ∨
      (k = 0x0603 ∧ s.rb (dramBase 0 + 0xC) 0 = true ∧
        (s.rf (b + 8) 0 3 ≠ s.rf (dramBase 0 + 8) 0 3 ∨ s.rf (b + 8) 4 4 ≠ s.rf (dramBase 0 + 8) 4 4)) ∨
      (k = 0x0604 ∧ s.rb (b + 0x20) 0 = false) ∨
      (k = 0x0605 ∧ (4000 < s.rf (b + 0x14) 0 13 ∨ 10000 < s.rf (b + 0x14) 18 14 ∨ s.rf q 0 6 = 0 ∨ s.rf q 0 6 ≤ s.rf q 8 6 ∨
        s.rf q 16 16 = 0)) ∨
      (k = 0x0607 ∧ (s.dram c).st = .failed)) ∧
  (∀ (c : Fin 4) (s : State),
    ((s.dram c).st = .fill → exec (.fillDone c) s = .next (s.ends
      (((s.fillTo c (s.dramCap c * 2 ^ 25)).onDram c (fun d => { d with st := .run, filled := true, skip := [] })).event
        (dramBase c + 0x24) 3 19 (1344 + 16 * c + 7)))) ∧
    ((s.dram c).st ≠ .fill → exec (.fillDone c) s = .next (s.ends s)))

/-- PIN_EDGE sets what the outside drives on the pin, and the keepers of the pin and its complement take the levels
now at their pads (R505). Where the level at the pad does not change, that is all. A change at a pin that a
region owns enters the input stage of its slot, where the function captures levels: 4 cycles for IN and 6 for a
quadrature input, plus FILT, plus at most one that the spec leaves open, and drops levels there not stable for
FILT + 1 cycles (R43, R362, R365, R368). A change at a pin of the time-stamp unit sets TIME to machine time,
sets the flag and raises source 1472 + k of each enabled channel that captures that edge, and of no other
(R371). Each answers exactly the state named. What its clauses fix beyond the rules is the model's choice (log
entry 23). -/
def Obligations.PinEdgesReachTheirOwners : Prop :=
  (∀ (p : Fin 512) (d : Option Bool) (s : State),
    let w := State.keepPad { s with pads := mupd {} s.pads p (fun x => { x with ext := d }) } p
    let high := !s.padLevel p
    (w.padLevel p = s.padLevel p → exec (.pinEdge p d) s = .next (s.ends w)) ∧
    (w.padLevel p ≠ s.padLevel p → exec (.pinEdge p d) s =
      .next (s.ends ((({ w with fresh := s.fresh + 1 } : State).captureEdge p high (Config.edgeLate s.fresh)).tsuEdge p high)))) ∧
  (∀ (p : Nat) (s : State),
    s.keepPad p = (s.keepOne p).keepOne (p ||| 1) ∧
    ((mget {} s.pads p).ext = none → s.padDrive p = none → s.keepOne p = s) ∧
    (¬((mget {} s.pads p).ext = none ∧ s.padDrive p = none) →
      s.keepOne p = { s with pads := mupd {} s.pads p (fun x => { x with keep := some (s.padLevel p) }) })) ∧
  (∀ (p : Nat) (level late : Bool) (s : State),
    (s.pinRegion p = none → s.captureEdge p level late = s) ∧
    (∀ r, s.pinRegion p = some r →
      let k := p % 64
      let v := (s.region r).active.slot k
      let new : PinCapture :=
        { slot := k, left := (if slotFunc v = 1 then 4 else 6) + slotFilt v + (if late then 1 else 0), level := xor level (slotInv v) }
      let stable := fun a : PinCapture => !(a.slot == k && slotFilt v != 0 && decide (a.age ≤ slotFilt v))
      ((slotFunc v = 1 ∨ slotFunc v = 6 ∨ slotFunc v = 7 ∨ slotFunc v = 8) → s.captureEdge p level late =
        s.onRegion r (fun x => { x with pinWay := x.pinWay.filter stable ++ [new] })) ∧
      (¬(slotFunc v = 1 ∨ slotFunc v = 6 ∨ slotFunc v = 7 ∨ slotFunc v = 8) → s.captureEdge p level late = s))) ∧
  (∀ (p : Nat) (level : Bool) (s : State),
    let takes := fun k : Nat => s.rb (tsuReg k) 31 && s.rf (tsuReg k) 0 9 == p && s.rf (tsuReg k) 24 2 == (if level then 0 else 1) &&
      s.pinOwn p == 9 && s.rb mioBase 0
    let t := s.tsuEdge p level
    (∀ k, k < 8 → takes k = true → t.rg64 (tsuReg k + 8) = s.now % 2 ^ 64 ∧ t.rb (tsuReg k + 4) 0 = true ∧
      ∀ j, 1 ≤ j → j < 32 → t.rb (tsuReg k + 4) j = s.rb (tsuReg k + 4) j) ∧
    t.raised = s.raised ++ ((List.range 8).filter takes).map (fun k => 1472 + k) ∧
    s.onlyRegs t (((List.range 8).filter takes).flatMap (fun k => [tsuReg k + 4, tsuReg k + 8, tsuReg k + 12])) ∧ t.fresh = s.fresh)

/-- PAD_OUTPUT lets the cycles of a region at rest pass until the slot's next sample leaves its output stage, which
then drives: a level output the sample's level, inverted by INV, or high impedance; the park level for a
poisoned sample; a park sample always its own level; a generator starts or stops (R43, R316, R362, R364). A PWM
slot takes the value last routed at each load point the grid passes (R363, R366). SSI_WORD_READY presents the 20
bits of each word that is due, once a frame, and reports a pad that was low at the first falling edge (R369).
SDDAT_CAPTURE enters the level at the pad into the input stage, once each SKEW cycles after a rising edge,
readable 5 cycles on (R367). TSU_COMPARE drives the pad by its MODE, sets its flag and raises its source, once
for a TIME that has come (R371). SWIO_WRITE writes its register (R371). In any other case each changes nothing.
The grid a load point passes in one step of machine time is the model's choice, log entry 41. -/
def Obligations.PinOutputsTakeTheirSamples : Prop :=
  (∀ (r k : Fin 64) (s : State), s.dead = false →
    (s.resting r = false → exec (.padOutput r k) s = .next (s.ends s)) ∧
    (s.resting r = true → (∀ g ∈ (s.region r).pinOut, g.slot ≠ k.val) → exec (.padOutput r k) s = .next (s.ends s)) ∧
    (∀ g, s.resting r = true → g ∈ (s.region r).pinOut → g.slot = k.val → (∀ h ∈ (s.region r).pinOut, h.slot = k.val → g.left ≤ h.left) →
      exec (.padOutput r k) s = .next (s.ends (iter (fun u => u.idleCycle r) g.left s)))) ∧
  (∀ (r k : Fin 64) (g : PinStage) (s : State), s.dead = false → s.resting r = true →
    (s.region r).pinOut = [g] → g.slot = k.val → 1 ≤ g.left → g.park = false → (s.region r).flights = [] → (s.region r).fixes = [] →
    (s.region r).rds = [] → (s.region r).wrs = [] → (s.region r).p1 = [] →
    let v := (s.region r).active.slot k
    slotFunc v = 2 →
    ∃ t, exec (.padOutput r k) s = .next t ∧ (t.region r).pinOut = [] ∧
      (mget {} (t.region r).slots k).drive =
        (if g.c.p then driveOf (bit v 0) (bit v 4) else driveOf (xor (g.c.v.getLsbD 0) (slotInv v)) (g.c.v.getLsbD 4)) ∧
      (mget {} (t.region r).slots k).parked = false ∧
      t.mem = s.mem ∧ t.codes = s.codes ∧ (∀ n, n ≠ r.val → t.region n = s.region n)) ∧
  (∀ (r : Nat) (g : PinStage) (s : State),
    let v := (s.region r).active.slot g.slot
    let y := mget {} (s.region r).slots g.slot
    let now := s.grid r
    let high := g.c.v.getLsbD 0
    let park := driveOf (bit v 0) (bit v 4)
    let gives := fun z : SlotState => s.stageOut r g = (s.onSlot r g.slot (fun _ => z)).keepSlot r g.slot
    let runs := { y with gen := !g.c.p, parked := g.c.p, drive := if g.c.p then park else y.drive }
    (g.park = true →
      gives { y with drive := driveOf high (g.c.v.getLsbD 4), parked := true, gen := false, pwmRouted := none }) ∧
    (g.park = false →
      (slotFunc v = 0x2 →
        gives { y with drive := if g.c.p then park else driveOf (xor high (slotInv v)) (g.c.v.getLsbD 4), parked := false }) ∧
      (slotFunc v = 0x3 →
        let z := { y.pwmTake (slotParam v 8 20) (now - 1) park with pwmRouted := some g.c }
        gives { z.pwmTake (slotParam v 8 20) now park with seen := now }) ∧
      (slotFunc v = 0x4 → gives { runs with clkOn := high, seen := if high && !y.clkOn then now else y.seen }) ∧
      (slotFunc v = 0x9 → gives runs) ∧
      (isOutputFunc (slotFunc v) = false → gives y))) ∧
  (∀ (y : SlotState) (half g : Nat) (park : Option Bool) (c : Chan),
    (g / half ≤ y.seen / half → y.pwmTake half g park = y) ∧
    (y.seen / half < g / half → y.pwmRouted = none → y.pwmTake half g park = { y with seen := g }) ∧
    (y.seen / half < g / half → y.pwmRouted = some c → y.pwmTake half g park =
      { y with seen := g, pwmLoaded := c, gen := !c.p, parked := c.p, drive := if c.p then park else y.drive })) ∧
  (∀ (r : Nat) (v : BitVec 64) (y : SlotState) (s : State),
    let clock := (if s.rb (regionBase r + 0x200) 1 then 10 else 12) * s.now
    let g := clock / 8
    let half := slotParam v 8 20
    let div := slotParam v 8 8
    let pos := clock % (16 * half)
    let c := y.pwmLoaded.v.toNat
    let d := g - y.ssiFrom
    (slotFunc v = 0x3 → s.genLevel r v y = xor (slotInv v) (decide (pos < c ∨ 16 * half ≤ pos + c))) ∧
    (slotFunc v = 0x4 → s.genLevel r v y = xor (slotInv v) (y.clkOn && decide (g % div < (div + 1) / 2))) ∧
    (slotFunc v = 0x9 → s.genLevel r v y = xor (slotInv v)
      (decide (y.frames = 0 ∨ g < y.ssiFrom ∨ div * (slotParam v 16 5 + 1) ≤ d ∨ div / 2 ≤ d % div)))) ∧
  (∀ (k g : Nat) (c : Chan) (x : Region),
    let v := x.active.slot k
    let y := mget {} x.slots k
    let busy := y.frames ≠ 0 ∧ g < y.ssiFrom + slotParam v 16 5 * slotParam v 8 8 + slotParam v 8 8 / 2 + 16 * slotParam v 24 8
    let starts := slotFunc v = 0x9 ∧ c.v.getLsbD 0 = true ∧ c.p = false ∧ ¬busy
    let stage : PinStage := { slot := k, left := 8, c := c }
    (starts → x.routePin k c g = { x with
      pinOut := x.pinOut ++ [stage], slots := mset {} x.slots k { y with routed := c, ssiFrom := g + 8, frames := y.frames + 1 } }) ∧
    (¬starts → x.routePin k c g = { x with
      pinOut := x.pinOut ++ [stage], slots := mset {} x.slots k { y with routed := c } })) ∧
  (∀ (row col : Fin 8) (k : Fin 64) (s : State), s.dead = false →
    let r : Nat := 8 * row.val + col.val
    let v := (s.region r).active.slot k
    (slotFunc v ≠ 3 → exec (.pwmLoadPoint row col k) s = .next (s.ends s)) ∧
    (slotFunc v = 3 → exec (.pwmLoadPoint row col k) s = .next (s.ends
      ((s.onSlot r k (fun y => y.pwmTake (slotParam v 8 20) (s.grid r) (driveOf (bit v 0) (bit v 4)))).keepSlot r k)))) ∧
  (∀ (r k : Nat) (s : State), (s.slotPin r k = none → s.keepSlot r k = s) ∧ ∀ p, s.slotPin r k = some p → s.keepSlot r k = s.keepPad p) ∧
  (∀ (r clk : Fin 64) (ws : List (Fin 64 × Word32 × Bool)) (s : State), s.dead = false →
    (slotFunc ((s.region r).active.slot clk) ≠ 9 → exec (.ssiWordReady r clk ws) s = .next (s.ends s)) ∧
    (slotFunc ((s.region r).active.slot clk) = 9 → exec (.ssiWordReady r clk ws) s =
      .next (s.ends (ws.foldl (fun u e => u.ssiWord r clk (e.1.val, e.2.1, e.2.2)) s)))) ∧
  (∀ (r clk j : Nat) (w : Word32) (low : Bool) (s : State),
    let h := (s.region r).active
    let v := h.slot j
    let c := h.slot clk
    let y := mget {} (s.region r).slots clk
    let n := slotParam c 16 5 + 1
    let due := slotFunc v = 0xA ∧ slotParam v 8 6 = clk ∧ (mget {} (s.region r).slots j).frames ≠ y.frames ∧
      y.ssiFrom + 5 + slotParam c 8 8 / 2 + (n - 1) * slotParam c 8 8 + slotParam v 16 4 ≤ s.grid r
    let word := (if slotInv v then ~~~ w else w).toNat % 2 ^ n
    let t := s.onSlot r j (fun z => { z with
      frames := y.frames, presented := { v := BitVec.ofNat 20 (word / 2 ^ slotParam v 20 5 % 2 ^ 20) } })
    (¬due → s.ssiWord r clk (j, w, low) = s) ∧
    (due → xor low (slotInv v) = false → s.ssiWord r clk (j, w, low) = t) ∧
    (due → xor low (slotInv v) = true → s.ssiWord r clk (j, w, low) =
      (t.setRb (mioBase + 8) 1 true).raiseIf (t.rb (mioBase + 8) 17) 1481)) ∧
  (∀ (r k : Fin 64) (s : State), s.dead = false →
    let x := s.region r
    let v := x.active.slot k
    let clk := slotParam v 8 6
    let y := mget {} x.slots clk
    let div := slotParam (x.active.slot clk) 8 8
    let skew := slotParam v 16 4
    let g := s.grid r
    let edge := (g - skew) / div * div
    let due := slotFunc v = 5 ∧ slotFunc (x.active.slot clk) = 4 ∧ y.clkOn = true ∧ skew ≤ g ∧ y.seen ≤ edge ∧
      (mget {} x.slots k).seen < edge + skew
    ((¬due ∨ s.slotPin r k = none) → exec (.sddatCapture r k) s = .next (s.ends s)) ∧
    (∀ p, due → s.slotPin r k = some p → exec (.sddatCapture r k) s = .next (s.ends
      (({ s with fresh := s.fresh + 1 } : State).onRegion r (fun x => { x with
        slots := mupd {} x.slots k (fun z => { z with seen := g }),
        pinWay := x.pinWay ++ [{ slot := k, left := 5, level := xor (s.padLevel p) (slotInv v) }] }))))) ∧
  (∀ (k : Fin 8) (s : State), s.dead = false →
    let p := s.rf (tsuReg k) 0 9
    let mode := s.rf (tsuReg k) 24 2
    let due := s.rb (tsuReg k) 31 = true ∧ 2 ≤ mode ∧ s.pinOwn p = 9 ∧ s.rb mioBase 0 = true ∧ k.val ∉ s.tsuDone ∧
      s.rg64 (tsuReg k + 8) ≤ s.now
    (due → exec (.tsuCompare k) s = .next (s.ends (((({ s with
      tsuDrive := mset none s.tsuDrive p (some (decide (mode = 2))), tsuDone := s.tsuDone ++ [k.val] } : State).setRb
        (tsuReg k + 4) 0 true).keepPad p).raise (1472 + k.val)))) ∧
    (¬due → exec (.tsuCompare k) s = .next (s.ends s))) ∧
  (∀ (k : Fin 32) (v : Word32) (s : State),
    let o := if k.val < 16 then mioBase + 0x2000 + 4 * k.val else mioBase + 0x2040 + 4 * (k.val - 16)
    let mine := (List.range 32).filter (fun j => decide ((s.setRg o v).pinOwn (32 * (k.val % 16) + j) = 8))
    exec (.swioWrite k v) s = .next (s.ends (mine.foldl (fun u j => u.keepPad (32 * (k.val % 16) + j)) (s.setRg o v))))

/-- MIO_ENABLE while EN is 0 sets EN where the check of R385 finds no code, and otherwise leaves EN 0 with the
lowest code in REASON; while EN is 1 it changes nothing (R8, R360, R385). The check finds 0x0801 to 0x0806
exactly where R360, R361 and R385 say. MIO_DISABLE clears EN where no perimeter region is enabled, and is
otherwise refused with 0x0805. As EN changes the keepers take the levels at their pads (R505). What its clauses
fix beyond the rules is the model's choice (log entry 23). -/
def Obligations.MachineIoIsEnabledAndDisabled : Prop :=
  (∀ (v : Word32) (s : State),
    let u := s.setRb mioBase 0 true
    (s.rb mioBase 0 = true → exec (.mioEnable v) s = .next (s.ends s)) ∧
    (s.rb mioBase 0 = false → s.mioCheck = [] → exec (.mioEnable v) s = .next (s.ends u.keepAll)) ∧
    (∀ c, s.rb mioBase 0 = false → c ∈ s.mioCheck → (∀ d ∈ s.mioCheck, c ≤ d) →
      exec (.mioEnable v) s = .next (s.ends (s.setRf (mioBase + 4) 0 16 c)))) ∧
  (∀ s : State,
    s.keepAll = ((List.range 512).filter (fun p => decide (s.rf (mioBase + 0x1000 + 4 * p) 8 2 = 3))).foldl (fun u p => u.keepPad p) s) ∧
  (∀ s : State,
    let own := fun p : Nat => s.rf (mioBase + 0x1000 + 4 * p) 0 4
    let std := fun p : Nat => s.rf (mioBase + 0x1000 + 4 * p) 4 2
    (∀ c ∈ s.mioCheck, c = 0x0801 ∨ c = 0x0802 ∨ c = 0x0803 ∨ c = 0x0804 ∨ c = 0x0806) ∧
    (0x0801 ∈ s.mioCheck ↔ ∃ p, p < 512 ∧
      ((5 ≤ own p ∧ own p ≤ 7) ∨ 9 < own p ∨ s.rf (mioBase + 0x1000 + 4 * p) 6 2 = 3 ∨ 2 ≤ std p)) ∧
    (0x0802 ∈ s.mioCheck ↔ ∃ p, p < 512 ∧ own p = 4 ∧ p / 64 ∈ [0, 1, 6, 7]) ∧
    (0x0803 ∈ s.mioCheck ↔ ∃ p, p < 512 ∧ p % 2 = 0 ∧ (std p = 1 ∨ std (p + 1) = 1) ∧ (std p ≠ std (p + 1) ∨ own p ≠ own (p + 1))) ∧
    (0x0804 ∈ s.mioCheck ↔ ∃ k, k < 8 ∧ s.rb (tsuReg k) 31 = true ∧ (own (s.rf (tsuReg k) 0 9) ≠ 9 ∨
      ∃ j, j < 8 ∧ j ≠ k ∧ s.rb (tsuReg j) 31 = true ∧ s.rf (tsuReg j) 0 9 = s.rf (tsuReg k) 0 9)) ∧
    (0x0806 ∈ s.mioCheck ↔ ∃ p r, p < 512 ∧ s.pinRegion p = some r ∧ s.rb (regionBase r + 0x200) 0 = true)) ∧
  (∀ (v : Word32) (s : State),
    ((∃ r ∈ perimeterRegions, s.regionEn r = true) →
      exec (.mioDisable v) s = .next (s.ends (s.setRf (mioBase + 4) 0 16 0x0805))) ∧
    ((∀ r ∈ perimeterRegions, s.regionEn r = false) →
      (s.rb mioBase 0 = true → exec (.mioDisable v) s = .next (s.ends (s.keepAll.setRb mioBase 0 false))) ∧
      (s.rb mioBase 0 = false → exec (.mioDisable v) s = .next (s.ends s))))

/-- A packet counts only while the receiver is enabled, and belongs to the master of its connection (R373). A packet
of another stream is counted; an image header starts a frame (R374). A pixel of a frame becomes one sample, or
with PACK one half of one, with E on the last of a line; a lost pixel is 0 and poisoned, and the loss is counted
once a packet (R374). Where the buffer is full, which is left free, a poisoned sample with E closes the line,
the rest of the frame is dropped, and it is counted (R375). The last pixel stores number, slot and time of the
frame and sets event 0 (R376). With HEN the samples fill history words, the twelfth or the frame's last writes
one, a write that meets an error response is counted, and samples past the slot are dropped and counted once a
frame (R376). MBX_SEND sends the words of the mailbox once the device has booted, MBX_RECEIVE stores what came
with its length (R389). In any other case each changes nothing. Each answers exactly the state named. What its
clauses fix beyond the rules is the model's choice (log entry 50). -/
def Obligations.CoaxpressPacketsBecomeSamples : Prop :=
  (∀ (i : Fin 16) (k : CxpPacket) (s : State), s.dead = false → s.rb (cxpReg i) 0 = false →
    exec (.cxpStreamPacket i k) s = .next (s.ends s)) ∧
  (∀ (i : Fin 16) (s : State), s.dead = false → s.rb (cxpReg i) 0 = true →
    let m := s.cxpMaster i
    let b := cxpReg m
    let lost := s.setRg (b + 0x30) (satInc32 (s.rg (b + 0x30)))
    exec (.cxpStreamPacket i .otherStream) s = .next (s.ends lost) ∧
    (∀ xs ys : BitVec 24, exec (.cxpStreamPacket i (.header xs ys)) s = .next (s.ends { s with
      cxps := mset {} s.cxps m { s.cxp m with
        xsize := xs.toNat, ysize := ys.toNat, row := 0, col := 0, half := none, idx := 0, word := [], active := true,
        dropping := false, passed := false, first := some s.now } })) ∧
    (∀ px, exec (.cxpStreamPacket i (.pixels px false)) s = .next (s.ends (px.foldl (fun u v => u.cxpPixel m v false) s))) ∧
    (∀ px, exec (.cxpStreamPacket i (.pixels px true)) s =
      .next (s.ends (px.foldl (fun u v => u.cxpPixel m v true) (lost.cxpEvent m 1))))) ∧
  (∀ (i : Fin 16) (s : State),
    let leads := fun (m n : Nat) => s.rb (cxpReg m) 0 = true ∧ nconnOf (s.rf (cxpReg m) 8 2) = n
    (leads (i / 4 * 4) 4 → s.cxpMaster i = i / 4 * 4) ∧
    (¬leads (i / 4 * 4) 4 → leads (i / 2 * 2) 2 → s.cxpMaster i = i / 2 * 2) ∧
    (¬leads (i / 4 * 4) 4 → ¬leads (i / 2 * 2) 2 → s.cxpMaster i = i)) ∧
  (∀ (m k : Nat) (s : State), s.cxpEvent m k =
    (s.setRb (cxpReg m + 0x44) k true).raiseIf ((s.setRb (cxpReg m + 0x44) k true).rb (cxpReg m + 0x44) (16 + k)) (1632 + 6 * m + k)) ∧
  (∀ (m : Nat) (px : BitVec 16) (bad : Bool) (s : State),
    let b := cxpReg m
    let x := s.cxp m
    let v := if bad then 0 else px.toNat % 2 ^ (8 + 2 * s.rf b 13 3)
    let last := decide (x.xsize ≤ x.col + 1)
    let moved := fun u : State => u.onCxp m (fun x => { x with
      col := if last then 0 else x.col + 1, row := if last then x.row + 1 else x.row })
    let ended := fun u : State => if last = true ∧ x.ysize ≤ x.row + 1 then (moved u).cxpFrameEnd m else moved u
    (x.active = false → s.cxpPixel m px bad = s) ∧
    (x.active = true →
      (s.rb b 10 = false → s.cxpPixel m px bad = ended (s.cxpSample m { v := BitVec.ofNat 20 v, e := last, p := bad })) ∧
      (s.rb b 10 = true → x.half = none → last = false →
        s.cxpPixel m px bad = moved (s.onCxp m (fun x => { x with half := some (v, bad) }))) ∧
      (s.rb b 10 = true → x.half = none → last = true →
        s.cxpPixel m px bad = ended (s.cxpSample m { v := BitVec.ofNat 20 v, e := true, p := bad })) ∧
      (∀ w wb, s.rb b 10 = true → x.half = some (w, wb) → s.cxpPixel m px bad =
        ended ((s.onCxp m (fun x => { x with half := none })).cxpSample m
          { v := if wb || bad then 0 else BitVec.ofNat 20 (w + v * 2 ^ 10), e := last, p := wb || bad })))) ∧
  (∀ (m : Nat) (c : Chan) (s : State),
    let b := cxpReg m
    let u := s.cxpPush m c
    let x := s.cxp m
    let y := u.cxp m
    let fits := y.idx < 12 * u.rf (b + 0x18) 0 24
    let full := Config.cxpFull (mget [] s.held (0x2000 + m)).length
    let keeps := fun l : List Chan => ({ s with held := mset [] s.held (0x2000 + m) (mget [] s.held (0x2000 + m) ++ l) } : State)
    (x.dropping = true → u = s) ∧
    (x.dropping = false → full = false → u = keeps [c]) ∧
    (x.dropping = false → full = true →
      let t := keeps [{ v := 0, e := true, p := true }]
      u = ((t.setRg (b + 0x34) (satInc32 (t.rg (b + 0x34)))).onCxp m (fun x => { x with dropping := true })).cxpEvent m 2) ∧
    (u.rb b 11 = false → s.cxpSample m c = u) ∧
    (u.rb b 11 = true → fits → y.word.length < 11 →
      s.cxpSample m c = u.onCxp m (fun x => { x with idx := x.idx + 1, word := x.word ++ [c] })) ∧
    (u.rb b 11 = true → fits → y.word.length = 11 →
      s.cxpSample m c = (u.onCxp m (fun x => { x with idx := x.idx + 1, word := x.word ++ [c] })).cxpHistory m) ∧
    (u.rb b 11 = true → ¬fits → y.word.length ≠ 12 →
      s.cxpSample m c = (if y.passed then u else u.setRg (b + 0x38) (satInc32 (u.rg (b + 0x38)))).onCxp m
        (fun x => { x with idx := x.idx + 1, passed := true }))) ∧
  (∀ (m : Fin 16) (u s : State) (st : Nat),
    let b := cxpReg m
    let x := s.cxp m
    let l := x.word.zipIdx.map (fun e => (e.2, e.1))
    let word := (x.idx - 1) / 12
    let fw := s.rf (b + 0x18) 0 24
    let a := (s.rg (b + 0x10)).toNat + s.rf (b + 0x14) 0 8 * 2 ^ 32 + 32 * (x.frame % max 1 (s.rf (b + 0x1C) 0 16) * fw + word)
    let w := s.onCxp m (fun x => { x with word := [] })
    (x.word = [] → s.cxpHistory m = s) ∧
    (x.word ≠ [] → fw ≤ word → s.cxpHistory m = w) ∧
    (x.word ≠ [] → word < fw → w.wordPut (.cxp m) a (shipMask l) 0 (shipLine l) = (u, st) →
      (st = 0 → s.cxpHistory m = u) ∧
      (st ≠ 0 → s.cxpHistory m = (u.setRg (b + 0x3C) (satInc32 (u.rg (b + 0x3C)))).cxpEvent m 5))) ∧
  (∀ (m : Nat) (s : State),
    let b := cxpReg m
    let u := s.cxpHistory m
    let x := u.cxp m
    let v := (u.setRg (b + 0x20) (BitVec.ofNat 32 x.frame)).setRf (b + 0x24) 0 16 (x.frame % max 1 (u.rf (b + 0x1C) 0 16))
    s.cxpFrameEnd m = ((v.setRg64 (b + 0x28) (x.first.getD 0)).onCxp m (fun x => { x with
      frame := x.frame + 1, active := false, dropping := false })).cxpEvent m 0) ∧
  (∀ (i : Fin 16) (v : Word32) (s : State), s.dead = false →
    let b := cxpReg i
    let u := s.setRf (b + 0x140) 8 8 (fld v 8 8)
    (s.booted = false → exec (.mbxSend i v) s = .next (s.ends u)) ∧
    (s.booted = true → exec (.mbxSend i v) s = .next (s.ends { u with
      out := s.out ++ [.cxpControl i (fld v 8 8) ((List.range (min 16 ((fld v 8 8 + 3) / 4))).map (fun k => s.rg (b + 0x100 + 4 * k)))] }))) ∧
  (∀ (i : Fin 16) (ws : List Word32) (n : Fin 256) (s : State), s.dead = false →
    let b := cxpReg i
    (s.rb b 0 = false → exec (.mbxReceive i ws n) s = .next (s.ends s)) ∧
    let u := ((ws.take 16).zipIdx.foldl (fun v e => v.setRg (b + 0x180 + 4 * e.2) e.1) s).setRg (b + 0x1C0) (BitVec.ofNat 32 (2 ^ 31 + n.val))
    (s.rb b 0 = true → exec (.mbxReceive i ws n) s = .next (s.ends (u.cxpEvent i 4)) ∧
      (∀ k w, k < 16 → ws[k]? = some w → u.rg (b + 0x180 + 4 * k) = w) ∧ u.rg (b + 0x1C0) = BitVec.ofNat 32 (2 ^ 31 + n.val) ∧
      u.raised = s.raised ∧ u.fresh = s.fresh ∧
      s.onlyRegs u ((b + 0x1C0) :: (List.range (min 16 ws.length)).map (fun k => b + 0x180 + 4 * k))))

/-- ETH_FRAME_RECEIVE at an enabled port counts the frame, or a bad FCS; a good one passes stream filters, meters
and FRER to the stream whose filter it matches first, or is dropped and counted (R381, R388). The bridge sends
it on from the other port, a bad FCS kept bad (R382). A frame that the tap's EtherType selects is counted, its
header and window go to the tap's queue, and under an acting captain it waits until byte WOFF is due, else it
passes (R383, R440). TAP_REPLACEMENT first sends the frames that are due unreplaced, then the frame of the
packet's sequence number with its bytes replaced, or unchanged or stomped where the packet has another length
(R383). ETH_TRANSMIT sends a whole packet of its stream, padded to 60 bytes, marked bad where it is poisoned,
with a redundancy tag on both ports where FRER says so, drops one over 2000 bytes, and waits while its gate is
closed (R316, R381, R388). In any other case each changes nothing. Each answers exactly the state named; the
sizes of the stream and FRER tables are the model's (log entry 49). -/
def Obligations.FramesAreReceivedTappedAndSent : Prop :=
  (∀ (p : Fin 4) (f : List (BitVec 8)) (s : State),
    let b := ethReg p
    let u := (s.count (b + 0x10)).bridge p f true
    (s.ethOn p = false → ∀ good, exec (.ethFrameReceive p f good) s = .next (s.ends s)) ∧
    (s.ethOn p = true → exec (.ethFrameReceive p f false) s = .next (s.ends (((s.count (b + 0x18)).ethEvent p 1).bridge p f false)) ∧
      exec (.ethFrameReceive p f true) s = .next (s.ends (if u.dead then u else u.rxDeliver p f)))) ∧
  (∀ (p k o : Nat) (f : Frame) (bad : Bool) (s : State),
    s.count o = s.setRg o (satInc32 (s.rg o)) ∧
    s.ethEvent p k = (s.setRb (ethReg p + 0xC) k true).raiseIf ((s.setRb (ethReg p + 0xC) k true).rb (ethReg p + 0xC) (16 + k)) (1536 + 24 * p + k) ∧
    s.sendFrame p f bad = ({ s with out := s.out ++ [.frame p f bad] } : State).count (ethReg p + 0x14) ∧
    s.sendLocal p f false = s.sendFrame p f false ∧
    s.sendLocal p f true = ((s.sendFrame p f true).count (ethReg p + 0x1C)).ethEvent p 2) ∧
  (∀ (p : Nat) (f : Frame) (good : Bool) (s : State),
    let e := p / 2 * 2
    let o := if p % 2 = 1 then e else e + 1
    let u := s.tapFlush e
    let taps := u.rb (ethReg e + 0x100) 31 = true ∧ Frame.etype f = u.rf (ethReg e + 0x100) 0 16 ∧ u.dead = false
    ((s.rb (ethReg e) 4 = false ∨ s.ethOn o = false ∨ s.booted = false) → s.bridge p f good = s) ∧
    (s.rb (ethReg e) 4 = true → s.ethOn o = true → s.booted = true →
      (taps → s.bridge p f good = u.tapFrame e (p % 2 == 1) f good) ∧ (¬taps → s.bridge p f good = u.sendFrame o f (!good)))) ∧
  (∀ (p : Nat) (odd : Bool) (f : Frame) (good : Bool) (s : State),
    let b := ethReg p
    let c := 0x3000 + 32 + p / 2
    let seq := (s.eth p).seq
    let u := (s.onEth p (fun x => { x with seq := (x.seq + 1) % 65536 })).count (b + 0x108)
    let rlen := fld (u.rg (b + 0x104)) 8 8 / 2 * 2
    let byte := fun k : Nat => (f[k]?).getD (Config.tapPast k s.fresh)
    let l : List Chan := { v := BitVec.ofNat 20 ((if odd then 1 else 0) + seq % 65536 * 16), e := rlen == 0 } ::
      frameSamples ((List.range rlen).map (fun i => byte (fld (u.rg (b + 0x104)) 0 8 + i)))
    let v : State := { u with fresh := u.fresh + 1, held := mset [] u.held c (mget [] u.held c ++ l) }
    let t : TapFrame := { seq := seq, odd := odd, bytes := f, good := good,
                          due := s.now + u.rf (b + 0x100) 16 10 + fld (u.rg (b + 0x104)) 16 8 * u.bytePs p / 1000 }
    (v.captain = true → s.tapFrame p odd f good = v.onEth p (fun x => { x with tap := x.tap ++ [t] })) ∧
    (v.captain = false → s.tapFrame p odd f good = v.sendFrame (if odd then p else p + 1) f (!good))) ∧
  (∀ (p : Nat) (t : TapFrame) (s : State),
    let o := if t.odd then p else p + 1
    let l := (s.eth p).tap.filter (fun x => decide (x.due ≤ s.now))
    let u := l.foldl (fun u x => u.tapLate p x) s
    s.tapFlush p = u.onEth p (fun x => { x with tap := x.tap.filter (fun x => decide (u.now < x.due)) }) ∧ u.now = s.now ∧
    (s.captain = true → s.tapLate p t =
      ((s.sendFrame o t.bytes (!t.good || s.rb (ethReg p + 0x100) 30)).count (ethReg p + 0x10C)).ethEvent p 3) ∧
    (s.captain = false → s.tapLate p t = s.sendFrame o t.bytes (!t.good))) ∧
  (∀ (pair : Fin 2) (s : State),
    let p := 2 * pair.val
    let c := 0x3000 + 32 + p / 2
    let u := s.tapFlush p
    (u.packet c = none → exec (.tapReplacement pair) s = .next (s.ends u)) ∧
    (∀ cs, u.packet c = some cs → exec (.tapReplacement pair) s =
      .next (s.ends (({ u with taken := mset [] u.taken c ((mget [] u.taken c).drop cs.length) } : State).tapTake p cs)))) ∧
  (∀ (e : Nat) (l rest : List Chan) (c : Chan) (s : State), (∀ x ∈ l, x.e = false) →
    (mget [] s.taken e = l → s.packet e = none) ∧
    (c.e = true → mget [] s.taken e = l ++ c :: rest → s.packet e = some (l ++ [c]))) ∧
  (∀ (p : Nat) (cs : List Chan) (s : State),
    let b := ethReg p
    let found := (s.eth p).tap.find? (fun t => t.seq == fld ((cs.head?.map (·.v)).getD 0) 4 16)
    ((found = none ∨ s.captain = false) → s.tapTake p cs = s) ∧
    (∀ t, found = some t → s.captain = true →
      let u := s.onEth p (fun x => { x with tap := x.tap.erase t })
      let wlen := fld (s.rg (b + 0x104)) 24 8
      let o := if t.odd then p else p + 1
      let bad := cs.any (·.p)
      let new := (cs.drop 1).flatMap (fun c => [BitVec.ofNat 8 (fld c.v 0 8), BitVec.ofNat 8 (fld c.v 8 8)])
      let sent := u.sendFrame o (Frame.replaced t.bytes (fld (s.rg (b + 0x104)) 16 8) new) (!t.good || bad)
      (cs.length ≠ 1 + wlen / 2 → s.tapTake p cs = ((u.count (b + 0x110)).ethEvent p 4).tapLate p t) ∧
      (cs.length = 1 + wlen / 2 → bad = false → s.tapTake p cs = sent) ∧
      (cs.length = 1 + wlen / 2 → bad = true → s.tapTake p cs = (sent.count (ethReg o + 0x1C)).ethEvent o 2))) ∧
  (∀ (f b : Frame) (o i : Nat), (Frame.replaced f o b).length = f.length ∧
    (i < f.length → (Frame.replaced f o b).getD i 0 = if o ≤ i ∧ i < o + b.length then b.getD (i - o) 0 else f.getD i 0)) ∧
  (∀ (f : Frame) (i : Nat) (c : Chan), (frameSamples f).length = (f.length + 1) / 2 ∧
    ((frameSamples f)[i]? = some c → c.p = false ∧ (c.e = true ↔ f.length ≤ 2 * i + 2) ∧
      c.v.toNat = (f.getD (2 * i) 0).toNat + 256 * (f.getD (2 * i + 1) 0).toNat + if f.length = 2 * i + 1 then 2 ^ 16 else 0)) ∧
  (∀ (p : Nat) (f : Frame) (u v s : State) (ok : Bool),
    let b := ethReg p
    s.qciPass p f = (u, ok) →
    let held := ((List.range 4).map (fun k => 2 * (mget [] v.held (0x3000 + 8 * p + k)).length)).sum
    (ok = false → s.rxDeliver p f = (u.count (b + 0x24)).ethEvent p 6) ∧
    (ok = true → u.rxStream p f = none → s.rxDeliver p f = (u.count (b + 0x20)).ethEvent p 9) ∧
    (∀ k passes, ok = true → u.rxStream p f = some k → u.frerPass p k f = (v, passes) →
      (passes = false → s.rxDeliver p f = v) ∧
      (passes = true → (32768 < held + (f.length + 1) / 2 * 2 ∨ 2000 < f.length ∨ f = []) →
        s.rxDeliver p f = (v.count (b + 0x20)).ethEvent p 9) ∧
      (passes = true → held + (f.length + 1) / 2 * 2 ≤ 32768 → f.length ≤ 2000 → f ≠ [] → s.rxDeliver p f =
        { v with held := mset [] v.held (0x3000 + 8 * p + k) (mget [] v.held (0x3000 + 8 * p + k) ++ frameSamples f) }))) ∧
  (∀ (p i : Nat) (f : Frame) (s : State),
    let reg := fun j : Nat => ethReg p + 0x2000 + 8 * j
    let hits := fun j : Nat => s.rb (reg j) 31 = true ∧ f.vid = some (s.rf (reg j) 16 12) ∧ f.pcp = s.rf (reg j) 28 3
    let big := s.rf (reg i + 4) 20 12
    let m := s.rf (reg i + 4) 0 5
    let r := s.rg (ethReg p + 0x2400 + 4 * m)
    let cap := fld r 16 16 * 8000
    let had := match mget none (s.eth p).meters m with
      | none => cap
      | some (v, t) => min cap (v + (s.now - t) * fld r 0 16)
    let meter := fun n : Nat => s.onEth p (fun x => { x with meters := mset none x.meters m (some (n, s.now)) })
    ((∀ j, j < 64 → ¬hits j) → s.qciPass p f = (s, true)) ∧
    (i < 64 → hits i → (∀ j, j < i → ¬hits j) →
      (big ≠ 0 → big < f.length → s.qciPass p f = (s, false)) ∧
      ((big = 0 ∨ f.length ≤ big) → f.length * 8000 ≤ had → s.qciPass p f = (meter (had - f.length * 8000), true)) ∧
      ((big = 0 ∨ f.length ≤ big) → had < f.length * 8000 → s.qciPass p f = (meter had, false)))) ∧
  (∀ (p k : Nat) (f : Frame) (s : State),
    let reg := fun j : Nat => ethReg p + 0x40 + 4 * j
    let hits := fun j : Nat => s.rb (reg j) 31 = true ∧ s.rf (reg j) 0 16 = f.etype ∧ (s.rb (reg j) 30 = true → f.vid = some (s.rf (reg j) 16 12))
    ((∀ j, j < 4 → ¬hits j) → s.rxStream p f = none) ∧
    (k < 4 → hits k → (∀ j, j < k → ¬hits j) → s.rxStream p f = some k)) ∧
  (∀ (p k b i : Nat) (f : Frame) (s : State),
    let reg := fun j : Nat => ethReg (p / 2 * 2) + 0x3000 + 8 * j
    let hits := fun j : Nat => s.rb (reg j) 31 = true ∧ s.rb (reg j) b = true ∧ s.rf (reg j) 0 2 = k ∧ f.vid = some (s.rf (reg j) 16 12)
    ((∀ j, j < 32 → ¬hits j) → s.frerEntry p k b f = none) ∧
    (i < 32 → hits i → (∀ j, j < i → ¬hits j) → s.frerEntry p k b f = some i)) ∧
  (∀ (p k : Nat) (f : Frame) (s : State),
    let e := p / 2 * 2
    (s.frerEntry p k 29 f = none → s.frerPass p k f = (s, true)) ∧
    (∀ i, s.frerEntry p k 29 f = some i →
      (f.rtag = none → s.frerPass p k f = ((s.count (ethReg p + 0x28)).ethEvent p 7, false)) ∧
      (∀ q x pass bad, f.rtag = some q →
        (mget {} (s.eth e).frer i).recover (s.rf (ethReg e + 0x3000 + 8 * i + 4) 0 5 + 1) q = (x, pass, bad) →
        let u := s.onEth e (fun y => { y with frer := mset {} y.frer i x })
        s.frerPass p k f = (if bad then (u.count (ethReg p + 0x28)).ethEvent p 7 else u, pass)))) ∧
  (∀ (x : Frer) (hist q l : Nat),
    let d := sx 16 (q + 65536 - l)
    (x.last = none → x.recover hist q = ({ x with last := some q, hist := 1 }, true, false)) ∧
    (x.last = some l →
      ((hist : Int) ≤ d ∨ d ≤ -(hist : Int) → x.recover hist q = (x, false, true)) ∧
      (0 < d → d < hist → x.recover hist q = ({ x with last := some q, hist := (x.hist <<< d.toNat) ||| 1#32 }, true, false)) ∧
      (d ≤ 0 → -(hist : Int) < d → x.hist.getLsbD (-d).toNat = true → x.recover hist q = (x, false, false)) ∧
      (d ≤ 0 → -(hist : Int) < d → x.hist.getLsbD (-d).toNat = false →
        x.recover hist q = ({ x with hist := setBit x.hist (-d).toNat true }, true, false)))) ∧
  (∀ (p k : Fin 4) (s : State),
    let b := ethReg p
    let c := 0x3000 + 8 * p.val + k.val
    ((s.ethOn p = false ∨ s.running = false ∨ s.packet c = none) → exec (.ethTransmit p k) s = .next (s.ends s)) ∧
    (∀ cs, s.ethOn p = true → s.running = true → s.packet c = some cs →
      let f : Frame := cs.flatMap (fun x => if x.v.getLsbD 16 then [BitVec.ofNat 8 (fld x.v 0 8)]
        else [BitVec.ofNat 8 (fld x.v 0 8), BitVec.ofNat 8 (fld x.v 8 8)])
      let bad := cs.any (·.p)
      let tc := s.rf (b + 0x50 + 4 * k) 0 3
      let pads := fun g : Frame => g ++ List.replicate (60 - g.length) 0
      let u : State := { s with taken := mset [] s.taken c ((mget [] s.taken c).drop cs.length) }
      let own := if p.val % 2 = 0 then s.frerEntry p k 30 f else none
      let open_ := s.gateOpen p tc (max 60 f.length)
      (2000 < f.length → exec (.ethTransmit p k) s = .next (s.ends ((u.count (b + 0x2C)).ethEvent p 10))) ∧
      (f.length ≤ 2000 → open_ = false → exec (.ethTransmit p k) s = .next (s.ends s)) ∧
      (f.length ≤ 2000 → open_ = true → own = none → exec (.ethTransmit p k) s = .next (s.ends (u.sendLocal p (pads f) bad))) ∧
      (∀ i, f.length ≤ 2000 → open_ = true → own = some i →
        let n := (mget {} (s.eth p).frer i).next
        let g := pads (f.take f.typeAt ++ [0xF1#8, 0xC1#8, 0#8, 0#8, BitVec.ofNat 8 (n / 256), BitVec.ofNat 8 n] ++ f.drop f.typeAt)
        let v := (u.onEth p (fun x => { x with frer := mset {} x.frer i { mget {} x.frer i with next := (n + 1) % 65536 } })).sendLocal p g bad
        exec (.ethTransmit p k) s = .next (s.ends (if v.ethOn (p + 1) then v.sendLocal (p + 1) g bad else v))))) ∧
  (∀ (p c n m left : Nat) (g : GateList) (mask : BitVec 8) (pre post : List (BitVec 8 × Nat)) (s : State),
    let ns := (n + 24) * s.bytePs p / 1000
    let start := (pre.map (·.2)).sum
    let pos := (s.now - g.base) % max 1 g.cycle
    (s.rb (ethReg p + 0x200) 0 = false → s.gateOpen p c n = true) ∧
    ((s.eth p).oper = none → s.gateOpen p c n = true) ∧
    (s.rb (ethReg p + 0x200) 0 = true → (s.eth p).oper = some g →
      (s.now < g.base → s.gateOpen p c n = true) ∧
      (g.base ≤ s.now → g.at_ s.now = some (mask, left) → mask.getLsbD c = false → s.gateOpen p c n = false) ∧
      (g.at_ s.now = some (mask, left) → mask.getLsbD c = true → ns ≤ left → s.gateOpen p c n = true)) ∧
    (g.entries = pre ++ (mask, m) :: post → start ≤ pos → post ≠ [] → pos < start + m →
      g.at_ s.now = some (mask, min (start + m) g.cycle - pos)) ∧
    (g.entries = pre ++ [(mask, m)] → start ≤ pos → g.at_ s.now = some (mask, g.cycle - pos)))

/-- CXP_ENABLE and ETH_ENABLE write the fields of the register; where EN was 0 the check of R385 sets EN, with the
receiver's frame count from 0 and an empty tap, or stores the lowest code (R376, R385). A change of a link sets
the status bit and its event; the state it already has is no change (R390). SGMII_AN_WORD at an enabled SGMII
port with autonegotiation is acknowledged and sets link and speed, full duplex only (R379). SYNC_TRANSMIT sends
machine time from a port whose PTP role is master, one interval after the last (R380). CONFIG_CHANGE takes the
administrative list over from its base time, or its next cycle start, and stores 0x0813 for a length or cycle
out of range; one that is pending keeps its place; GCL_ACTIVATE puts it into operation then (R9, R385, R388). In
any other case each changes nothing. Each answers exactly the state named. The bits of the SGMII word are
PRESUMED (log entry 48). -/
def Obligations.ReceiversAndPortsAreEnabledAndSwitched : Prop :=
  (∀ (i : Fin 16) (v : Word32) (s : State), s.dead = false →
    let b := cxpReg i
    let w := s.writeFields b { rw := 0x07FF1870#32, rwl := 0x0000E700#32, en := b } (setBit v 0 true)
    (s.rb b 0 = true → exec (.cxpEnable i v) s = .next (s.ends w)) ∧
    (s.rb b 0 = false → w.cxpCheck i = [] → exec (.cxpEnable i v) s = .next (s.ends ((w.setRb b 0 true).onCxp i (fun _ => {})))) ∧
    (∀ c, s.rb b 0 = false → c ∈ w.cxpCheck i → (∀ d ∈ w.cxpCheck i, c ≤ d) →
      exec (.cxpEnable i v) s = .next (s.ends (w.setRf (b + 4) 0 16 c)))) ∧
  (∀ (i : Nat) (s : State),
    let b := cxpReg i
    let conns := fun k : Nat => nconnOf (s.rf (cxpReg k) 8 2)
    let base := (s.rg (b + 0x10)).toNat + s.rf (b + 0x14) 0 8 * 2 ^ 32
    let fw := s.rf (b + 0x18) 0 24
    let hf := s.rf (b + 0x1C) 0 16
    (∀ c ∈ s.cxpCheck i, c = 0x0820 ∨ c = 0x0821 ∨ c = 0x0822) ∧
    (0x0820 ∈ s.cxpCheck i ↔ i % conns i ≠ 0 ∨ (i % 2 ≠ 0 ∧ conns (i / 2 * 2) = 2 ∧ s.rb (cxpReg (i / 2 * 2)) 0 = false) ∨
      (i % 4 ≠ 0 ∧ conns (i / 4 * 4) = 4 ∧ s.rb (cxpReg (i / 4 * 4)) 0 = false)) ∧
    (0x0821 ∈ s.cxpCheck i ↔ s.rb b 11 = true ∧ (base % 32 ≠ 0 ∨ fw = 0 ∨ hf = 0 ∨ 2 ^ 38 ≤ base ∨ s.dramWithin base (32 * fw * hf) = false)) ∧
    (0x0822 ∈ s.cxpCheck i ↔ s.rf b 4 3 = 7 ∨ 4 < s.rf b 13 3 ∨ s.rf b 8 2 = 3 ∨ (s.rb b 10 = true ∧ 1 < s.rf b 13 3))) ∧
  (∀ (i : Fin 16) (up : Bool) (s : State), s.dead = false →
    (s.rb (cxpReg i + 8) 0 = up → exec (.cxpLinkChange i up) s = .next (s.ends s)) ∧
    (s.rb (cxpReg i + 8) 0 ≠ up → exec (.cxpLinkChange i up) s = .next (s.ends ((s.setRb (cxpReg i + 8) 0 up).cxpEvent i 3)))) ∧
  (∀ (p : Fin 4) (v : Word32) (s : State),
    let b := ethReg p
    let w := s.writeFields b { rw := 0xE00#32, rwl := 0x70FE#32, en := b } (setBit v 0 true)
    let speed := if w.rf b 1 3 = 3 ∧ w.rb b 14 = false then w.rf b 12 2 else 0
    (s.rb b 0 = true → exec (.ethEnable p v) s = .next (s.ends w)) ∧
    (s.rb b 0 = false → w.ethCheck p = [] → exec (.ethEnable p v) s = .next (s.ends
      (((w.setRb b 0 true).setRf (b + 8) 2 2 speed).onEth p (fun x => { x with tap := [], synced := none })))) ∧
    (∀ c, s.rb b 0 = false → c ∈ w.ethCheck p → (∀ d ∈ w.ethCheck p, c ≤ d) →
      exec (.ethEnable p v) s = .next (s.ends (w.setRf (b + 4) 0 16 c)))) ∧
  (∀ (p : Nat) (s : State),
    let b := ethReg p
    let e := ethReg (p / 2 * 2)
    let o := ethReg (p / 2 * 2 + 1)
    let win := s.rg (b + 0x104)
    let len := fun n : Nat => n % 2 = 1 ∨ n = 0 ∨ 64 < n
    let tdly := s.rf (b + 0x100) 16 10
    let tap := s.rb (b + 0x100) 31 = true
    (∀ c ∈ s.ethCheck p, c = 0x0810 ∨ c = 0x0811 ∨ c = 0x0812 ∨ c = 0x0814) ∧
    (0x0810 ∈ s.ethCheck p ↔ 4 ≤ s.rf b 1 3 ∨ (p % 2 = 1 ∧ s.rb b 4 = true) ∨ (s.rb e 4 = true ∧ s.rf e 1 3 ≠ s.rf o 1 3)) ∧
    (0x0811 ∈ s.ethCheck p ↔ s.rf b 5 2 = 3 ∨
      (s.rf b 5 2 = 1 ∧ ∃ q, q < 4 ∧ q ≠ p ∧ s.rb (ethReg q) 0 = true ∧ s.rf (ethReg q) 5 2 = 1)) ∧
    (0x0812 ∈ s.ethCheck p ↔ p % 2 = 0 ∧ ((tap ∧ (len (fld win 8 8) ∨ len (fld win 24 8) ∨ 256 < fld win 16 8 + fld win 24 8)) ∨
      ((tap ∨ s.rb b 4 = true) ∧ (tdly < 100 ∨ 900 < tdly)))) ∧
    (0x0814 ∈ s.ethCheck p ↔ s.rf b 12 2 = 3 ∨ (s.rf b 1 3 ≠ 3 ∧ (s.rb b 14 = true ∨ s.rf b 12 2 ≠ 0)))) ∧
  (∀ (p : Fin 4) (up : Bool) (s : State),
    (s.rb (ethReg p + 8) 0 = up → exec (.ethLinkChange p up) s = .next (s.ends s)) ∧
    (s.rb (ethReg p + 8) 0 ≠ up → exec (.ethLinkChange p up) s = .next (s.ends ((s.setRb (ethReg p + 8) 0 up).ethEvent p 0)))) ∧
  (∀ (p : Fin 4) (x : BitVec 16) (s : State),
    let b := ethReg p
    let link := s.setRb (b + 8) 0 (bit x 15 && bit x 12)
    let u := if fld x 10 2 = 3 then link else link.setRf (b + 8) 2 2 (2 - fld x 10 2)
    let v : State := { u with out := s.out ++ [.sgmiiAck p x] }
    let takes := s.ethOn p = true ∧ s.rf b 1 3 = 3 ∧ s.rb b 14 = true
    (¬takes → exec (.sgmiiAnWord p x) s = .next (s.ends s)) ∧
    (takes → v.rg (b + 8) = s.rg (b + 8) → exec (.sgmiiAnWord p x) s = .next (s.ends v)) ∧
    (takes → v.rg (b + 8) ≠ s.rg (b + 8) → exec (.sgmiiAnWord p x) s = .next (s.ends (v.ethEvent p 0)))) ∧
  (∀ (p : Fin 4) (s : State),
    let due := ∀ t, (s.eth p).synced = some t → s.now < t ∨ t + 1000000000 / 2 ^ s.rf (ethReg p) 9 3 ≤ s.now
    let sends := s.ethOn p = true ∧ s.running = true ∧ s.rf (ethReg p) 5 2 = 2 ∧ due
    (sends → exec (.syncTransmit p) s = .next (s.ends { s.onEth p (fun x => { x with synced := some s.now }) with
      out := s.out ++ [.ptpSync p s.now] })) ∧
    (¬sends → exec (.syncTransmit p) s = .next (s.ends s))) ∧
  (∀ (p : Fin 4) (s : State),
    let b := ethReg p
    let len := s.rf (b + 0x200) 8 8
    let cyc := s.rf (b + 0x210) 0 30
    let bad := len = 0 ∨ 128 < len ∨ cyc = 0 ∨ 1000000000 < cyc
    ((s.eth p).next ≠ none → exec (.configChange p) s = .next (s.ends s)) ∧
    ((s.eth p).next = none → bad → exec (.configChange p) s = .next (s.ends (s.setRf (b + 4) 0 16 0x0813))) ∧
    ((s.eth p).next = none → ¬bad → ∃ base,
      exec (.configChange p) s = .next (s.ends (s.onEth p (fun x => { x with
        next := some { base := base, cycle := cyc, entries := (List.range len).map (fun i =>
          (BitVec.ofNat 8 (s.rf (b + 0x1000 + 4 * i) 24 8), 8 * s.rf (b + 0x1000 + 4 * i) 0 24)) } }))) ∧
      s.now < base ∧ (s.now < s.rg64 (b + 0x208) → base = s.rg64 (b + 0x208)) ∧
      (s.rg64 (b + 0x208) ≤ s.now → base ≤ s.now + cyc ∧ (base - s.rg64 (b + 0x208)) % cyc = 0))) ∧
  (∀ (p : Fin 4) (s : State),
    ((∀ g, (s.eth p).next = some g → s.now < g.base) → exec (.gclActivate p) s = .next (s.ends s)) ∧
    (∀ g, (s.eth p).next = some g → g.base ≤ s.now → exec (.gclActivate p) s =
      .next (s.ends ((s.onEth p (fun x => { x with oper := some g, next := none })).ethEvent p 8))))

/-- HOST_WRITE before the boot has decided changes nothing; after it, a write outside the windows, to a read-only
one, or to registers in another size than 4 or 8 whole aligned bytes is counted, recorded and raises source 1444
where enabled, as is one that the network refuses; a register or a range takes its bytes as a write of the host
(R394 to R397, R424). A write with EP is counted (R396). A table write sets the entry's bits (R399). HOST_READ
completes with the data, or with Unsupported Request or Completer Abort, one completion up to each 64-byte
boundary (R391, R395, R397). Configuration space shows the identity of R393 and takes its writable bits, in the
PRESUMED layout of log entry 60. MSIX_UNMASK sends each pending message that may now be sent and keeps the
others pending (R399). PERST, a link-down and FLR stop each running descriptor with 0x0737, reset the MSI-X
table and configuration space and discard the host's requests; the first two clear LINKUP (R392). PCIE_LINK_UP
stores speed, width and flit mode and raises the events of what changed (R412, R414). Each answers exactly the
state named. What its clauses fix beyond the rules is the model's choice (log entry 51). -/
def Obligations.TheHostReachesItsWindows : Prop :=
  (∀ (sp : HostSpace) (off : Addr) (l : List (Option (BitVec 8))) (ep : Bool) (s : State), s.booted = false → s.rescue = false →
    exec (.hostWrite sp off l ep) s = .next (s.ends s)) ∧
  (∀ (bar : Fin 3) (o : Nat) (s : State),
    (s.booted = false → s.rescue = false → s.reaches bar o = none) ∧
    (s.rescue = false → s.booted = true →
      (o < 0x1000000 → s.reaches 0 o = some (.regs o false)) ∧
      (o < 0x8000 → s.reaches 0 (0x1000000 + o) = some (.table o)) ∧ (o < 0x100 → s.reaches 0 (0x1008000 + o) = some (.pba o)) ∧
      (0x1008100 ≤ o → s.reaches 0 o = none) ∧ (o < 2 ^ 38 → s.reaches 1 o = some (.range o false)) ∧ (2 ^ 38 ≤ o → s.reaches 1 o = none) ∧
      (o < 0x4000000 → s.reaches 2 o = some (.range (0x4000000000 + o) false)) ∧
      (o < 0x800000 → s.reaches 2 (0x4000000 + o) = some (.range (0x4300000000 + o) true)) ∧ (0x4800000 ≤ o → s.reaches 2 o = none)) ∧
    (s.rescue = true →
      (o < 0x1000 → s.reaches 0 o = some (.regs (bootBase + o) true)) ∧ (o < 0x20 → s.reaches 0 (0x1000 + o) = some (.mailbox o)) ∧
      (o < 0x40000 → s.reaches 0 (0x40000 + o) = some (.buffer o)) ∧
      (o < 0x800000 → s.reaches 0 (0x800000 + o) = some (.range (0x4300000000 + o) true)) ∧
      ((0x1020 ≤ o ∧ o < 0x40000) ∨ (0x80000 ≤ o ∧ o < 0x800000) ∨ 0x1000000 ≤ o → s.reaches 0 o = none) ∧
      (bar ≠ 0 → s.reaches bar o = none))) ∧
  (∀ (bar : Fin 3) (st : Nat) (s : State),
    let u := s.setRg (pciBase + 0x10) (satInc32 (s.rg (pciBase + 0x10)))
    s.hostErr bar st = (u.setRg (pciBase + 0x14) (BitVec.ofNat 32 (2 ^ 31 + bar.val * 2 ^ 16 + st % 256))).pciEvent 4) ∧
  (∀ (k : Nat) (s : State), s.pciEvent k = (s.setRb (pciBase + 8) k true).raiseIf ((s.setRb (pciBase + 8) k true).rb (pciBase + 8) (16 + k)) (1440 + k)) ∧
  (∀ (bar : Fin 3) (off : Addr) (l : List (Option (BitVec 8))) (ep : Bool) (s : State), (s.booted = true ∨ s.rescue = true) →
    let w := if ep then (s.setRg (pciBase + 0xC) (satInc32 (s.rg (pciBase + 0xC)))).pciEvent 2 else s
    let to_ := s.reaches bar off.toNat
    let does := fun u : State => exec (.hostWrite (.bar bar) off l ep) s = .next (s.ends u)
    let whole := fun k : Nat => regSizeOk k l.length = true ∧ l.any (·.isNone) = false
    (to_ = none → does (w.hostErr bar 0xFF)) ∧
    (∀ k, to_ = some (.regs k true) ∨ to_ = some (.range k true) → does (w.hostErr bar 0xFF)) ∧
    (∀ k, to_ = some (.regs k false) → ¬whole k → does (w.hostErr bar 0xFF)) ∧
    (∀ k u st, to_ = some (.regs k false) → whole k → w.regWrite .host k l.length (bytesNat (l.map (·.getD 0))) ep = (u, st) →
      (st = 0 → does u) ∧ (st ≠ 0 → does (u.hostErr bar st))) ∧
    (∀ a u st n, to_ = some (.range a false) →
      (w.dumpGuards a l.length = true → does (w.hostErr bar 0xFF)) ∧
      (w.dumpGuards a l.length = false → w.bytesPut .host a l ep = (u, st, n) → (st = 0 → does u) ∧ (st ≠ 0 → does (u.hostErr bar st)))) ∧
    (∀ k, to_ = some (.table k) ∨ to_ = some (.pba k) ∨ to_ = some (.mailbox k) ∨ to_ = some (.buffer k) → ep = true →
      does (w.hostErr bar 0xFF)) ∧
    (∀ k, to_ = some (.table k) → ep = false → does (s.tableWrite k l)) ∧
    (∀ k, to_ = some (.pba k) → ep = false → does s) ∧
    (∀ k, to_ = some (.mailbox k) → ep = false → (k = 12 → does s) ∧ (k ≠ 12 → does (l.zipIdx.foldl (fun u e => match e.1 with
      | some x => u.setRf ((rmbBase + k + e.2) / 4 * 4) (8 * ((rmbBase + k + e.2) % 4)) 8 x.toNat
      | none => u) s))) ∧
    (∀ k, to_ = some (.buffer k) → ep = false →
      let b := bufPut s.host.buf k l
      does { s with host := { s.host with buf := b } } ∧
      (∀ i x, l[i]? = some (some x) → mget 0 b (k + i) = x) ∧
      (∀ j, (∀ i x, l[i]? = some (some x) → j ≠ k + i) → mget 0 b j = mget 0 s.host.buf j))) ∧
  (∀ (o : Nat) (b0 b1 b2 b3 : BitVec 8) (s : State), o % 4 = 0 →
    let v : Word32 := b3 ++ b2 ++ b1 ++ b0
    s.tableWrite o [some b0, some b1, some b2, some b3] = (s.setRg (msixBase + o)
      (if o % 16 = 0 then v &&& 0xFFFFFFFC#32 else if o % 16 = 12 then v &&& 1#32 else v)).msixFlush) ∧
  (∀ (a n : Nat) (s : State), s.dumpGuards a n = true ↔ s.dead = true ∧ s.dramTotal ≠ 0 ∧
    s.dramTotal * 2 ^ 30 - 0x20000000 < a + n ∧ a < s.dramTotal * 2 ^ 30 - 0x20000000 + 0x20000000) ∧
  (∀ (off : Addr) (l : List (Option (BitVec 8))) (ep : Bool) (s : State), (s.booted = true ∨ s.rescue = true) →
    let o := off.toNat / 4 * 4
    let v := l.zipIdx.foldl (fun v e => match e.1 with
      | some x => setFld v (8 * ((off.toNat + e.2) % 4)) 8 x.toNat
      | none => v) (s.cfgRead o)
    exec (.hostWrite .config off l ep) s = .next (s.ends (s.cfgWrite o v))) ∧
  (∀ (o k : Nat) (v : Word32) (s : State),
    let w := s.cfgWrite o v
    (o = 0xB0 → w = s.msixUnmask (.control (v.getLsbD 31) (v.getLsbD 30))) ∧
    (o ≠ 0xB0 → w.cfgRead o = s.cfgFixed o ||| (v &&& cfgMask s.rescue o) ∧ (k ≠ o → w.cfgRead k = s.cfgRead k) ∧
      { w with host := { w.host with cfg := s.host.cfg } } = s)) ∧
  (∀ s : State,
    let wide := fun o : Nat => (s.cfgWrite o 0xFFFFFFFF#32).cfgRead o
    s.cfgRead 0 = (if s.rescue then 0x88411F3D#32 else 0x88401F3D#32) ∧ s.cfgRead 8 = 0x120000A1#32 ∧ s.cfgRead 0x2C = s.host.subsys ∧
    fld (s.cfgRead 0x3C) 8 8 = 0 ∧ s.cfgRead 0x104 = wordAt (sha3Of256 s.idKey) 0 ∧ s.cfgRead 0x108 = wordAt (sha3Of256 s.idKey) 1 ∧
    fld (s.cfgRead 0x34) 0 8 = 0x40 ∧ (s.cfgRead 0xB0).getLsbD 31 = s.host.msixOn ∧ (s.cfgRead 0xB0).getLsbD 30 = s.host.fmask ∧
    (∀ e ∈ [(0x40, 0x01), (0x50, 0x10), (0xB0, 0x11)], fld (s.cfgRead e.1) 0 8 = e.2) ∧
    (∀ e ∈ [(0x100, 0x03), (0x110, 0x01), (0x160, 0x19), (0x1A0, 0x25), (0x1B0, 0x26), (0x1E0, 0x2A), (0x210, 0x31), (0x240, 0x27), (0x2B0, 0x2E)],
      fld (s.cfgRead e.1) 0 16 = e.2) ∧
    (s.rescue = false → wide 0x10 = 0xFC000004#32 ∧ wide 0x18 = 0x0000000C#32 ∧ wide 0x1C = 0xFFFFFFC0#32 ∧ wide 0x20 = 0xF8000004#32) ∧
    (s.rescue = true → wide 0x10 = 0xFF000004#32 ∧ wide 0x18 = 0 ∧ wide 0x1C = 0 ∧ wide 0x20 = 0)) ∧
  (∀ (off : Addr) (len : Fin 4097) (tag : Fin 1024) (s : State),
    let saysIt := fun (st : Nat) (b : List (BitVec 8)) =>
      exec (.hostRead .config off len tag) s = .next (s.ends { s with out := s.out ++ [.completion tag st b false] })
    (s.booted = false → s.rescue = false → saysIt 2 []) ∧
    ((s.booted = true ∨ s.rescue = true) →
      saysIt 0 (((natBytes 4 (s.cfgRead (off.toNat / 4 * 4)).toNat).drop (off.toNat % 4)).take len))) ∧
  (∀ (bar : Fin 3) (off : Addr) (len : Fin 4097) (tag : Fin 1024) (s : State),
    let n := len.val
    let to_ := s.reaches bar off.toNat
    let does := fun u : State => exec (.hostRead (.bar bar) off len tag) s = .next (s.ends u)
    let saysIt := fun (u : State) (st : Nat) (b : List (BitVec 8)) => does { u with out := u.out ++ [.completion tag st b false] }
    let regs := fun o : Nat => (List.range n).map (fun i => BitVec.ofNat 8 (s.rf ((o + i) / 4 * 4) (8 * ((o + i) % 4)) 8))
    (to_ = none → saysIt s 1 []) ∧
    (∀ k ro, to_ = some (.regs k ro) → regSizeOk k n = false → saysIt s 4 []) ∧
    (∀ k ro u st v, to_ = some (.regs k ro) → regSizeOk k n = true → s.regRead .host k n = (u, st, v) →
      saysIt u (if st = 0 then 0 else if st = 3 then 1 else 4) (if st = 0 then natBytes n v else [])) ∧
    (∀ k, to_ = some (.table k) → saysIt s 0 (regs (msixBase + k))) ∧
    (∀ k, to_ = some (.mailbox k) → saysIt s 0 (regs (rmbBase + k))) ∧
    (∀ k, to_ = some (.pba k) → saysIt s 0 (s.pbaBytes k n) ∧ (s.pbaBytes k n).length = n ∧
      ∀ i j, i < n → j < 8 → ((s.pbaBytes k n).getD i 0).getLsbD j = mget false s.host.pend (8 * (k + i) + j)) ∧
    (∀ k, to_ = some (.buffer k) → saysIt s 0 ((List.range n).map (fun i => mget 0 s.host.buf (k + i)))) ∧
    (∀ a ro, to_ = some (.range a ro) → does (s.rangeRead tag (n / 64 + 2) a n))) ∧
  (∀ (tag f a n : Nat) (u s : State) (x : BytesAns),
    let k := min n (64 - a % 64)
    (s.rangeRead tag f a 0 = s) ∧
    (0 < n → s.bytesGet .host a k = (u, x) →
      (x.status ≠ 0 → s.rangeRead tag (f + 1) a n =
        { u with out := u.out ++ [.completion tag (if x.status = 3 then 1 else 4) [] false] }) ∧
      (x.status = 0 → s.rangeRead tag (f + 1) a n =
        ({ u with out := u.out ++ [.completion tag 0 (x.bytes.map (·.1)) (x.bytes.any (·.2))] } : State).rangeRead tag f (a + k) (n - k)))) ∧
  (∀ (v : Fin 2048) (on fmask : Bool) (s : State),
    exec (.msixUnmask (.vector v)) s = .next (s.ends (s.setRb (msixBase + 16 * v.val + 12) 0 false).msixFlush) ∧
    exec (.msixUnmask (.control on fmask)) s = .next (s.ends (s.msixUnmask (.control on fmask))) ∧
    s.msixUnmask (.control on fmask) = State.msixFlush { s with host := { s.host with msixOn := on, fmask := fmask } }) ∧
  (∀ s : State,
    let free := fun v : Nat => s.host.msixOn && !s.host.fmask && !s.rb (msixBase + 16 * v + 12) 0
    let t := s.msixFlush
    t.out = s.out ++ ((s.host.pend.map (·.1)).filter free).map (fun v => .msix (s.rg64 (msixBase + 16 * v)) (s.rg (msixBase + 16 * v + 8))) ∧
    (∀ v, mget false t.host.pend v = (mget false s.host.pend v && !free v)) ∧
    { t with out := s.out, host := { t.host with pend := s.host.pend } } = s) ∧
  (∀ s : State,
    let down := if s.hostReset.rb pciBase 0 then (s.hostReset.setRb pciBase 0 false).pciEvent 0 else s.hostReset
    exec .perst s = .next (s.ends down) ∧ exec .pcieLinkDown s = .next (s.ends down) ∧
    exec .flr s = .next (s.ends (s.hostReset.pciEvent 5))) ∧
  (∀ s : State,
    let t := s.hostReset
    let runs := fun k : Nat => s.rf (dmaReg k + 0x1C) 0 3 = 2
    let cut := (List.range 16).filter (fun k => decide (runs k))
    (∀ k, k < 16 → runs k → t.rf (dmaReg k + 0x1C) 0 3 = 3 ∧ t.rf (dmaReg k + 4) 0 16 = 0x0737 ∧ mget none t.host.jobs k = none ∧
      t.rg (dmaReg k + 0x20) = satInc32 (s.rg (dmaReg k + 0x20)) ∧ t.rb (dmaReg k + 0x24) 1 = true ∧
      mget [] t.held (0x4000 + k) = [] ∧ mget [] t.taken (0x4000 + k) = []) ∧
    (∀ k, ¬(k < 16 ∧ runs k) → mget none t.host.jobs k = mget none s.host.jobs k ∧
      mget [] t.held (0x4000 + k) = mget [] s.held (0x4000 + k) ∧ mget [] t.taken (0x4000 + k) = mget [] s.taken (0x4000 + k)) ∧
    (∀ o, o < 0x4000 → mget [] t.held o = mget [] s.held o ∧ mget [] t.taken o = mget [] s.taken o) ∧
    t.raised = s.raised ++ (cut.filter (fun k => s.rb (dmaReg k + 0x24) 17)).map (fun k => 1409 + 2 * k) ∧
    (∀ o, msixBase ≤ o → o < msixBase + 0x8000 → t.rg o = regReset o) ∧
    (∀ o, ¬(msixBase ≤ o ∧ o < msixBase + 0x8000) →
      o ∉ cut.flatMap (fun k => [dmaReg k + 4, dmaReg k + 0x1C, dmaReg k + 0x20, dmaReg k + 0x24]) → t.rg o = s.rg o) ∧
    { t.host with jobs := s.host.jobs } = { s.host with msixOn := false, fmask := false, pend := [], doe := none, cfg := [] } ∧
    t.noc = { s.noc with
      outstanding := s.noc.outstanding.filter (fun o => !(o.m == .host)),
      retired := s.noc.retired ++ s.noc.outstanding.filter (fun o => o.m == .host) } ∧
    { t with regs := s.regs, raised := s.raised, host := s.host, noc := s.noc, held := s.held, taken := s.taken } = s) ∧
  (∀ (speed width : Fin 8) (flit : Bool) (s : State),
    let u := ((s.setRf pciBase 4 3 speed).setRf pciBase 8 3 width).setRb pciBase 12 flit
    let v := if s.rf pciBase 4 3 = speed.val ∧ s.rf pciBase 8 3 = width.val then u else u.pciEvent 1
    exec (.pcieLinkUp speed width flit) s = .next (s.ends (if v.rb pciBase 0 then v else (v.setRb pciBase 0 true).pciEvent 0)))

/-- DMA_TAIL_WRITE sets TAIL. DESCRIPTOR_START of a waiting channel with EN 1 and HEAD unequal to TAIL makes it BUSY
with the descriptor, or ends it in error with the lowest code, 0x0735 where the fetch failed (R400, R401, R403).
An error writes the descriptor's status back, leaves HEAD, drops its samples, counts, stops the channel with the
code in REASON and raises its source; RESUME goes past it (R403). DMA_HOST_COMPLETION stores H2D data at the
internal address, poisoned as it came, or gives H2Q samples to the queue; an error ends the descriptor (R402,
R403, R405). DESCRIPTOR_END, with everything moved, writes the status back, counts, advances HEAD, and raises
the source where IRQ is set; D2H reads and sends units of up to 512 bytes, Q2H the samples popped, with relaxed
ordering and no-snoop where HRO and the host ask for them (R391, R400 to R405). DMA_ABORT stops with 0x0737 and
counts what was moved (R406). DMA_ENABLE does its commands in bit order and then starts a channel where its
check passes (R9, R413). In any other case each changes nothing. Each answers exactly the state named. What its
clauses fix beyond the rules is the model's choice (log entry 51). -/
def Obligations.DmaDescriptorsMoveData : Prop :=
  (∀ (c : Fin 16) (v : BitVec 16) (s : State), exec (.dmaTailWrite c v) s = .next (s.ends (s.setRf (dmaReg c + 0x18) 0 16 v.toNat))) ∧
  (∀ (c : Fin 16) (d : Option (BitVec 256)) (s : State), s.dead = false →
    let b := dmaReg c
    let waits := s.rb b 0 = true ∧ s.rf (b + 0x14) 0 16 ≠ s.rf (b + 0x18) 0 16 % 2 ^ s.rf (b + 0x10) 0 5 ∧ s.rf (b + 0x1C) 0 3 = 1
    let u := s.setRf (b + 0x1C) 0 3 2
    let does := fun t : State => exec (.descriptorStart c d) s = .next (s.ends t)
    (¬waits → does s) ∧
    (waits → d = none → does (u.dmaError c { desc := (descOf 0).1 } 0x0735)) ∧
    (∀ v, waits → d = some v →
      let x := (descOf v).1
      let l := u.descCodes c x (descOf v).2
      (l = [] → does { u with host := { u.host with jobs := mset none u.host.jobs c (some { desc := x }) } }) ∧
      (∀ code ∈ l, (∀ e ∈ l, code ≤ e) → does (u.dmaError c { desc := x } code)))) ∧
  (∀ v : BitVec 256, (descOf v).1 =
      { op := fld v 0 4, irq := v.getLsbD 8, stope := v.getLsbD 9, hro := v.getLsbD 10, len := fld v 32 32, haddr := fld v 64 64,
        iaddr := fld v 128 40 } ∧
    ((descOf v).2 = true ↔ fld v 4 4 ≠ 0 ∨ fld v 11 21 ≠ 0 ∨ fld v 168 24 ≠ 0)) ∧
  (∀ (c : Nat) (d : Desc) (reserved : Bool) (s : State),
    let l := s.descCodes c d reserved
    let block := d.op = 1 ∨ d.op = 2
    let cap := s.dramTotal * 2 ^ 30
    let mem := 0x4000000000 ≤ d.iaddr ∧ d.iaddr < 0x4004000000
    let ddr := d.iaddr < 2 ^ 38 ∧ d.iaddr < cap
    (∀ k ∈ l, k = 0x0730 ∨ k = 0x0731 ∨ k = 0x0732 ∨ k = 0x0733 ∨ k = 0x0734) ∧
    (0x0730 ∈ l ↔ d.op = 0 ∨ 4 < d.op ∨ reserved = true) ∧ (0x0731 ∈ l ↔ d.len = 0) ∧
    (0x0732 ∈ l ↔ block ∧ ((ddr ∧ cap < d.iaddr + d.len) ∨ (mem ∧ d.iaddr / 0x100000 * 0x100000 + 0x100000 < d.iaddr + d.len))) ∧
    (0x0733 ∈ l ↔ block ∧ ¬ddr ∧ ¬mem) ∧
    (0x0734 ∈ l ↔ (d.op = 3 ∨ d.op = 4) ∧ (d.len % 4 ≠ 0 ∨ s.queueOf (if d.op = 3 then 0 else 16) (0x4000 + c) = none))) ∧
  (∀ (c code : Nat) (j : DmaJob) (s : State),
    let b := dmaReg c
    let back : State := { s with
      out := s.out ++ [.memWrite (s.rg64 (b + 8) + 32 * s.rf (b + 0x14) 0 16 + 0x18)
        (j.done % 2 ^ 32 + (code + (if j.pois then 2 ^ 30 else 0) + 2 ^ 31) * 2 ^ 32) 8 false false false] }
    s.writeBack c j code = back ∧
    (let u : State := { back with
       host := { s.host with jobs := mset none s.host.jobs c none }, held := mset [] s.held (0x4000 + c) [],
       taken := mset [] s.taken (0x4000 + c) [] }
     let v := ((u.setRg (b + 0x20) (satInc32 (s.rg (b + 0x20)))).setRf (b + 0x1C) 0 3 3).setRf (b + 4) 0 16 code
     s.dmaError c j code = (v.setRb (b + 0x24) 1 true).raiseIf ((v.setRb (b + 0x24) 1 true).rb (b + 0x24) 17) (1409 + 2 * c)) ∧
    (let u : State := (s.writeBack c j 0).setRg (b + 0x20) (satInc32 (s.rg (b + 0x20)))
     let v : State := { u with host := { u.host with jobs := mset none u.host.jobs c none } }
     let w := v.setRf (b + 0x14) 0 16 ((s.rf (b + 0x14) 0 16 + 1) % 2 ^ s.rf (b + 0x10) 0 5)
     let x := w.setRf (b + 0x1C) 0 3 (if w.rb b 0 then 1 else 0)
     s.dmaFinish c j = if j.desc.irq then (x.setRb (b + 0x24) 0 true).raiseIf ((x.setRb (b + 0x24) 0 true).rb (b + 0x24) 16) (1408 + 2 * c) else x)) ∧
  (∀ (c : Fin 16) (r : Option (List (BitVec 8) × Bool)) (s : State), s.dead = false →
    let does := fun t : State => exec (.dmaHostCompletion c r) s = .next (s.ends t)
    let left := (mget [] s.held (0x4000 + c)).length
    (s.job c = none → does s) ∧
    (∀ j, s.job c = some j →
      (j.desc.op ≠ 1 → j.desc.op ≠ 3 → does s) ∧
      (r = none → j.desc.op = 1 → does (s.dmaError c j 0x0735)) ∧
      (r = none → j.desc.op = 3 → does (s.dmaError c { j with done := 4 * (j.got - left) } 0x0735)) ∧
      (∀ l ep u st n, r = some (l, ep) → j.desc.op = 1 →
        s.bytesPut (.dma c) (j.desc.iaddr + j.done) ((l.take (j.desc.len - j.done)).map some) ep = (u, st, n) →
        let k := { j with done := j.done + n, pois := j.pois || ep }
        (st = 0 → does { u with host := { u.host with jobs := mset none u.host.jobs c (some k) } }) ∧
        (st ≠ 0 → does (u.dmaError c k 0x0736))) ∧
      (∀ l ep, r = some (l, ep) → j.desc.op = 3 →
        let cs := (List.range (min (l.length / 4) (j.desc.len / 4 - j.got))).map (fun k =>
          let w := bytesNat ((l.drop (4 * k)).take 4)
          ({ v := BitVec.ofNat 20 w, e := w.testBit 20, p := w.testBit 21 || ep } : Chan))
        let k := { j with got := j.got + cs.length, pois := j.pois || cs.any (·.p) }
        does { s with
          held := mset [] s.held (0x4000 + c) (mget [] s.held (0x4000 + c) ++ cs),
          host := { s.host with jobs := mset none s.host.jobs c (some k) } }))) ∧
  (∀ (c : Fin 16) (s : State), s.dead = false →
    let does := fun t : State => exec (.descriptorEnd c) s = .next (s.ends t)
    (s.job c = none → does s) ∧
    (∀ j, s.job c = some j →
      let take := q2hTake j.desc (mget [] s.taken (0x4000 + c))
      let left := (mget [] s.held (0x4000 + c)).length
      (j.desc.op = 1 → (j.done = j.desc.len → does (s.dmaFinish c j)) ∧ (j.done ≠ j.desc.len → does s)) ∧
      (j.desc.op = 3 → (4 * j.got = j.desc.len ∧ left = 0 → does (s.dmaFinish c { j with done := j.desc.len })) ∧
        (¬(4 * j.got = j.desc.len ∧ left = 0) → does s)) ∧
      (∀ u k st, j.desc.op = 2 → s.d2hUnits c (j.desc.len / 512 + 1) j = (u, k, st) →
        (st = 0 → does (u.dmaFinish c k)) ∧ (st ≠ 0 → does (u.dmaError c k 0x0736))) ∧
      (j.desc.op = 4 → (q2hWhole j.desc take = false → does s) ∧
        (∀ u k, q2hWhole j.desc take = true → s.q2hWrite c j take = (u, k) → does (u.dmaFinish c k))))) ∧
  (∀ (c f : Nat) (j : DmaJob) (u s : State) (x : BytesAns),
    let n := min 512 (j.desc.len - j.done)
    (s.d2hUnits c 0 j = (s, j, 0)) ∧ (j.desc.len ≤ j.done → s.d2hUnits c (f + 1) j = (s, j, 0)) ∧
    (j.done < j.desc.len → s.bytesGet (.dma (Fin.ofNat 16 c)) (j.desc.iaddr + j.done) n = (u, x) →
      let ep := x.bytes.any (·.2)
      (x.status ≠ 0 → s.d2hUnits c (f + 1) j = (u, j, x.status)) ∧
      (x.status = 0 → s.d2hUnits c (f + 1) j =
        (u.hostData j.desc (j.desc.haddr + j.done) (bytesNat (x.bytes.map (·.1))) n ep).d2hUnits c f
          { j with done := j.done + n, pois := j.pois || ep }))) ∧
  (∀ (d : Desc) (a x n : Nat) (ep : Bool) (s : State), s.hostData d a x n ep = { s with
    out := s.out ++ [.memWrite a x n ep (d.hro && (s.cfgRead 0x58).getLsbD 4) (d.hro && (s.cfgRead 0x58).getLsbD 11)] }) ∧
  (∀ (c : Nat) (j : DmaJob) (l : List Chan) (s : State),
    let word := fun x : Chan => x.v.toNat + (if x.e then 2 ^ 20 else 0) + (if x.p then 2 ^ 21 else 0) + 2 ^ 31
    let u : State := { s with taken := mset [] s.taken (0x4000 + c) ((mget [] s.taken (0x4000 + c)).drop l.length) }
    (l = [] → s.q2hWrite c j l = (s, j)) ∧
    (l ≠ [] → s.q2hWrite c j l = (u.hostData j.desc (j.desc.haddr + j.done) (l.foldr (fun x acc => word x + 2 ^ 32 * acc) 0) (4 * l.length)
      (l.any (·.p)), { j with done := j.done + 4 * l.length, pois := j.pois || l.any (·.p) }))) ∧
  (∀ (d : Desc) (l : List Chan) (i : Nat),
    let t := q2hTake d l
    t = l.take t.length ∧ t.length ≤ d.len / 4 ∧
    (d.stope = false → t = l.take (d.len / 4)) ∧
    (d.stope = true → (∀ x, t[i]? = some x → x.e = true → i + 1 = t.length) ∧
      ((∀ x ∈ t, x.e = false) → t = l.take (d.len / 4))) ∧
    (q2hWhole d t = true ↔ t.length = d.len / 4 ∨ (d.stope = true ∧ ∃ x, t.getLast? = some x ∧ x.e = true))) ∧
  (∀ (c : Fin 16) (n : Fin 8388608) (s : State), s.dead = false →
    let left := (mget [] s.held (0x4000 + c)).length
    exec (.dmaAbort c n) s = .next (s.ends (s.dmaAbort c n)) ∧
    (s.job c = none → s.dmaAbort c n = s) ∧
    (∀ j, s.job c = some j →
      (j.desc.op = 1 → s.dmaAbort c n = s.dmaError c j 0x0737) ∧
      (∀ u k st, j.desc.op = 2 → s.d2hUnits c n j = (u, k, st) →
        s.dmaAbort c n = u.dmaError c k (if st = 0 then 0x0737 else 0x0736)) ∧
      (j.desc.op = 3 → s.dmaAbort c n = s.dmaError c { j with done := 4 * (j.got - left) } 0x0737) ∧
      (∀ u k, j.desc.op = 4 → s.q2hWrite c j (q2hTake j.desc (mget [] s.taken (0x4000 + c))) = (u, k) →
        s.dmaAbort c n = u.dmaError c k 0x0737))) ∧
  (∀ (c : Fin 16) (s : State), s.dead = false →
    let b := dmaReg c
    let u := s.setRf (b + 0x14) 0 16 ((s.rf (b + 0x14) 0 16 + 1) % 2 ^ s.rf (b + 0x10) 0 5)
    exec (.dmaResume c) s = .next (s.ends (s.dmaResume c)) ∧
    (s.rf (b + 0x1C) 0 3 = 3 → s.dmaResume c = u.setRf (b + 0x1C) 0 3 (if u.rb b 0 then 1 else 0)) ∧
    (s.rf (b + 0x1C) 0 3 ≠ 3 → s.dmaResume c = s)) ∧
  (∀ (c : Fin 16) (v : Word32) (s : State), s.dead = false →
    let b := dmaReg c
    let k := fun u : State => u.rf (b + 0x10) 0 5
    let u := if v.getLsbD 1 then s.dmaAbort c 0 else s
    let w := if v.getLsbD 2 then u.dmaResume c else u
    let on := w.setRb b 0 true
    let does := fun t : State => exec (.dmaEnable c v) s = .next (s.ends t)
    (w.rb b 0 = true → does w) ∧
    (w.rb b 0 = false → (k w < 2 ∨ 16 < k w) → does (w.setRf (b + 4) 0 16 0x0720)) ∧
    (w.rb b 0 = false → 2 ≤ k w → k w ≤ 16 → w.rf (b + 8) 0 5 ≠ 0 → does (w.setRf (b + 4) 0 16 0x0721)) ∧
    (w.rb b 0 = false → 2 ≤ k w → k w ≤ 16 → w.rf (b + 8) 0 5 = 0 →
      does (if on.rf (b + 0x1C) 0 3 = 0 then on.setRf (b + 0x1C) 0 3 1 else on)))

/-- STG_GO hands a manifest over, or is refused with 0x0740 while one is being staged; STAGING_DONE writes its
directory block and sets DONE, or stores the code of the first step that fails and sets REFUSED (R407, R408).
DOE_REQUEST raises source 1448 where enabled and answers discovery, keeps an attestation request, or answers an
unknown type with an empty object (R409). ATTESTATION_REPORT sends the report with the nonce, the directory
digests where asked, a signature of the identity key with context KWAT, and that key (R432). In recovery ERASE,
PROGRAM and READ fill the mailbox registers and start, unless a command is in progress; RMB_DONE stores 0x0750
for a range that is not allowed, 0x0751 for a flash error, or erases to 0xFF, programs, or copies flash into the
buffer, and sends the message of vector 0 or keeps it pending (R410). In any other case each changes nothing.
Each answers exactly the state named. ML-DSA-87 is that of FIPS 204, a signature's random bytes are free, log
entry 40; how a range is misaligned, and what is programmed over a byte that is not erased, is the model's
choice, log entry 36. What its clauses fix beyond the rules is the model's choice (log entry 52). -/
def Obligations.StagingAttestationAndRecovery : Prop :=
  (∀ (v : Word32) (s : State), s.dead = false →
    let u := s.setRf (pciBase + 0x28) 16 6 (fld (v ||| 1#32) 16 6)
    let a := (s.rg (pciBase + 0x20)).toNat + s.rf (pciBase + 0x24) 0 8 * 2 ^ 32
    (s.host.staging ≠ none → exec (.stgGo v) s = .next (s.ends (u.stageRefuse 0x0740))) ∧
    (s.host.staging = none → exec (.stgGo v) s = .next (s.ends
      (State.setRb { u with host := { u.host with staging := some (a, fld (v ||| 1#32) 16 6) } } (pciBase + 0x2C) 31 true)))) ∧
  (∀ (code : Nat) (s : State), s.stageRefuse code = ((s.setRf (pciBase + 0x2C) 0 16 code).setRb (pciBase + 0x2C) 29 true).pciEvent 7) ∧
  (∀ (s : State), s.dead = false → s.host.staging = none → exec .stagingDone s = .next (s.ends s)) ∧
  (∀ (a n : Nat) (s : State), s.dead = false → s.host.staging = some (a, n) →
    let w := State.setRb { s with host := { s.host with staging := none } } (pciBase + 0x2C) 31 false
    let lies := a % 32 = 0 ∧ a < 2 ^ 38 ∧ s.dramWithin a 0x3C80 = true
    let does := fun u : State => exec .stagingDone s = .next (s.ends u)
    (¬lies → does (w.stageRefuse 0x0741)) ∧
    (∀ u x, lies → w.bytesGet .puppeteer a 0x3C80 = (u, x) →
      (x.status ≠ 0 → does (u.stageRefuse 0x0745)) ∧
      (∀ c, x.status = 0 → u.stageCode n x.bytes = some c → does (u.stageRefuse c)) ∧
      (x.status = 0 → u.stageCode n x.bytes = none →
        let dir := ((x.bytes.map (·.1)).drop 0x40).take 0x2000
        let u0 := (u.bytesPut .puppeteer (u.dirAddr n) [some 0, some 0, some 0, some 0] false).1
        let u1 := (u0.bytesPut .puppeteer (u0.dirAddr n + 4) ((dir.drop 4).map some) false).1
        let u2 := (u1.bytesPut .puppeteer (u1.dirAddr n) ((dir.take 4).map some) false).1
        does ((u2.setRb (pciBase + 0x2C) 30 true).pciEvent 6)))) ∧
  (∀ (n : Nat) (l : List (BitVec 8 × Bool)) (s : State),
    let b := l.map (·.1)
    let key := slice b 0x3260 2592
    let device := numAt b 8 4 = 0x7A108840 ∧ numAt b 0xC 4 % 2 = 1
    let poison := ((l.take 0x2040) ++ l.drop 0x3260).any (·.2)
    let signed := dsaValid (sha3Of512 (b.take 0x2040)) (slice b 0x2040 4627) key
    let inUse := ∃ r, r < 64 ∧ (∃ k, (s.region r).drl.job = .preload k) ∧ (s.region r).drl.recInact = n
    (manifestGood b n = false → s.stageCode n l = some 0x0741) ∧
    (manifestGood b n = true →
      (¬device → s.stageCode n l = some 0x0746) ∧ (device → poison = true → s.stageCode n l = some 0x0745) ∧
      (device → poison = false → s.otp.keySlot key = none → s.stageCode n l = some 0x0743) ∧
      (device → poison = false → s.otp.keySlot key ≠ none → signed = false → s.stageCode n l = some 0x0742) ∧
      (device → poison = false → s.otp.keySlot key ≠ none → signed = true → inUse → s.stageCode n l = some 0x0744) ∧
      (device → poison = false → s.otp.keySlot key ≠ none → signed = true → ¬inUse → s.stageCode n l = none))) ∧
  (∀ (n : Nat) (b : List (BitVec 8)),
    let zero := fun o k : Nat => ∀ x ∈ slice b o k, x = 0
    manifestGood b n = true ↔ slice b 0 4 = [0x4B#8, 0x57#8, 0x52#8, 0x53#8] ∧ numAt b 4 2 = 1 ∧ numAt b 6 1 = n ∧ zero 7 1 ∧
      zero 0x10 48 ∧ dirGood (slice b 0x40 0x2000) = true ∧ zero 0x3253 13) ∧
  (∀ (vendor : BitVec 16) (type : BitVec 8) (ws : List Word32) (s : State),
    let u := s.pciEvent 8
    let q : DoeReq := { nonce := BitVec.ofNat 256 (bytesNat (doeWords (ws.take 8))), flags := ws.getD 8 0, at_ := s.now }
    let saysIt := fun b : List (BitVec 8) => exec (.doeRequest vendor type ws) s = .next (s.ends { u with out := s.out ++ [.doe b] })
    let finds := vendor = 1 ∧ type = 0 ∧ ws.length = 1
    let attests := vendor = 0x1F3D ∧ type = 1 ∧ ws.length = 16
    (s.booted = false → s.rescue = false → exec (.doeRequest vendor type ws) s = .next (s.ends s)) ∧
    ((s.booted = true ∨ s.rescue = true) →
      (finds → saysIt (doeObject 1#16 0#8 (natBytes 4 (match fld (ws.getD 0 0) 0 8 with
        | 0 => 0x01000001
        | 1 => 0x00011F3D
        | _ => 0x0000FFFF)))) ∧
      (attests → s.host.doe = none → exec (.doeRequest vendor type ws) s = .next (s.ends { u with host := { u.host with doe := some q } })) ∧
      (attests → s.host.doe ≠ none → exec (.doeRequest vendor type ws) s = .next (s.ends u)) ∧
      (¬finds → ¬attests → saysIt (doeObject vendor type [])))) ∧
  (∀ (s : State), s.host.doe = none → exec .attestationReport s = .next (s.ends s)) ∧
  (∀ (q : DoeReq) (u v s : State) (dirs : List (Option (List (BitVec 8)))) (sig : Option (List (BitVec 8))), s.host.doe = some q →
    let w : State := { s with host := { s.host with doe := none } }
    (if q.flags.getLsbD 0 then w.dirDigests else (w, [])) = (u, dirs) →
    let body := u.reportBody q dirs
    u.signs [0x4B#8, 0x57#8, 0x41#8, 0x54#8] (sha3Of512 body) = (v, sig) →
    let rep := body ++ sig.getD (natBytes 4627 0) ++ v.idKey
    exec .attestationReport s = .next (s.ends (State.bootEvent { v with
      out := v.out ++ [.doe (doeObject 0x1F3D#16 1#8 (rep ++ natBytes ((4 - rep.length % 4) % 4) 0))] } 3))) ∧
  (∀ (ctx m : List (BitVec 8)) (s : State),
    let k := dsaKeyGen (natBytes 32 s.otp.seed.toNat)
    s.idKey = k.pub ∧ s.signs ctx m = ({ s with fresh := s.fresh + 1 }, dsaSign k ctx m (natBytes 32 (Config.signRandom s.fresh).toNat))) ∧
  (∀ (q : DoeReq) (dirs : List (Option (List (BitVec 8)))) (s : State),
    let b := s.reportBody q dirs
    slice b 0 4 = [0x4B#8, 0x57#8, 0x41#8, 0x54#8] ∧ slice b 4 2 = natBytes 2 1 ∧ slice b 6 2 = natBytes 2 q.flags.toNat ∧
    slice b 8 4 = natBytes 4 (s.rg (bootBase + 0x10)).toNat ∧ slice b 0xC 4 = natBytes 4 (s.rg (bootBase + 0x14)).toNat ∧
    slice b 0x10 32 = natBytes 32 q.nonce.toNat ∧ slice b 0x30 8 = natBytes 8 s.now ∧ slice b 0x38 4 = natBytes 4 s.bootCount ∧
    slice b 0x3C 4 = [BitVec.ofNat 8 (s.rf bootBase 4 1), BitVec.ofNat 8 (fld (s.rg (bootBase + 0x28)) 8 7),
      BitVec.ofNat 8 (fld (s.rg (bootBase + 0x28)) 16 2), BitVec.ofNat 8 s.otp.svnf] ∧
    (∀ r, r < 64 → b.getD (0x80 + r) 0 = if s.regionEn r then BitVec.ofNat 8 (s.region r).drl.recAct else 0xFF) ∧
    (∀ n, n < 64 → (b.getD (0xC0 + n / 8) 0).getLsbD (n % 8) = (dirs.getD n (some []) == none)) ∧ slice b 0xC8 56 = List.replicate 56 0 ∧
    (dirs = [] → b.length = 0x100)) ∧
  (∀ (n : Nat) (s u : State) (x : BytesAns), s.bytesGet .puppeteer (s.dirAddr n) 0x2000 = (u, x) →
    s.dirDigest n = (u, if x.status ≠ 0 ∨ x.bytes.any (·.2) = true then none else some (sha3Of512 (x.bytes.map (·.1))))) ∧
  (∀ s : State, s.dirDigests = (List.range 64).foldl (fun acc n => ((acc.1.dirDigest n).1, acc.2 ++ [(acc.1.dirDigest n).2])) (s, [])) ∧
  (∀ (slot : Bool) (off len : Word32) (c : Instr) (op : Nat) (s : State),
    (c = .erase slot off len ∧ op = 1) ∨ (c = .program slot off len ∧ op = 2) ∨ (c = .readFlash slot off len ∧ op = 3) →
    let u := ((s.setRg (rmbBase + 4) off).setRg (rmbBase + 8) len).setRg (rmbBase + 12) 0
    let x : Rmb := { op := op, slot := slot, off := off.toNat, len := len.toNat }
    (s.rescue = true → s.host.rmb = none → exec c s = .next (s.ends { u with host := { u.host with rmb := some x } })) ∧
    ((s.rescue = false ∨ s.host.rmb ≠ none) → exec c s = .next (s.ends s))) ∧
  (∀ (err : Bool) (s : State), s.host.rmb = none → exec (.rmbDone err) s = .next (s.ends s)) ∧
  (∀ (x : Rmb) (err : Bool) (s : State), s.host.rmb = some x →
    let w : State := { s with host := { s.host with rmb := none } }
    let ranged := x.off + x.len ≤ 0x10000000 ∧ (x.op = 1 → x.off % 0x10000 = 0 ∧ x.len % 0x10000 = 0) ∧
      (x.op = 2 → x.off % 256 = 0 ∧ x.len % 256 = 0) ∧ (x.op ≠ 1 → x.len ≤ 0x40000)
    let does := fun u : State => exec (.rmbDone err) s = .next (s.ends u.rmbMessage)
    (¬ranged → does (w.setRg (rmbBase + 12) 0x0750#32)) ∧
    (ranged → err = true → does (w.setRg (rmbBase + 12) 0x0751#32)) ∧
    (ranged → err = false → does (w.rmbEffect x))) ∧
  (∀ s : State,
    (s.msixOpen 0 = true → s.rmbMessage = { s with out := s.out ++ [.msix (s.rg64 msixBase) (s.rg (msixBase + 8))] }) ∧
    (s.msixOpen 0 = false → s.rmbMessage = { s with host := { s.host with pend := mset false s.host.pend 0 true } })) ∧
  (∀ (x : Rmb) (s : State),
    let at_ := (if x.slot then 0x10000000 else 0) + x.off
    let t := s.rmbEffect x
    { t with host := s.host, flash := s.flash } = s ∧ { t.host with buf := s.host.buf } = s.host ∧
    (∀ k, mget 0xFF#8 t.flash k = if at_ ≤ k ∧ k < at_ + x.len then
      (if x.op = 1 then 0xFF else if x.op = 2 then flashOver (mget 0xFF#8 s.flash k) (mget 0 s.host.buf (k - at_)) else mget 0xFF#8 s.flash k)
      else mget 0xFF#8 s.flash k) ∧
    (∀ b, flashOver 0xFF b = b) ∧
    (∀ i, mget 0 t.host.buf i = if x.op ≠ 1 ∧ x.op ≠ 2 ∧ i < x.len then mget 0xFF#8 s.flash (at_ + i) else mget 0 s.host.buf i))

/-- POR_N_FALL leaves every register at its reset value, with fuses, flash, logbook and the outside of the pins as
they were, and nothing else (R7, R483). POR_N_RISE, and RESTART in recovery, run the boot: a failing checker of
no single unit gives 0x0910, an unprovisioned part 0x0911, a slot its first failing step's code, slot A's in
BOOT_REASONA before slot B is tried from a reset part; at the end FAILED with LOAD_FAIL_N low, an entry in the
logbook (R313, R410, R416 to R424). ENABLE_SECTIONS waits for the fill and behind a march, applies the entries
in order, and ends in RUNNING with the puppeteer at its entry or fails with 0x090C (R416, R426, R429). OTPWR
blows fuses unless locked (R427). LB_APPEND takes a KIND from 0x8000 up, 1,000 entries a second (R466, R467);
LOGBOOK_HEADER_UPDATE stores HEADIDX and HEADSEQ once a second (R465). FTL_REQ enters the fatal path with cause
5, FATAL_DUMP_COMPLETE writes dump and summary and ends it with FATAL_N low (R469 to R474). In any other case
each changes nothing. Each answers exactly the state named. What training and the dump's free areas hold is the
model's (log entries 53 to 55). -/
def Obligations.BootResetAndTheFatalPath : Prop :=
  (∀ (n : Nat) (s : State),
    let t := s.powered
    exec .porNFall s = .next (s.ends t) ∧ (∀ o, t.rg o = regReset o) ∧ t.otp = s.otp ∧ t.flash = s.flash ∧ t.out = s.out ∧
    t.fresh = s.fresh ∧ t.pending = s.pending ∧ t.signals = { sysclk := s.signals.sysclk } ∧
    (∀ a, readByte t.mem a = if 0x4300000000 ≤ a ∧ a < 0x4300800000 then readByte s.mem a else 0) ∧
    (∀ x, (n, x) ∈ t.pads ↔ x.ext ≠ none ∧ x.keep = none ∧ ∃ y, (n, y) ∈ s.pads ∧ y.ext = x.ext) ∧
    { t with mem := [], otp := {}, flash := [], pads := [], signals := {}, out := [], fresh := 0, pending := [] } = State.reset) ∧
  (∀ (role : Bool) (op : BootOp) (s : State),
    (s.signals.porN = true → exec (.porNRise role op) s = .next (s.ends s)) ∧
    (s.signals.porN = false → exec (.porNRise role op) s = .next (s.ends (s.bootRun role op))) ∧
    (s.rescue = false → exec (.restart op) s = .next (s.ends s)) ∧
    (s.rescue = true → exec (.restart op) s = .next (s.ends (s.bootRun s.signals.role op)))) ∧
  (∀ (role : Bool) (op : BootOp) (u s : State) (r : Option Nat),
    let p := s.powered
    let on := (State.setRb { p with signals := { p.signals with porN := true, role := role } } bootBase 12 role).logbookOpen
    let w := op.checks.foldl (fun v e => v.checkFails e.1 e.2) on
    let stops := ∃ e ∈ op.checks, ∃ n, e.1 = .other n
    let bare := w.otp.prov = false ∨ w.otp.keyv = 0
    (stops → s.bootRun role op = w.bootFails 0x0910) ∧ (¬stops → bare → s.bootRun role op = w.bootFails 0x0911) ∧
    (¬stops → ¬bare → w.bootSlot false op.a = (u, r) →
      s.bootRun role op = match r with
        | none => u
        | some c => u.trySlotB c op.b)) ∧
  (∀ (p c n : Nat) (x : BootTry) (r : Fin 64) (ch : Fin 4) (u s : State) (res : Option Nat),
    s.checkFails (.cell r) p = (s.setRb (planeBase (planeOf r) + 0xD020) (planeIdx r) true).lbAppend 0x0004 [(r, 4), (p, 4)] ∧
    s.checkFails (.channel ch) p = (s.setRb (dramBase ch + 0x8020) 0 true).lbAppend 0x0004 [(64 + ch.val, 4), (p, 4)] ∧
    s.checkFails (.other n) p = s.lbAppend 0x0004 [(n, 4), (p, 4)] ∧
    (let v := s.setRg (bootBase + 8) (BitVec.ofNat 32 c)
     let w := State.setRf { v with boot := none, signals := { v.signals with loadFail := true } } bootBase 0 4 8
     let z := (w.setRb bootBase 31 true).setRb pciBase 31 true
     s.bootFails c = z.lbAppend 0x0002 [(z.rf (bootBase + 4) 0 16, 2), (c, 2)]) ∧
    ((s.setRg (bootBase + 4) (BitVec.ofNat 32 c)).slotReset.bootSlot true x = (u, res) →
      s.trySlotB c x = match res with
        | none => u
        | some d => u.bootFails d)) ∧
  (∀ s : State,
    let t := s.slotReset
    let z := State.reset
    let kept := fun o : Nat => (0x600000 ≤ o ∧ o < 0x640000) ∨ (0x400000 ≤ o ∧ o < 0x440000 ∧ o % 0x10000 = 0xD020) ∨
      o = testBase + 0x34 ∨ o = bootBase ∨ o = bootBase + 4 ∨ o = bootBase + 0xC
    (∀ o, (kept o → t.rg o = s.rg o) ∧ (¬kept o → t.rg o = regReset o)) ∧
    (∀ a, readByte t.mem a = if a < 2 ^ 38 ∨ (0x4300000000 ≤ a ∧ a < 0x4300800000) then readByte s.mem a else 0) ∧
    (∀ k, mget {} t.codes k = if k < 2 ^ 33 then mget {} s.codes k else {}) ∧ t.drams = s.drams ∧
    (∀ k, mget {} t.scrubs k = if 4 ≤ k then mget {} s.scrubs k else {}) ∧ t.now = s.now ∧ t.lbIdx = s.lbIdx ∧ t.lbSecond = s.lbSecond ∧
    t.lbHead = s.lbHead ∧ t.signals = { s.signals with therm := false } ∧
    { t with
      regs := z.regs, mem := z.mem, codes := z.codes, drams := z.drams, scrubs := z.scrubs, now := z.now, lbIdx := z.lbIdx,
      lbSecond := z.lbSecond, lbHead := z.lbHead, signals := z.signals, otp := z.otp, flash := z.flash, pads := z.pads, out := z.out,
      fresh := z.fresh, pending := z.pending } = z) ∧
  (∀ s : State,
    let t := s.logbookOpen
    let b := logbookAddr
    bytesAt t.mem b 4 = 0x424C574B ∧ bytesAt t.mem (b + 4) 4 = 1 ∧ bytesAt t.mem (b + 8) 4 = (bytesAt s.mem (b + 8) 4 + 1) % 2 ^ 32 ∧
    (∀ a, (a < b ∨ b + 0xC ≤ a) → readByte t.mem a = readByte s.mem a) ∧
    (let e := t.ringEnd 194560 (bytesAt s.mem (b + 0xC) 4 % 194560) (bytesAt s.mem (b + 0x10) 4 - 1)
     t.lbIdx = e.1 ∧ t.rg (testBase + 0x34) = BitVec.ofNat 32 e.2) ∧
    s.onlyRegs { t with mem := s.mem, lbIdx := s.lbIdx } [testBase + 0x34]) ∧
  (∀ (f i q : Nat) (s : State),
    let x := bytesAt s.mem (logbookAddr + 0x10000 + 32 * i) 4
    (q < x → s.ringEnd (f + 1) i q = s.ringEnd f ((i + 1) % 194560) x) ∧ (x ≤ q → s.ringEnd (f + 1) i q = (i, q + 1))) ∧
  (∀ (slotB : Bool) (x : BootTry) (u v w s : State) (c d e : Option Nat),
    let b := ((s.setRf bootBase 4 1 (if slotB then 1 else 0)).setRb bootBase (if slotB then 9 else 8) true).setRf bootBase 0 4 1
    let h := b.flashBytes slotB 0 0x4000
    let dead := fun n : Nat => ∃ k, x.flash = some k ∧ k.val ≤ n
    (dead 3 → s.bootSlot slotB x = (b, some 0x0903)) ∧
    (¬dead 3 → (∀ k ∈ b.imageCodes h false, (∀ j ∈ b.imageCodes h false, k ≤ j) → s.bootSlot slotB x = (b, some k)) ∧
      (b.imageCodes h false = [] → (dead 4 → s.bootSlot slotB x = (b, some 0x0903)) ∧
        (¬dead 4 → b.bootDram slotB h x = (u, c) →
          (c ≠ none → s.bootSlot slotB x = (u, c)) ∧
          (c = none → u.bootStage slotB h x = (v, d) →
            (d ≠ none → s.bootSlot slotB x = (v, d)) ∧
            (d = none → v.bootApply h = (w, e) →
              (e ≠ none → s.bootSlot slotB x = (w, e)) ∧
              (e = none → s.bootSlot slotB x =
                (State.setRf { w with boot := some { slotB := slotB, head := h } } bootBase 0 4 5, none)))))))) ∧
  (∀ (h : List (BitVec 8)) (late : Bool) (s : State),
    let l := s.imageCodes h late
    let t := imgTable h
    let len := numAt h 0x10 4
    (∀ c ∈ l, c ∈ [0x0901, 0x0902, 0x0904, 0x0905, 0x0906, 0x0907, 0x0909, 0x090A, 0x090B, 0x090D]) ∧
    (0x0901 ∈ l ↔ slice h 0 4 ≠ [0x4B#8, 0x57#8, 0x43#8, 0x4E#8]) ∧
    (0x0902 ∈ l ↔ numAt h 4 2 ≠ 1 ∨ numAt h 6 2 = 0 ∨ 256 < numAt h 6 2 ∨ imgReserved h = true ∨ numAt h 0x28 8 % 0x20000000 ≠ 0 ∨
      numAt h 0x20 8 % 0x10000000 ≠ 0) ∧
    (0x0904 ∈ l ↔ len < 0x4000 ∨ 0x10000000 < len ∨ len % 32 ≠ 0 ∨ ∃ x ∈ t, len < x.off + x.size) ∧
    (0x0905 ∈ l ↔ numAt h 8 4 ≠ 0x7A108840) ∧ (0x0906 ∈ l ↔ numAt h 0xC 4 % 2 = 0) ∧
    (0x0907 ∈ l ↔ (numAt h 0x18 1).testBit (if s.signals.role then 0 else 1) = false) ∧
    (0x0909 ∈ l ↔ s.otp.keySlot (slice h 0x3260 2592) = none) ∧ (0x090A ∈ l ↔ numAt h 0x19 1 < s.otp.svnf) ∧
    (0x090B ∈ l ↔ (∃ x ∈ t, s.sectBad h late x = true) ∨ halvesTwice t = true ∨ 65536 < ((t.filter (fun x => x.flags % 2 == 1)).map (·.size)).sum) ∧
    (0x090D ∈ l ↔ late = true ∧ s.dramWithin (numAt h 0x20 8) len = false)) ∧
  (∀ (o : Otp) (key : List (BitVec 8)) (k : Nat),
    let hits := fun j : Nat => o.keyv.getLsbD j = true ∧ o.keyrev.getLsbD j = false ∧ (mget 0 o.hash j).toNat = bytesNat (sha3Of512 key)
    ((∀ j, j < 4 → ¬hits j) → o.keySlot key = none) ∧ (k < 4 → hits k → (∀ j, j < k → ¬hits j) → o.keySlot key = some k)) ∧
  (∀ (h : List (BitVec 8)) (late : Bool) (x : Sect) (s : State),
    let unit := match x.type with
      | 1 => x.size % 8 = 0
      | 2 => x.size % 32 = 0
      | 3 => x.size = 65536
      | 4 => x.size % 32 = 0
      | _ => x.size % 12 = 0
    s.sectBad h late x = true ↔ x.type = 0 ∨ 5 < x.type ∨ 1 < x.flags ∨ ¬unit ∨ x.off < 0x4000 ∨ x.off % 32 ≠ 0 ∨
      (x.flags % 2 = 1 ∧ x.type ≠ 1) ∨ s.sectTargets late x = false ∨
      (x.type = 2 ∧ x.target < imgStage h + imgLength h ∧ imgStage h < x.target + x.size)) ∧
  (∀ (slotB : Bool) (h : List (BitVec 8)) (x : BootTry) (y : BytesAns) (u s : State),
    let len := numAt h 0x10 4
    let dead := ∃ k, x.flash = some k ∧ k.val ≤ 6
    let st := s.setRf bootBase 0 4 3
    let put := ((st.bytesPut .loader (numAt h 0x20 8) ((st.flashBytes slotB 0 len).map some) false).1).setRf bootBase 0 4 4
    (dead → s.bootStage slotB h x = (st, some 0x0903)) ∧
    (¬dead → put.bytesGet .loader (numAt h 0x20 8) len = (u, y) →
      let b := y.bytes.map (·.1)
      let d := sha3Of512 (b.take 0x2040 ++ b.drop 0x4000)
      let w := (List.range 16).foldl (fun v k => v.setRg (bootBase + 0x100 + 4 * k) (BitVec.ofNat 32 (numAt d (4 * k) 4))) u
      let bad := y.status ≠ 0 ∨ y.bytes.any (·.2) = true ∨ x.stageBad = true
      (bad → s.bootStage slotB h x = (u, some 0x090E)) ∧
      (¬bad → s.bootStage slotB h x =
        (w, if dsaValid d (slice b 0x2040 4627) (slice b 0x3260 2592) then none else some 0x0908)))) ∧
  (∀ (l : List (Nat × Nat)) (o v st : Nat) (u s : State), s.applyPairs [] = (s, true) ∧
    (s.regWrite .loader o 4 v false = (u, st) → s.applyPairs ((o, v) :: l) = if st = 0 then u.applyPairs l else (u, false))) ∧
  (∀ (h : List (BitVec 8)) (x : Sect) (y : BytesAns) (u v s : State) (st n : Nat), s.bytesGet .loader (numAt h 0x20 8 + x.off) x.size = (u, y) →
    let l := y.bytes.map (·.1)
    ((x.flags % 2 = 1 ∨ x.type = 4 ∨ x.type = 5) → s.applySect h x = (s, true)) ∧
    (x.flags % 2 ≠ 1 →
      (x.type = 1 → s.applySect h x = u.applyPairs (regPairs l)) ∧
      (x.type = 2 → u.bytesPut .loader x.target (l.map some) false = (v, st, n) → s.applySect h x = (v, st == 0)) ∧
      (x.type = 3 → s.applySect h x = (u.applyHalf x l, true)))) ∧
  (∀ (x : BootTry) (s : State), (s.boot = none ∨ ∃ b, s.boot = some b ∧ ∃ c ∈ imgChannels b.head, (s.dram c).filled = false) →
    exec (.enableSections x) s = .next (s.ends s)) ∧
  (∀ (x : BootTry) (b : BootRun) (u v s : State) (l : List (Nat × Nat × Nat)) (e : EnableEnd), s.boot = some b →
    (∀ c ∈ imgChannels b.head, (s.dram c).filled = true) → (s.setRf bootBase 0 4 6).enableEntries b.head = (u, l) →
    u.enableAll b.entry b.planes (l.drop b.entry) = (v, e) →
    let does := fun w : State => exec (.enableSections x) s = .next (s.ends w)
    match e with
    | .done => does (v.bootEnds b)
    | .waits k ps => does { v with boot := some { b with entry := k, planes := ps } }
    | .refused c =>
      let w := State.setRg { v with boot := none } (bootBase + 0xC) (BitVec.ofNat 32 c)
      does (if b.slotB then w.bootFails 0x090C else w.trySlotB 0x090C x)) ∧
  (∀ (k st : Nat) (ps : List Nat) (o v r : Nat) (l : List (Nat × Nat × Nat)) (u w s : State) (c : Option Nat), s.enableAll k ps [] = (s, .done) ∧
    (let outside := o < 0x400000 ∨ 0x440000 ≤ o
     let march := 0x400000 ≤ o ∧ o < 0x440000 ∧ o % 0x10000 = 0xE000 ∧ v % 2 = 1
     let busy := ∃ p ∈ ps, s.rb (planeBase p + 0xE004) 31 = true
     (outside → busy → s.enableAll k ps ((o, v, r) :: l) = (s, .waits k ps)) ∧
     (¬(outside ∧ busy) → s.enableEntry (o, v, r) = (u, c) → s.enableAll k ps ((o, v, r) :: l) = match c with
       | some n => (u, .refused n)
       | none => u.enableAll (k + 1) (if outside then [] else if march then ps ++ [(o - 0x400000) / 0x10000] else ps) l)) ∧
    (∀ y sr n, s.regWrite .loader o 4 v false = (u, st) →
      (st ≠ 0 → s.enableEntry (o, v, r) = (u, some st)) ∧
      (st = 0 → u.regRead .loader r 4 = (y, sr, n) → s.enableEntry (o, v, r) =
        (y, if sr ≠ 0 then some sr else if n % 65536 = 0 then none else some (n % 65536))))) ∧
  (∀ (b : BootRun) (s : State),
    let h := b.head
    let slot := (s.otp.keySlot (slice h 0x3260 2592)).getD 0
    let f := s.commitFuses h slot
    let t := s.bootEnds b
    t.rf bootBase 0 4 = 7 ∧ t.boot = none ∧ t.otp = f.otp ∧ t.rg (bootBase + 0x20) = BitVec.ofNat 32 (numAt h 0x10 4) ∧
    t.rg (bootBase + 0x24) = BitVec.ofNat 32 (numAt h 0x14 4) ∧ t.rg64 (bootBase + 0x18) = s.now % 2 ^ 64 ∧
    t.rg (bootBase + 0x28) = BitVec.ofNat 32 (slot * 2 ^ 16 + numAt h 0x19 1 % 128 * 2 ^ 8 + numAt h 0x18 1) ∧
    (t.core 16).st = .run ∧ (t.core 16).pc = BitVec.ofNat 32 (numAt h 0x38 4) ∧ t.host.subsys = Config.subsystemIds h ∧
    t.rb (tdmBase + 8) 28 = s.signals.role ∧ t.rb (bootBase + 0x30) 0 = true ∧ (b.slotB = true → t.rb (bootBase + 0x30) 1 = true) ∧
    t.flash = s.flash) ∧
  (∀ (h : List (BitVec 8)) (slot : Nat) (s : State),
    let old := s.otp
    let n := if numAt h 0x1B 1 % 2 = 1 ∧ old.svnf < numAt h 0x19 1 then min 64 (numAt h 0x19 1) else old.svnf
    let x := { old with svnf := n, keyrev := old.keyrev ||| setBit (BitVec.ofNat 4 (numAt h 0x1A 1)) slot false }
    (x = old → s.commitFuses h slot = s) ∧
    (x ≠ old → s.commitFuses h slot =
      (State.lbAppend { s with otp := x } 0x0003 [(old.svnf, 1), (n, 1), (x.keyrev.toNat, 1)]).bootEvent 2)) ∧
  (∀ (w : OtpWrite) (s : State),
    let does := fun x : Otp => exec (.otpwr w) s = .next (s.ends { s with otp := x })
    (s.otp.lock = true → does s.otp) ∧
    (s.otp.lock = false → match w with
      | .hash k v => does { s.otp with hash := mset 0 s.otp.hash k (mget 0 s.otp.hash k ||| v) }
      | .keyv v => does { s.otp with keyv := s.otp.keyv ||| v }
      | .keyrev v => does { s.otp with keyrev := s.otp.keyrev ||| v }
      | .lock => does { s.otp with lock := true })) ∧
  (∀ (m : Master) (v : Word32) (s : State),
    let kind := fld v 0 16
    let u := s.setRf (testBase + 0x30) 0 16 kind
    let does := fun w : State => exec (.lbAppend m v) s = .next (s.ends w)
    (m ≠ .puppeteer → does { s.countStatus 1 73 (masterRouter m) 73 with out := s.out ++ [.answer m (0x4200000000 + testBase + 0x30) 1 0] }) ∧
    (m = .puppeteer → kind < 0x8000 → does (u.setRf testBase 0 16 0x0B21)) ∧
    (m = .puppeteer → 0x8000 ≤ kind → does (u.lbAppend kind ((List.range 4).map (fun i => ((u.rg (testBase + 0x20 + 4 * i)).toNat, 4)))))) ∧
  (∀ (kind : Nat) (l : List (Nat × Nat)) (s : State),
    let sec := s.now / 1000000000
    let n := if s.lbSecond.1 = sec then s.lbSecond.2 else 0
    let a := logbookAddr + 0x10000 + 32 * s.lbIdx
    let seq := (s.rg (testBase + 0x34)).toNat
    let boot := bytesAt s.mem (logbookAddr + 8) 2
    let c := logbookAddr + 0x1000 + 8 * 24
    let drop := State.setRg { s with lbSecond := (sec, n + 1) } (testBase + 0x38) (satInc32 (s.rg (testBase + 0x38)))
    let lost : State := { drop with mem := putBytes s.mem c (bytesAt s.mem c 8 + 1) 8 }
    (n < 1000 ∨ kind = 0x00F0 → s.lbAppend kind l = { s.setRg (testBase + 0x34) (BitVec.ofNat 32 (seq + 1)) with
      mem := putBytes s.mem a (packFields [(seq, 4), (s.now, 8), (boot, 2), (kind, 2), (packFields l, 16)]) 32,
      lbIdx := (s.lbIdx + 1) % 194560, lbSecond := (sec, n + 1) }) ∧
    (n = 1000 → kind ≠ 0x00F0 → s.lbAppend kind l =
      (lost.setRb (testBase + 0x10) 2 true).raiseIf ((lost.setRb (testBase + 0x10) 2 true).rb (testBase + 0x10) 18) 1922) ∧
    (1000 < n → kind ≠ 0x00F0 → s.lbAppend kind l = lost)) ∧
  (∀ s : State,
    let sec := s.now / 1000000000
    let m := putBytes s.mem (logbookAddr + 0xC) s.lbIdx 4
    (s.lbHead = some sec → exec .logbookHeaderUpdate s = .next (s.ends s)) ∧
    (s.lbHead ≠ some sec → exec .logbookHeaderUpdate s = .next (s.ends { s with
      lbHead := some sec, mem := putBytes m (logbookAddr + 0x10) (s.rg (testBase + 0x34)).toNat 4 }))) ∧
  (∀ (m : Master) (v : Word32) (s : State),
    let does := fun w : State => exec (.ftlReq m v) s = .next (s.ends w)
    (m ≠ .puppeteer → does { s.countStatus 1 73 (masterRouter m) 73 with out := s.out ++ [.answer m (0x4200000000 + testBase + 0x40) 1 0] }) ∧
    (m = .puppeteer → does ((s.setRf (testBase + 0x40) 0 16 (fld v 0 16)).enterFatal 5 (fld v 0 16) 0))) ∧
  (∀ (cause d d2 : Nat) (s : State),
    let o := testBase + 0x44
    let t := s.enterFatal cause d d2
    (s.dead = true → t = s.setRf o 0 4 (min 15 (s.rf o 0 4 + 1))) ∧
    (s.dead = false → t.rg o = BitVec.ofNat 32 (2 ^ 29 + cause % 256 * 2 ^ 16) ∧ t.dead = true ∧ t.rg64 (testBase + 0x48) = s.now % 2 ^ 64 ∧
      t.fatal = (d, d2) ∧ t.rb (tdmBase + 8) 28 = false ∧ t.bist = none ∧
      (s.rb tdmBase 0 = true → s.rf (tdmBase + 8) 24 3 ≠ 0 → .aedade 5 [] ∈ t.out) ∧
      (∀ n, n < 17 → (t.core n).st = if (cause = 1 ∨ cause = 2) ∧ n = d % 32 then .fatal else if n = 16 then (s.core 16).st else .off) ∧
      (∀ p, p < 4 → s.rb (planeBase p + 0xE004) 31 = true → t.rb (planeBase p + 0xE004) 31 = false))) ∧
  (∀ (err : Bool) (s : State),
    let f := testBase + 0x44
    let idle := s.dead = false ∨ s.rf f 29 3 = 4 ∨ (s.core 16).st = .fatal
    let sum := s.summaryPieces err s.dumpable
    let done : Piece := { off := 0x1C, val := (if s.dumpable then 1 else 0) + (if err then 2 else 0) + 4 + 16 * s.rf f 0 4 }
    let u := if s.dumpable then (s.dumpTo (s.dramTotal * 2 ^ 30 - 0x20000000) (s.dumpPieces ++ sum ++ [done])).setRb f 26 true else s
    let slot := bytesAt u.mem (logbookAddr + 0x14) 4 % 8
    let base := logbookAddr + 0x600000 + 0x40000 * slot
    (idle → exec (.fatalDumpComplete err) s = .next (s.ends s)) ∧
    (¬idle → exec (.fatalDumpComplete err) s = .next (s.ends (s.fatalDump err)) ∧
      (let t := s.fatalDump err
       t.rf f 29 3 = 4 ∧ t.dead = true ∧ t.signals = { s.signals with fatal := true } ∧ t.rb f 26 = (s.dumpable || s.rb f 26) ∧
       t.rb (testBase + 0x10) 3 = true ∧ t.rg (testBase + 0x50) = BitVec.ofNat 32 slot ∧
       bytesAt t.mem (logbookAddr + 0x14) 4 = (slot + 1) % 8 ∧ t.lbIdx = (s.lbIdx + 1) % 194560 ∧ t.codes = u.codes ∧
       (∀ a, a < 2 ^ 38 → readByte t.mem a = readByte u.mem a) ∧
       (s.lbIdx < 194560 → bytesAt t.mem base 4 = 0x4446574B ∧ bytesAt t.mem (base + 4) 2 = 1 ∧ bytesAt t.mem (base + 6) 2 = s.rf f 16 8 ∧
         bytesAt t.mem (base + 8) 8 = s.rg64 (testBase + 0x48) ∧ bytesAt t.mem (base + 0x14) 4 = s.fatal.1 % 2 ^ 32 ∧
         bytesAt t.mem (base + 0x18) 4 = s.fatal.2 % 2 ^ 32 ∧ bytesAt t.mem (base + 0x1C) 4 = done.val) ∧
       { t with
         regs := s.regs, raised := s.raised, mem := s.mem, codes := s.codes, signals := s.signals, lbIdx := s.lbIdx,
         lbSecond := s.lbSecond } = s))) ∧
  (∀ (base : Nat) (l : List Piece) (s : State),
    (∀ p : Piece, p.off + p.size ≤ 0x20000000 → 0 < p.size → bytesAt (s.dumpPut base p).mem (base + p.off) p.size = p.val % 256 ^ p.size) ∧
    s.dumpTo base l = l.foldl (fun v p => v.dumpPut base p) (s.clearLines base 0x1000000)) ∧
  (∀ s : State,
    let d := s.dramTotal * 2 ^ 30 - 0x20000000
    let span := if s.rb (dramBase 0 + 0xC) 0 then [0, 1, 2, 3] else [d / 2 ^ 36]
    s.dumpable = true ↔ s.dramTotal ≠ 0 ∧ s.dramWithin d 0x20000000 = true ∧
      ∀ c ∈ span, (s.dram c).st ≠ .frozen ∧ (s.dram c).st ≠ .failed)

/-- TDM_ENABLE starts linking where its check passes, sending HELLO on a link that is up, or stores the lowest code
(R438, R444, R451). HELLO pairs and sets the acting captain, or stores the lowest code of R444 with event 6
(R444, R450). Heartbeats go out at multiples of 10 microseconds; one received clears the misses, shows the
peer's captain bit and the skew, with event 7 past SKEWMAX; misses fall 12 microseconds after it and every
further 10 (R442). The third miss, GONE and a link-down are the loss of the peer: a captain goes SOLO, a stoker
takes over where TKOVR is set or becomes UNFIT, the tables empty (R441 to R443, R448, R450). A lane drop goes to
2 lanes, 1, none; a link that comes up sends HELLO while linking (R441, R444). Samples popped from RECQ make
records; one popped is sent and placed, one of the peer placed; equal ones are counted, others are mismatches,
one without a counterpart for MWIN is MISSING (R445, R446); a mismatch is counted and shown, and at MTHR the
action of MACT follows once (R447). YIELD is refused with 0x0A07, or sent; the peer takes the part and replies,
and the reply takes it from the old captain (R449). In any other case each changes nothing. Each answers exactly
the state named. What its clauses fix beyond the rules is the model's choice (log entry 56). -/
def Obligations.TheTandemPairsComparesAndHandsOver : Prop :=
  (∀ (v : Word32) (s : State), s.dead = false →
    let b := tdmBase
    let x := setBit v 0 true
    let w := s.writeFields b { rw := 0xFF000000#32, rwl := 0x00310000#32, en := b } x
    let u : State := { ((State.setRf (w.setRb b 0 true) (b + 8) 29 3 1).setRf (b + 8) 16 2 0).setRb (b + 8) 28
      (s.signals.role && s.running) with tandem := {} }
    let does := fun z : State => exec (.tdmEnable v) s = .next (s.ends z)
    (s.rb b 0 = true → does w) ∧
    (s.rb b 0 = false → w.tdmCheck x = [] → does (if s.rf (b + 8) 24 3 ≠ 0 then u.sendHello else u)) ∧
    (∀ c ∈ w.tdmCheck x, s.rb b 0 = false → (∀ d ∈ w.tdmCheck x, c ≤ d) → does (w.setRf (b + 4) 0 16 c))) ∧
  (∀ (v : Word32) (s : State),
    let b := tdmBase
    let l := s.tdmCheck v
    let q := s.rf (b + 0x18) 0 9
    (∀ c ∈ l, c ∈ [0x0A01, 0x0A02, 0x0A04, 0x0A06]) ∧
    (0x0A01 ∈ l ↔ v &&& ~~~0xFF310005#32 ≠ 0 ∨ s.rf b 20 2 = 3) ∧
    (0x0A02 ∈ l ↔ (s.queue q).on = false ∨ s.cons q ≠ 0) ∧
    (0x0A04 ∈ l ↔ s.rg (bootBase + 0x24) = 0) ∧
    (0x0A06 ∈ l ↔ s.rf (b + 0x1C) 0 16 = 0 ∨ (s.rf b 24 8 = 0 ∧ s.rf b 20 2 ≠ 0))) ∧
  (∀ (k : Nat) (s : State),
    let e := s.setRb (tdmBase + 0x30) k true
    s.tdmEvent k = (if e.rb (tdmBase + 0x30) (16 + k) = true then e.raise (1864 + k) else e) ∧
    s.sendHello = { s with out := s.out ++ [.aedade 1 [(s.rg (bootBase + 0x24)).toNat, s.rg64 (tdmBase + 0x10),
      s.rf (bootBase + 0x28) 0 8, if s.signals.role then 1 else 0, if s.tandem.solo then 3 else s.rf (tdmBase + 8) 29 3]] }) ∧
  (∀ (pairid : Word32) (hash : BitVec 64) (roles : BitVec 8) (capt solo : Bool) (s : State), s.dead = false →
    let b := tdmBase
    let codes := s.helloCodes { pairid := pairid, hash := hash, roles := roles, captain := capt, solo := solo }
    let lead := if s.tandem.solo then true else if solo then false else s.signals.role
    let u := ((s.setRf (b + 8) 29 3 2).setRb (b + 8) 28 lead).setRf (b + 8) 16 2 0
    let does := fun z : State => exec (.hello pairid hash roles capt solo) s = .next (s.ends z)
    let hears := s.rb b 0 = true ∧ s.rf (b + 8) 29 3 = 1 ∧ s.rf (b + 8) 24 3 ≠ 0
    let paired : State := { u with
      tandem := { s.tandem with mine := [], theirs := [], solo := false, peerUnfit := false, beat := s.now } }
    (¬hears → does s) ∧
    (hears → codes = [] → does (paired.tdmEvent 0)) ∧
    (∀ c ∈ codes, hears → (∀ d ∈ codes, c ≤ d) → does ((s.setRf (b + 4) 0 16 c).tdmEvent 6)) ∧
    (∀ c ∈ codes, c ∈ [0x0A03, 0x0A04, 0x0A05]) ∧
    (0x0A03 ∈ codes ↔ hash.toNat ≠ s.rg64 (b + 0x10)) ∧
    (0x0A04 ∈ codes ↔ pairid ≠ s.rg (bootBase + 0x24)) ∧
    (0x0A05 ∈ codes ↔ (s.tandem.solo = true ∧ solo = true) ∨ (s.tandem.solo = false ∧ solo = false ∧ s.signals.role = capt) ∨
      s.rb (bootBase + 0x28) (if lead = true then 0 else 1) = false ∨ roles.getLsbD (if lead = true then 1 else 0) = false)) ∧
  (∀ s : State, s.dead = false →
    let b := tdmBase
    let sends := s.rb b 0 = true ∧ s.rf (b + 8) 24 3 ≠ 0 ∧ s.now % 10000 = 0
    (¬sends → exec .heartbeatSend s = .next (s.ends s)) ∧
    (sends → exec .heartbeatSend s = .next (s.ends { s with out := s.out ++ [.aedade 2
      [s.rf (b + 8) 29 3, if s.signals.role then 1 else 0, if s.rb (b + 8) 28 then 1 else 0, s.now]] }))) ∧
  (∀ (st : Fin 8) (capt : Bool) (time : BitVec 64) (s : State), s.dead = false →
    let b := tdmBase
    let hears := s.rb b 0 = true ∧ s.rf (b + 8) 24 3 ≠ 0
    let skew : Int := (time.toNat : Int) + 500 - s.now
    let shown : Int := max (-2 ^ 31) (min (2 ^ 31 - 1) skew)
    let t : Tandem := { s.tandem with beat := s.now, peerUnfit := s.tandem.peerUnfit || st == 4 }
    let u := (State.setRb { s.setRf (b + 8) 16 2 0 with tandem := t } (b + 8) 27 capt).setRg (b + 0x2C) (BitVec.ofInt 32 shown)
    let does := fun z : State => exec (.heartbeatReceive st capt time) s = .next (s.ends z)
    (¬hears → does s) ∧
    (hears → skew.natAbs ≤ s.rf (b + 0x1C) 16 16 → does u) ∧
    (hears → s.rf (b + 0x1C) 16 16 < skew.natAbs → does (u.tdmEvent 7))) ∧
  (∀ s : State, s.dead = false →
    let b := tdmBase
    let n := s.rf (b + 8) 16 2
    let misses := s.rb b 0 = true ∧ (s.rf (b + 8) 29 3 = 2 ∨ s.tandem.beat ≠ 0) ∧ n ≠ 3 ∧ s.tandem.beat + 12000 + 10000 * n ≤ s.now
    let does := fun z : State => exec .heartbeatMiss s = .next (s.ends z)
    (¬misses → does s) ∧ (misses → n ≠ 2 → does (s.setRf (b + 8) 16 2 (n + 1))) ∧
    (misses → n = 2 → does (s.setRf (b + 8) 16 2 3).mwinExpiry.peerLost)) ∧
  (∀ s : State, s.dead = false →
    let b := tdmBase
    (¬(s.rb b 0 = true ∧ s.rf (b + 8) 29 3 = 2) → exec .gone s = .next (s.ends s)) ∧
    (s.rb b 0 = true → s.rf (b + 8) 29 3 = 2 → exec .gone s = .next (s.ends (s.setRf (b + 8) 16 2 3).peerLost)) ∧
    exec .aedadeLinkDown s = .next (s.ends (s.setRf (b + 8) 24 3 0).peerLost)) ∧
  (∀ s : State,
    let b := tdmBase
    let bare : Tandem := { s.tandem with mine := [], theirs := [], part := [], yielding := false }
    let alone : State := { s.setRf (b + 8) 29 3 3 with tandem := { bare with solo := true } }
    let over_ := (State.tdmEvent (alone.setRb (b + 8) 28 true) 1).tdmEvent 2
    (s.rf (b + 8) 29 3 ≠ 2 → s.peerLost = s) ∧
    (s.rf (b + 8) 29 3 = 2 → s.rb (b + 8) 28 = true → s.peerLost = alone.tdmEvent 1) ∧
    (s.rf (b + 8) 29 3 = 2 → s.rb (b + 8) 28 = false → s.rb b 16 = true →
      s.peerLost = over_.lbAppend 0x0031 [((over_.rg (b + 8)).toNat, 4)]) ∧
    (s.rf (b + 8) 29 3 = 2 → s.rb (b + 8) 28 = false → s.rb b 16 = false →
      s.peerLost = State.tdmEvent { s.setRf (b + 8) 29 3 4 with tandem := bare } 1)) ∧
  (∀ s : State, s.dead = false →
    let n := s.rf (tdmBase + 8) 24 3
    let to_ := fun k : Nat => (s.setRf (tdmBase + 8) 24 3 k).tdmEvent 5
    (n = 0 → exec .laneDrop s = .next (s.ends s)) ∧ (2 < n → exec .laneDrop s = .next (s.ends (to_ 2))) ∧
    (n = 2 → exec .laneDrop s = .next (s.ends (to_ 1))) ∧
    (n = 1 → exec .laneDrop s = .next (s.ends (to_ 0).peerLost))) ∧
  (∀ (lanes : Fin 5) (s : State), s.dead = false →
    let b := tdmBase
    let u := s.setRf (b + 8) 24 3 lanes.val
    let links := s.rb b 0 = true ∧ lanes ≠ 0 ∧ (s.rf (b + 8) 29 3 = 1 ∨ s.rf (b + 8) 29 3 = 3)
    (¬links → exec (.aedadeLinkUp lanes) s = .next (s.ends u)) ∧
    (links → exec (.aedadeLinkUp lanes) s = .next (s.ends (u.setRf (b + 8) 29 3 1).sendHello))) ∧
  (∀ (bits : BitVec 120) (poison : Bool) (s : State), s.dead = false →
    let id := bits.toNat % 2 ^ 40
    let takes := s.compares = true ∧ s.tandem.theirs.length < 256
    let does := fun z : State => exec (.remoteRecord bits poison) s = .next (s.ends z)
    (s.compares = true ↔ s.rb tdmBase 0 = true ∧ s.rf (tdmBase + 8) 29 3 = 2 ∧ s.tandem.peerUnfit = false) ∧
    (¬takes → does s) ∧ (takes → id ∈ s.tandem.missed → does s.lateRecord) ∧
    (takes → id ∉ s.tandem.missed → does (s.placeRecord false { bits := bits, poison := poison, placed := s.now }))) ∧
  (∀ (own : Bool) (x y : TRec) (s : State),
    let id := x.bits.toNat % 2 ^ 40
    let facing := if own then s.tandem.theirs else s.tandem.mine
    let same := if own then s.tandem.mine else s.tandem.theirs
    let met : State := { s with
      tandem := if own then { s.tandem with theirs := facing.erase y } else { s.tandem with mine := facing.erase y } }
    (facing.find? (fun z => z.bits.toNat % 2 ^ 40 == id) = some y →
      (x.poison = true ∨ y.poison = true → s.placeRecord own x = met.mismatch 2 id) ∧
      (x.poison = false → y.poison = false → x.bits = y.bits → s.placeRecord own x = met.count64 (tdmBase + 0x38)) ∧
      (x.poison = false → y.poison = false → x.bits ≠ y.bits → s.placeRecord own x = met.mismatch 1 id)) ∧
    ((∀ z ∈ facing, z.bits.toNat % 2 ^ 40 ≠ id) →
      ((∃ z ∈ same, z.bits.toNat % 2 ^ 40 = id) → s.placeRecord own x = s.mismatch 4 id) ∧
      ((∀ z ∈ same, z.bits.toNat % 2 ^ 40 ≠ id) → s.placeRecord own x = { s with
        tandem := if own then { s.tandem with mine := same ++ [x] } else { s.tandem with theirs := same ++ [x] } }))) ∧
  (∀ (kind id : Nat) (s : State),
    let b := tdmBase
    let u := ((s.setRg (b + 0x20) (satInc32 (s.rg (b + 0x20)))).setRg (b + 0x24)
      (BitVec.ofNat 32 (2 ^ 31 + kind * 2 ^ 24 + id / 2 ^ 20 % 2 ^ 20))).setRg (b + 0x28) (BitVec.ofNat 32 (id % 2 ^ 20))
    let w := u.tdmEvent 3
    let thr := w.rf b 24 8
    let mact := w.rf b 20 2
    let reaches := thr ≠ 0 ∧ thr ≤ (w.rg (b + 0x20)).toNat ∧ s.tandem.acted = false
    let z := State.tdmEvent { w with tandem := { s.tandem with acted := true } } 4
    let bare : Tandem := { z.tandem with mine := [], theirs := [], part := [] }
    (¬reaches → s.mismatch kind id = w) ∧
    (reaches → (mact = 0 ∨ mact = 3) → s.mismatch kind id = z) ∧
    (reaches → mact = 1 → z.rb (b + 8) 28 = true → s.mismatch kind id = { z with tandem := { bare with peerUnfit := true } }) ∧
    (reaches → mact = 1 → z.rb (b + 8) 28 = false → s.mismatch kind id = { z.setRf (b + 8) 29 3 4 with tandem := bare }) ∧
    (reaches → mact = 2 → s.mismatch kind id = z.enterFatal 4 (z.rg (b + 0x24)).toNat (z.rg (b + 0x20)).toNat) ∧
    s.lateRecord = (s.setRf (b + 0x40) 16 16 (min 65535 (s.rf (b + 0x40) 16 16 + 1))).tdmEvent 8) ∧
  (∀ s : State, s.dead = false →
    let q := s.rf (tdmBase + 0x18) 0 9
    let pops := s.rb tdmBase 0 = true ∧ s.cons q = 0 ∧ (s.queue q).on = true ∧ ¬(s.compares = true ∧ 256 ≤ s.tandem.mine.length)
    (¬pops → exec .recordPop s = .next (s.ends s)) ∧ (pops → exec .recordPop s = .next (s.ends (State.popRecord q 64 s)))) ∧
  (∀ (q n : Nat) (c : Chan) (u s : State),
    let l := s.tandem.part ++ [c]
    State.popRecord q 0 s = s ∧ (s.popHead q = none → State.popRecord q (n + 1) s = s) ∧
    (s.popHead q = some (u, c) →
      (c.e = false → u.tandem = s.tandem ∧ State.popRecord q (n + 1) s = State.popRecord q n { u with tandem := { s.tandem with part := l } }) ∧
      (c.e = true → State.popRecord q (n + 1) s = State.localPacket { u with tandem := { s.tandem with part := [] } } l))) ∧
  (∀ (cs : List Chan) (s : State),
    let x : TRec := { bits := BitVec.ofNat 120 (cs.foldr (fun c n => c.v.toNat + 2 ^ 20 * n) 0), poison := cs.any (fun c => c.p), placed := s.now }
    let id := x.bits.toNat % 2 ^ 40
    let b := tdmBase
    (cs.length ≠ 6 → s.localPacket cs = (s.setRf (b + 0x40) 0 16 (min 65535 (s.rf (b + 0x40) 0 16 + 1))).tdmEvent 9) ∧
    (cs.length = 6 → s.compares = false → s.localPacket cs = s) ∧
    (cs.length = 6 → s.compares = true → id ∈ s.tandem.missed → s.localPacket cs = s.lateRecord) ∧
    (cs.length = 6 → s.compares = true → id ∉ s.tandem.missed → s.localPacket cs =
      State.placeRecord { s with out := s.out ++ [.aedade 3 [x.bits.toNat, if x.poison then 1 else 0]] } true x)) ∧
  (∀ s : State, s.dead = false →
    let one := fun (own : Bool) (u : State) => if u.compares then u.expireSide own else u
    exec .mwinExpiry s = .next (s.ends s.mwinExpiry) ∧ (s.compares = false → s.mwinExpiry = s) ∧
    (s.compares = true → s.mwinExpiry = iter (one false) s.tandem.theirs.length (iter (one true) s.tandem.mine.length s))) ∧
  (∀ (own : Bool) (x : TRec) (s : State),
    let l := if own then s.tandem.mine else s.tandem.theirs
    let due := fun z : TRec => decide (z.placed + 1000 * s.rf (tdmBase + 0x1C) 0 16 ≤ s.now)
    let id := x.bits.toNat % 2 ^ 40
    let ids := (s.tandem.missed ++ [id]).drop (s.tandem.missed.length + 1 - 64)
    let freed : Tandem := if own then { s.tandem with mine := l.erase x, missed := ids } else { s.tandem with theirs := l.erase x, missed := ids }
    (l.find? due = none → s.expireSide own = s) ∧
    (l.find? due = some x → s.expireSide own = State.mismatch { s with tandem := freed } 3 id)) ∧
  (∀ s : State, s.dead = false →
    let b := tdmBase
    let paired := s.rb b 0 = true ∧ s.rf (b + 8) 29 3 = 2
    let does := fun (c : Instr) (z : State) => exec c s = .next (s.ends z)
    (s.tandem.yielding = true → does (.yieldCaptain false) s) ∧
    (s.tandem.yielding = false → paired → s.rb (b + 8) 28 = true → s.rf (b + 8) 24 3 ≠ 0 → does (.yieldCaptain false) { s with
      tandem := { s.tandem with yielding := true }, out := s.out ++ [.aedade 4 []] }) ∧
    (s.tandem.yielding = false → ¬(paired ∧ s.rb (b + 8) 28 = true ∧ s.rf (b + 8) 24 3 ≠ 0) →
      does (.yieldCaptain false) (s.setRf (b + 4) 0 16 0x0A07)) ∧
    (paired → s.rb (b + 8) 28 = false → does (.yieldCaptain true) { s.setRb (b + 8) 28 true with out := s.out ++ [.aedade 6 []] }) ∧
    (¬(paired ∧ s.rb (b + 8) 28 = false) → does (.yieldCaptain true) s) ∧
    (paired → s.rb (b + 8) 28 = true → s.tandem.yielding = true → does .yieldReply { s.setRb (b + 8) 28 false with
      tandem := { s.tandem with yielding := false } }) ∧
    (¬(paired ∧ s.rb (b + 8) 28 = true ∧ s.tandem.yielding = true) → does .yieldReply s))

/-- MARCH_GO on an idle engine is refused with the lowest applying code in TST_REASON and REF set, or borrows the
bank and runs; with ALL it goes to the first bank that may be borrowed and counts in MT_SKIP those passed over
(R459). While a test is in progress it changes MT_CMD alone. MARCH_ABORT ends a test in progress, MARCH_DONE one
that runs, on completion or at a miscompare, which is counted with its place and bit, logged, and in a
preserving test over an uncorrectable row leaves that row poisoned (R456 to R458, R460). MARCH_RESUME after
RESUME microseconds of quiet borrows the bank again, ends the test where the bank is no longer yielded, or waits
(R460). A test that ends leaves MT_STAT saying where it stood, gives the bank back, a destructive one cleared,
lets the accesses that waited for it proceed, and leaves the engine idle with the DONE event, or at the next
bank of an ALL request (R122, R456, R459). In any other case each changes nothing. Each answers exactly the
state named. That an ALL request goes on after a miscompare is the model's choice (log entry 55). What its
clauses fix beyond the rules is the model's choice (log entries 55 and 58). -/
def Obligations.MarchTestsStartAndEnd : Prop :=
  (∀ (p : Fin 4) (v : Word32) (s : State), s.dead = false →
    let w := s.writeFields (planeBase p + 0xE000) { rw := 0x0007FF7C#32 } v
    let dest := v.getLsbD 2
    let all := v.getLsbD 3
    let pos := 128 * fld v 8 4 + 4 * fld v 12 5 + fld v 17 2
    let x := marchPlace p pos
    let bad := (dest && fld v 4 3 == 0) || fld v 19 13 != 0 || v.getLsbD 7
    let codes := (if all then [] else w.marchCodes x.1 x.2.1 x.2.2 dest) ++ (if bad then [0x0B03] else [])
    let u : State := { w with marches := mset {} w.marches p { w.march p with all := all, dest := dest, bg := fld v 4 3 } }
    let does := fun z : State => exec (.marchGo p v) s = .next (s.ends z)
    (w.rb (mtStat p) 31 = true → does w) ∧
    (∀ c ∈ codes, w.rb (mtStat p) 31 = false → (∀ d ∈ codes, c ≤ d) → does ((w.setRf testBase 0 16 c).setRb (mtStat p) 30 true)) ∧
    (w.rb (mtStat p) 31 = false → codes = [] → all = false → does (u.marchBorrow p pos dest)) ∧
    (w.rb (mtStat p) 31 = false → codes = [] → all = true → does ((u.setRb (mtStat p) 31 true).marchNext p dest 2048 0))) ∧
  (∀ (r c b : Nat) (dest : Bool) (s : State),
    let l := s.marchCodes r c b dest
    (∀ k ∈ l, k ∈ [0x0B01, 0x0B02, 0x0B04, 0x0B05]) ∧
    (0x0B01 ∈ l ↔ s.rb (memctl r c) (4 + b) = false ∨ (s.rf (memctl r c) 0 2 = 0 ∧ s.rb (regionBase r) 0 = true)) ∧
    (0x0B02 ∈ l ↔ dest = true ∧ s.rb (memctl r c) (8 + b) = true) ∧ (0x0B04 ∈ l ↔ s.pstate r ≠ 0) ∧
    (0x0B05 ∈ l ↔ dest = true ∧ s.cellQueued r c = true)) ∧
  (∀ (p pos : Nat) (dest : Bool) (s : State),
    let x := marchPlace p pos
    let u := (s.setRb (memctl x.1 x.2.1) (12 + x.2.2) true).setRb (memctl x.1 x.2.1) 16 dest
    let w : State := { u with marches := mset {} s.marches p { s.march p with cur := pos, dest := dest, since := s.now, done := 0 } }
    let st := 2 ^ 31 + 2 * 2 ^ 24 + (if w.rb (mtStat p) 30 then 2 ^ 30 else 0)
    x = (regionOf p (pos / 128), pos / 4 % 32, pos % 4) ∧
    s.marchBorrow p pos dest = (w.setRg (mtStat p) (BitVec.ofNat 32 st)).setRg (planeBase p + 0xE008) (BitVec.ofNat 32 pos)) ∧
  (∀ (p n pos : Nat) (dest : Bool) (s : State),
    let x := marchPlace p pos
    (2048 ≤ pos → s.marchNext p dest n pos = s.marchIdle p) ∧
    (pos < 2048 → s.marchCodes x.1 x.2.1 x.2.2 dest = [] → s.marchNext p dest (n + 1) pos = s.marchBorrow p pos dest) ∧
    (pos < 2048 → s.marchCodes x.1 x.2.1 x.2.2 dest ≠ [] → s.marchNext p dest (n + 1) pos =
      (s.setRg (planeBase p + 0xE01C) (satInc32 (s.rg (planeBase p + 0xE01C)))).marchNext p dest n (pos + 1))) ∧
  (∀ (p : Fin 4) (s : State), s.dead = false →
    (s.rb (mtStat p) 31 = false → exec (.marchAbort p) s = .next (s.ends s)) ∧
    (s.rb (mtStat p) 31 = true → exec (.marchAbort p) s =
      .next (s.ends ((s.marchNote p ((s.march p).spot (s.marchCycles p))).marchEnd p false)))) ∧
  (∀ (p : Nat) (goOn : Bool) (s : State),
    let m := s.march p
    let x := marchPlace p m.cur
    let mine := fun e : Master × Nat × Nat × Nat × P1Op => e.2.1 == x.1 && e.2.2.1 == x.2.1 && e.2.2.2.1 % 4 == x.2.2
    let u := s.marchRelease p
    let w : State := { u with p1Wait := s.p1Wait.filter (fun e => !mine e) }
    let z := ((s.p1Wait.filter mine).foldl (fun (v : State) e => v.portOneDo e.1 e.2.1 e.2.2.1 e.2.2.2.1 e.2.2.2.2) w).setRb
      (memctl x.1 x.2.1) 17 false
    (m.all = true → goOn = true → s.marchEnd p goOn = z.marchNext p m.dest 2048 (m.cur + 1)) ∧
    (m.all = false ∨ goOn = false → s.marchEnd p goOn = z.marchIdle p)) ∧
  (∀ (p : Nat) (s : State),
    let m := s.march p
    let x := marchPlace p m.cur
    let w := (s.setRb (memctl x.1 x.2.1) (12 + x.2.2) false).setRb (memctl x.1 x.2.1) 16 false
    let held := s.rb (memctl x.1 x.2.1) (12 + x.2.2)
    let t := s.marchRelease p
    let inBank := fun k : Nat => ∃ i, i < 256 ∧ k = cellAddr x.1 x.2.1 (4 * i + x.2.2) / 32
    (m.dest = false ∨ held = false → t = w) ∧
    (m.dest = true → held = true → { t with mem := s.mem, codes := s.codes } = w ∧
      (∀ a, readByte t.mem a = if inBank (a / 32) then 0 else readByte s.mem a) ∧
      (∀ k, mget {} t.codes k = if inBank k then {} else mget {} s.codes k))) ∧
  (∀ (p : Nat) (e r : Nat) (s : State),
    let u := (s.setRb (mtStat p) 31 false).setRf (mtStat p) 24 3 0
    let w : State := { u with marches := mset {} s.marches p { s.march p with all := false } }
    let z := w.setRb (planeBase p + 0xE020) 0 true
    let n := s.marchNote p (e, r)
    let d := (s.march p).dest
    s.marchIdle p = (if z.rb (planeBase p + 0xE020) 16 = true then z.raise (1024 + 64 * p + 7) else z) ∧
    (n.rf (mtStat p) 16 4 = if d then e % 16 else 0) ∧ n.rf (mtStat p) 8 8 = r % 256 ∧ (n.rb (mtStat p) 20 = (!d && e == 1)) ∧
    (∀ i, i < 8 ∨ i = 21 ∨ i = 22 ∨ i = 23 ∨ (24 ≤ i ∧ i < 32) → n.rb (mtStat p) i = s.rb (mtStat p) i) ∧
    s.onlyRegs n [mtStat p] ∧ n.raised = s.raised) ∧
  (∀ (m : March) (k : Nat), let n := min k (m.total - 1) % 2560
    let up := (n - 256) % 512 / 2
    (m.total = if m.dest then 2560 * ((if m.bg.testBit 0 then 1 else 0) + (if m.bg.testBit 1 then 1 else 0) + (if m.bg.testBit 2 then 1 else 0))
      else 6648) ∧
    (m.dest = true → (n < 256 → m.spot k = (0, n)) ∧ (256 ≤ n → n < 1280 → m.spot k = ((n - 256) / 512 + 1, up)) ∧
      (1280 ≤ n → n < 2304 → m.spot k = ((n - 256) / 512 + 1, 255 - up)) ∧ (2304 ≤ n → m.spot k = (5, n - 2304))) ∧
    (∀ i, m.dest = false → i < 256 → elementStart i ≤ k → k < elementStart (i + 1) → m.spot k = (0, i)) ∧
    (∀ i, m.dest = false → i < 256 → elementStart (256 + i) ≤ k → k < elementStart (257 + i) → m.spot k = (1, 255 - i)) ∧
    (∀ i, i < 512 → elementStart (i + 1) = elementStart i + if i = 0 ∨ i = 255 ∨ i = 256 ∨ i = 511 then 11 else 13)) ∧
  (∀ (p : Fin 4) (s : State), s.dead = false →
    let m := s.march p
    let x := marchPlace p m.cur
    let st := s.rf (mtStat p) 24 3
    let due := s.rb (mtStat p) 31 = true ∧ (st = 3 ∨ st = 1) ∧ m.since + 1000 * s.rf (planeBase p + 0xE00C) 0 16 ≤ s.now
    let free := s.rb (memctl x.1 x.2.1) (4 + x.2.2) = true
    let busy := (s.rf (memctl x.1 x.2.1) 0 2 = 0 ∧ s.rb (regionBase x.1) 0 = true) ∨ s.pstate x.1 ≠ 0
    let does := fun z : State => exec (.marchResume p) s = .next (s.ends z)
    (¬due → does s) ∧ (due → ¬free → does ((s.marchNote p (m.spot m.done)).marchEnd p true)) ∧
    (due → free → busy → does (s.setRf (mtStat p) 24 3 1)) ∧
    (due → free → ¬busy → does { (s.setRb (memctl x.1 x.2.1) (12 + x.2.2) true).setRf (mtStat p) 24 3 2 with
      marches := mset {} s.marches p { m with since := s.now } })) ∧
  (∀ (p : Fin 4) (el : Fin 6) (row : Fin 256) (fb : Fin 277) (ue : Bool) (s : State), s.dead = false →
    let m := s.march p
    let runs := s.rb (mtStat p) 31 = true ∧ s.rf (mtStat p) 24 3 = 2
    let miss := some (el, row, fb, ue)
    let stood := if m.dest then el.val else el.val % 2
    (¬runs → exec (.marchDone p none) s = .next (s.ends s) ∧ exec (.marchDone p miss) s = .next (s.ends s)) ∧
    (runs → exec (.marchDone p none) s = .next (s.ends ((s.marchNote p (m.spot (m.total - 1))).marchEnd p true)) ∧
      exec (.marchDone p miss) s =
        .next (s.ends (((s.marchNote p (stood, row.val)).miscompare p el.val row.val fb.val ue).marchEnd p true)))) ∧
  (∀ (p el row fb : Nat) (ue : Bool) (s : State),
    let m := s.march p
    let x := marchPlace p m.cur
    let e := if m.dest then el % 8 else 6 + el % 2
    let last := 2 ^ 31 + (if !m.dest && ue then 2 ^ 30 else 0) + (if m.dest then 2 ^ 29 else 0) + planeIdx x.1 * 2 ^ 24 + x.2.1 * 2 ^ 16 +
      x.2.2 * 2 ^ 14 + e * 2 ^ 8 + row % 256
    let b := planeBase p + 0xE000
    let u := ((s.setRg (b + 0x10) (satInc32 (s.rg (b + 0x10)))).setRg (b + 0x14) (BitVec.ofNat 32 last)).setRg (b + 0x18)
      (BitVec.ofNat 32 (fb % 512))
    let w := u.setRb (b + 0x20) 1 true
    let y := if w.rb (b + 0x20) 17 = true then w.raise (1024 + 64 * p + 8) else w
    let z := y.lbAppend 0x0020 [(p, 4), ((y.rg (b + 0x14)).toNat, 4), (fb, 4)]
    let a := cellAddr x.1 x.2.1 (4 * (row % 256) + x.2.2)
    (m.dest = true ∨ ue = false → s.miscompare p el row fb ue = z) ∧
    (m.dest = false → ue = true → s.miscompare p el row fb ue = z.putLine a (linePoison (z.examine a).raw)))

/-- BIST_GO writes KIND and TARGET. With no BIST running it then puts the lowest applying code of R462 into
TST_REASON, or sets BUSY for the target that they name (R461). BIST_DONE clears BUSY, sets DONE with its event
and leaves the signature in BIST_SIG; where it differs from the value of the ROM, which the model keeps free
(Config.bistSignature), it sets FAIL with its event and writes a BIST_FAIL entry (R461). A region tested is left
as at wake, its receive FIFOs empty and its senders' credits at 8, a core's banks are as after RESET (R29, R216,
R268). With no BIST running it changes nothing. Each answers exactly the state named. What its clauses fix
beyond the rules is the model's choice (log entry 55). -/
def Obligations.LogicBistStartsAndEnds : Prop :=
  (∀ (v : Word32) (s : State), s.dead = false →
    let w := s.writeFields (testBase + 4) { rw := 0x007F0300#32 } v
    let kind := fld v 8 2
    let n := fld v 16 7
    let codes := w.bistCodes kind n
    let does := fun z : State => exec (.bistGo v) s = .next (s.ends z)
    (s.bist ≠ none → does w) ∧
    (∀ c ∈ codes, s.bist = none → (∀ d ∈ codes, c ≤ d) → does (w.setRf testBase 0 16 c)) ∧
    (s.bist = none → codes = [] → does { w.setRb (testBase + 8) 31 true with bist := some (kind, n) })) ∧
  (∀ (kind n : Nat) (s : State),
    let l := s.bistCodes kind n
    let d := (s.region n).drl
    (∀ c ∈ l, c ∈ [0x0B10, 0x0B11, 0x0B12, 0x0B13]) ∧
    (0x0B10 ∈ l ↔ (kind = 0 ∧ n < 64 ∧ s.rb (regionBase n) 0 = true) ∨ (kind = 1 ∧ n < 16 ∧ s.rb (ccReg n) 0 = true) ∨
      (kind = 2 ∧ n < 64 ∧ s.isolated n = false)) ∧
    (0x0B11 ∈ l ↔ kind = 0 ∧ n < 64 ∧ s.pstate n ≠ 0) ∧
    (0x0B12 ∈ l ↔ kind = 0 ∧ n < 64 ∧ (d.st = .busy ∨ d.st = .migrating ∨ d.subof = true)) ∧
    (0x0B13 ∈ l ↔ kind = 3 ∨ (kind = 0 ∧ 63 < n) ∨ (kind = 1 ∧ 15 < n) ∨ (kind = 2 ∧ 63 < n))) ∧
  (∀ (sig : Word32) (s : State), s.dead = false → s.bist = none → exec (.bistDone sig) s = .next (s.ends s)) ∧
  (∀ (kind n : Nat) (sig : Word32) (s : State), s.dead = false → s.bist = some (kind, n) →
    let b := testBase
    let free : State := { s with bist := none }
    let u := match kind with
      | 0 => free.wakeCells n
      | 1 => { free with cores := mset {} s.cores n { s.core n with x := [], banks := [] } }
      | _ => free
    let shows := fun (k : Nat) (v : State) =>
      let x := v.setRb (b + 0x10) k true
      if x.rb (b + 0x10) (16 + k) = true then x.raise (1920 + k) else x
    let w := shows 0 (((u.setRb (b + 8) 31 false).setRb (b + 8) 0 true).setRg (b + 0xC) sig)
    (sig = Config.bistSignature kind → exec (.bistDone sig) s = .next (s.ends w)) ∧
    (sig ≠ Config.bistSignature kind → exec (.bistDone sig) s =
      .next (s.ends ((shows 1 (w.setRb (b + 8) 1 true)).lbAppend 0x0021 [(kind, 4), (n, 4), (sig.toNat, 4)])))) ∧
  (∀ (r : Nat) (s : State),
    let at_ := { s.region r with
      fx := [], fp := [], agu := [], memOut := [], spoke := [], flags := [], flights := [], rds := [], wrs := [], p1 := [], p1Busy := [],
      fixes := [], stack := [], evtRet := 0, evtValid := false, inh := false, inFifo := [], inWay := [], visWay := [], lastOut := [] }
    let full := fun (v : State) (i : Nat) => match v.farSide r i with
      | none => v
      | some (n, o) => v.setRegion n { v.region n with
          credUsed := mset 0 (v.region n).credUsed o 0, credWay := mset [] (v.region n).credWay o [] }
    s.wakeCells r = (List.range 64).foldl full (s.setRegion r at_))
end

