-- ==== Sys2Proof/Laws/Map.lean ====
section
/-! SUPPORT. Laws of sparse maps: a read after a write, and the canonical form that every write keeps. -/

namespace Sys2Proof.Machine

/-- Every key of a map is at least `n`. -/
def keysFrom {α : Type} (n : Nat) (m : Map α) : Prop := ∀ e ∈ m, n ≤ e.1

@[simp] theorem mget_nil {α : Type} (d : α) (k : Nat) : mget d [] k = d := rfl

theorem mget_mdel_self {α : Type} (d : α) (m : Map α) (k : Nat) : mget d (mdel k m) k = d := by
  induction m with
  | nil => rfl
  | cons e r ih => obtain ⟨a, v⟩ := e; by_cases h : a = k <;> simp [mdel, mget, h, ih]

theorem mget_mdel_ne {α : Type} (d : α) (m : Map α) {k j : Nat} (h : j ≠ k) : mget d (mdel k m) j = mget d m j := by
  induction m with
  | nil => rfl
  | cons e r ih =>
    obtain ⟨a, v⟩ := e
    by_cases ha : a = k
    · subst ha; simp [mdel, mget, ih, Ne.symm h]
    · simp [mdel, mget, ha, ih]

theorem mget_mins_self {α : Type} (d : α) (v : α) (m : Map α) (k : Nat) (h : ∀ e ∈ m, e.1 ≠ k) :
    mget d (mins k v m) k = v := by
  induction m with
  | nil => simp [mins, mget]
  | cons e r ih =>
    obtain ⟨a, w⟩ := e
    have ha : a ≠ k := h (a, w) (by simp)
    have hr := ih (fun e he => h e (by simp [he]))
    by_cases hk : k < a <;> simp [mins, mget, hk, ha, hr]

theorem mget_mins_ne {α : Type} (d : α) (v : α) (m : Map α) {k j : Nat} (h : j ≠ k) :
    mget d (mins k v m) j = mget d m j := by
  induction m with
  | nil => simp [mins, mget, Ne.symm h]
  | cons e r ih =>
    obtain ⟨a, w⟩ := e
    by_cases hk : k < a <;> simp [mins, mget, hk, ih, Ne.symm h]

theorem mdel_keys {α : Type} (k : Nat) (m : Map α) : ∀ e ∈ mdel k m, e.1 ≠ k ∧ e ∈ m := by
  induction m with
  | nil => simp [mdel]
  | cons x r ih =>
    obtain ⟨a, v⟩ := x
    intro e he
    by_cases h : a = k
    · simp only [mdel, h, if_true] at he; exact ⟨(ih e he).1, by simp [(ih e he).2]⟩
    · simp only [mdel, h, if_false, List.mem_cons] at he
      rcases he with rfl | he
      · exact ⟨h, by simp⟩
      · exact ⟨(ih e he).1, by simp [(ih e he).2]⟩

/-- A read after a write: the value written at its key, what stood before at any other. -/
theorem mget_mset {α : Type} [DecidableEq α] (d : α) (m : Map α) (k j : Nat) (v : α) :
    mget d (mset d m k v) j = if j = k then v else mget d m j := by
  by_cases hv : v = d
  · by_cases h : j = k
    · subst h; simp [mset, hv, mget_mdel_self]
    · simp [mset, hv, h, mget_mdel_ne d m h]
  · by_cases h : j = k
    · subst h; simp [mset, hv, mget_mins_self d v _ _ (fun e he => (mdel_keys _ m e he).1)]
    · simp [mset, hv, h, mget_mins_ne d v _ h, mget_mdel_ne d m h]

@[simp] theorem mget_mset_self {α : Type} [DecidableEq α] (d : α) (m : Map α) (k : Nat) (v : α) :
    mget d (mset d m k v) k = v := by simp [mget_mset]

theorem mget_mset_ne {α : Type} [DecidableEq α] (c d : α) (m : Map α) {k j : Nat} (v : α) (h : j ≠ k) :
    mget c (mset d m k v) j = mget c m j := by
  by_cases hv : v = d
  · simp [mset, hv, mget_mdel_ne c m h]
  · simp [mset, hv, mget_mins_ne c v _ h, mget_mdel_ne c m h]

@[simp] theorem mget_mupd_self {α : Type} [DecidableEq α] (d : α) (m : Map α) (k : Nat) (f : α → α) :
    mget d (mupd d m k f) k = f (mget d m k) := by simp [mupd]

theorem mget_mupd_ne {α : Type} [DecidableEq α] (d : α) (m : Map α) {k j : Nat} (f : α → α) (h : j ≠ k) :
    mget d (mupd d m k f) j = mget d m j := by simp [mupd, mget_mset, h]

/-- A read after a range was dropped. -/
theorem mget_mclear {α : Type} (d : α) (lo hi : Nat) (m : Map α) (k : Nat) :
    mget d (mclear lo hi m) k = if lo ≤ k ∧ k < hi then d else mget d m k := by
  induction m with
  | nil => simp [mclear, mget]
  | cons e r ih =>
    obtain ⟨a, v⟩ := e
    by_cases ha : lo ≤ a ∧ a < hi
    · by_cases hk : a = k
      · subst hk; simp [mclear, ha, ih]
      · simp [mclear, ha, ih, mget, hk]
    · by_cases hk : a = k
      · subst hk; simp [mclear, ha, mget]
      · simp [mclear, ha, mget, hk, ih]

/-! The canonical form. -/

/-- The canonical form of a map with a first entry. -/
theorem mapOk_cons {α : Type} [DecidableEq α] (d : α) (e : Nat × α) (m : Map α) :
    mapOk d (e :: m) = true ↔ e.2 ≠ d ∧ keysFrom (e.1 + 1) m ∧ mapOk d m = true := by
  obtain ⟨a, v⟩ := e
  induction m generalizing a v with
  | nil => simp [mapOk, keysFrom]
  | cons x r ih =>
    obtain ⟨b, w⟩ := x
    have h := ih b w
    simp only [mapOk, Bool.and_eq_true, decide_eq_true_eq, keysFrom, List.mem_cons, forall_eq_or_imp]
    constructor
    · rintro ⟨⟨hv, hab⟩, hr⟩
      refine ⟨hv, ⟨by omega, fun e he => ?_⟩, hr⟩
      have := (h.mp hr).2.1 e he
      omega
    · rintro ⟨hv, ⟨hab, -⟩, hr⟩
      exact ⟨⟨hv, by omega⟩, hr⟩

theorem mapOk_nil {α : Type} [DecidableEq α] (d : α) : mapOk d ([] : Map α) = true := rfl

theorem mdel_ok {α : Type} [DecidableEq α] (d : α) (k : Nat) (m : Map α) (h : mapOk d m = true) :
    mapOk d (mdel k m) = true := by
  induction m with
  | nil => rfl
  | cons e r ih =>
    have he := (mapOk_cons d e r).mp h
    obtain ⟨a, v⟩ := e
    by_cases hk : a = k
    · simpa [mdel, hk] using ih he.2.2
    · rw [mdel, if_neg hk]
      exact (mapOk_cons d _ _).mpr ⟨he.1, fun x hx => he.2.1 x (mdel_keys k r x hx).2, ih he.2.2⟩

theorem mins_keys {α : Type} (k : Nat) (v : α) (m : Map α) : ∀ e ∈ mins k v m, e = (k, v) ∨ e ∈ m := by
  induction m with
  | nil => simp [mins]
  | cons x r ih =>
    obtain ⟨a, w⟩ := x
    intro e he
    by_cases h : k < a
    · simp only [mins, h, if_true, List.mem_cons] at he; simpa using he
    · simp only [mins, h, if_false, List.mem_cons] at he
      rcases he with rfl | he
      · simp
      · rcases ih e he with h | h <;> simp [h]

theorem mins_ok {α : Type} [DecidableEq α] (d : α) (k : Nat) (v : α) (m : Map α) (hv : v ≠ d)
    (hk : ∀ e ∈ m, e.1 ≠ k) (h : mapOk d m = true) : mapOk d (mins k v m) = true := by
  induction m with
  | nil => simp [mins, mapOk, hv]
  | cons e r ih =>
    have he := (mapOk_cons d e r).mp h
    obtain ⟨a, w⟩ := e
    by_cases hka : k < a
    · rw [mins, if_pos hka]
      refine (mapOk_cons d _ _).mpr ⟨hv, ?_, h⟩
      intro x hx
      rcases List.mem_cons.mp hx with rfl | hx
      · exact hka
      · have := he.2.1 x hx; simp only at this ⊢; omega
    · rw [mins, if_neg hka]
      have ha : a ≠ k := hk (a, w) (by simp)
      refine (mapOk_cons d _ _).mpr ⟨he.1, ?_, ih (fun e h => hk e (by simp [h])) he.2.2⟩
      intro x hx
      rcases mins_keys k v r x hx with rfl | hx
      · simp only; omega
      · exact he.2.1 x hx

/-- Every write keeps the canonical form. -/
theorem mset_ok {α : Type} [DecidableEq α] (d : α) (m : Map α) (k : Nat) (v : α) (h : mapOk d m = true) :
    mapOk d (mset d m k v) = true := by
  by_cases hv : v = d
  · simpa [mset, hv] using mdel_ok d k m h
  · simpa [mset, hv] using mins_ok d k v _ hv (fun e he => (mdel_keys k m e he).1) (mdel_ok d k m h)

theorem mclear_mem {α : Type} (lo hi : Nat) (m : Map α) : ∀ e ∈ mclear lo hi m, e ∈ m := by
  induction m with
  | nil => simp [mclear]
  | cons x r ih =>
    obtain ⟨a, v⟩ := x
    intro e he
    by_cases h : lo ≤ a ∧ a < hi
    · simp only [mclear, h, and_self, if_true] at he; simp [ih e he]
    · simp only [mclear, h, if_false, List.mem_cons] at he
      rcases he with rfl | he
      · simp
      · simp [ih e he]

/-- Dropping a range keeps the canonical form. -/
theorem mclear_ok {α : Type} [DecidableEq α] (d : α) (lo hi : Nat) (m : Map α) (h : mapOk d m = true) :
    mapOk d (mclear lo hi m) = true := by
  induction m with
  | nil => rfl
  | cons e r ih =>
    have he := (mapOk_cons d e r).mp h
    obtain ⟨a, v⟩ := e
    by_cases hk : lo ≤ a ∧ a < hi
    · simpa [mclear, hk] using ih he.2.2
    · rw [mclear, if_neg hk]
      exact (mapOk_cons d _ _).mpr ⟨he.1, fun x hx => he.2.1 x (mclear_mem lo hi r x hx), ih he.2.2⟩

/-- Keeping the entries that pass a test keeps the canonical form. -/
theorem filter_ok {α : Type} [DecidableEq α] (d : α) (f : Nat × α → Bool) (m : Map α) (h : mapOk d m = true) :
    mapOk d (m.filter f) = true := by
  induction m with
  | nil => rfl
  | cons e r ih =>
    have he := (mapOk_cons d e r).mp h
    by_cases hf : f e
    · rw [List.filter_cons_of_pos hf]
      exact (mapOk_cons d _ _).mpr ⟨he.1, fun x hx => he.2.1 x (List.mem_filter.mp hx).1, ih he.2.2⟩
    · rw [List.filter_cons_of_neg hf]; exact ih he.2.2

end Sys2Proof.Machine
end

