-- ==== Sys2Proof/Laws/State.lean ====
section
/-! SUPPORT. What each basic update leaves unchanged: one lemma per field. -/

namespace Sys2Proof.Machine

/-! setRg -/

@[simp] theorem State.setRg_latches (s : State) (o : Nat) (v : Word32) : (s.setRg o v).latches = s.latches := rfl
@[simp] theorem State.setRg_mem (s : State) (o : Nat) (v : Word32) : (s.setRg o v).mem = s.mem := rfl
@[simp] theorem State.setRg_codes (s : State) (o : Nat) (v : Word32) : (s.setRg o v).codes = s.codes := rfl
@[simp] theorem State.setRg_regions (s : State) (o : Nat) (v : Word32) : (s.setRg o v).regions = s.regions := rfl
@[simp] theorem State.setRg_queues (s : State) (o : Nat) (v : Word32) : (s.setRg o v).queues = s.queues := rfl
@[simp] theorem State.setRg_held (s : State) (o : Nat) (v : Word32) : (s.setRg o v).held = s.held := rfl
@[simp] theorem State.setRg_taken (s : State) (o : Nat) (v : Word32) : (s.setRg o v).taken = s.taken := rfl
@[simp] theorem State.setRg_scrubs (s : State) (o : Nat) (v : Word32) : (s.setRg o v).scrubs = s.scrubs := rfl
@[simp] theorem State.setRg_drams (s : State) (o : Nat) (v : Word32) : (s.setRg o v).drams = s.drams := rfl
@[simp] theorem State.setRg_pads (s : State) (o : Nat) (v : Word32) : (s.setRg o v).pads = s.pads := rfl
@[simp] theorem State.setRg_tsuDrive (s : State) (o : Nat) (v : Word32) : (s.setRg o v).tsuDrive = s.tsuDrive := rfl
@[simp] theorem State.setRg_p1Wait (s : State) (o : Nat) (v : Word32) : (s.setRg o v).p1Wait = s.p1Wait := rfl
@[simp] theorem State.setRg_marches (s : State) (o : Nat) (v : Word32) : (s.setRg o v).marches = s.marches := rfl
@[simp] theorem State.setRg_cadLate (s : State) (o : Nat) (v : Word32) : (s.setRg o v).cadLate = s.cadLate := rfl
@[simp] theorem State.setRg_lbIdx (s : State) (o : Nat) (v : Word32) : (s.setRg o v).lbIdx = s.lbIdx := rfl
@[simp] theorem State.setRg_lbSecond (s : State) (o : Nat) (v : Word32) : (s.setRg o v).lbSecond = s.lbSecond := rfl
@[simp] theorem State.setRg_lbHead (s : State) (o : Nat) (v : Word32) : (s.setRg o v).lbHead = s.lbHead := rfl
@[simp] theorem State.setRg_sched (s : State) (o : Nat) (v : Word32) : (s.setRg o v).sched = s.sched := rfl
@[simp] theorem State.setRg_cores (s : State) (o : Nat) (v : Word32) : (s.setRg o v).cores = s.cores := rfl
@[simp] theorem State.setRg_bist (s : State) (o : Nat) (v : Word32) : (s.setRg o v).bist = s.bist := rfl
@[simp] theorem State.setRg_noc (s : State) (o : Nat) (v : Word32) : (s.setRg o v).noc = s.noc := rfl
@[simp] theorem State.setRg_raised (s : State) (o : Nat) (v : Word32) : (s.setRg o v).raised = s.raised := rfl
@[simp] theorem State.setRg_tsuDone (s : State) (o : Nat) (v : Word32) : (s.setRg o v).tsuDone = s.tsuDone := rfl
@[simp] theorem State.setRg_cxps (s : State) (o : Nat) (v : Word32) : (s.setRg o v).cxps = s.cxps := rfl
@[simp] theorem State.setRg_eths (s : State) (o : Nat) (v : Word32) : (s.setRg o v).eths = s.eths := rfl
@[simp] theorem State.setRg_host (s : State) (o : Nat) (v : Word32) : (s.setRg o v).host = s.host := rfl
@[simp] theorem State.setRg_sha (s : State) (o : Nat) (v : Word32) : (s.setRg o v).sha = s.sha := rfl
@[simp] theorem State.setRg_mld (s : State) (o : Nat) (v : Word32) : (s.setRg o v).mld = s.mld := rfl
@[simp] theorem State.setRg_otp (s : State) (o : Nat) (v : Word32) : (s.setRg o v).otp = s.otp := rfl
@[simp] theorem State.setRg_flash (s : State) (o : Nat) (v : Word32) : (s.setRg o v).flash = s.flash := rfl
@[simp] theorem State.setRg_boot (s : State) (o : Nat) (v : Word32) : (s.setRg o v).boot = s.boot := rfl
@[simp] theorem State.setRg_signals (s : State) (o : Nat) (v : Word32) : (s.setRg o v).signals = s.signals := rfl
@[simp] theorem State.setRg_mtime (s : State) (o : Nat) (v : Word32) : (s.setRg o v).mtime = s.mtime := rfl
@[simp] theorem State.setRg_avs (s : State) (o : Nat) (v : Word32) : (s.setRg o v).avs = s.avs := rfl
@[simp] theorem State.setRg_tandem (s : State) (o : Nat) (v : Word32) : (s.setRg o v).tandem = s.tandem := rfl
@[simp] theorem State.setRg_fatal (s : State) (o : Nat) (v : Word32) : (s.setRg o v).fatal = s.fatal := rfl
@[simp] theorem State.setRg_out (s : State) (o : Nat) (v : Word32) : (s.setRg o v).out = s.out := rfl
@[simp] theorem State.setRg_now (s : State) (o : Nat) (v : Word32) : (s.setRg o v).now = s.now := rfl
@[simp] theorem State.setRg_fresh (s : State) (o : Nat) (v : Word32) : (s.setRg o v).fresh = s.fresh := rfl
@[simp] theorem State.setRg_pending (s : State) (o : Nat) (v : Word32) : (s.setRg o v).pending = s.pending := rfl

/-! setRf -/

@[simp] theorem State.setRf_latches (s : State) (o lo len x : Nat) : (s.setRf o lo len x).latches = s.latches := by simp [State.setRf]
@[simp] theorem State.setRf_mem (s : State) (o lo len x : Nat) : (s.setRf o lo len x).mem = s.mem := by simp [State.setRf]
@[simp] theorem State.setRf_codes (s : State) (o lo len x : Nat) : (s.setRf o lo len x).codes = s.codes := by simp [State.setRf]
@[simp] theorem State.setRf_regions (s : State) (o lo len x : Nat) : (s.setRf o lo len x).regions = s.regions := by simp [State.setRf]
@[simp] theorem State.setRf_queues (s : State) (o lo len x : Nat) : (s.setRf o lo len x).queues = s.queues := by simp [State.setRf]
@[simp] theorem State.setRf_held (s : State) (o lo len x : Nat) : (s.setRf o lo len x).held = s.held := by simp [State.setRf]
@[simp] theorem State.setRf_taken (s : State) (o lo len x : Nat) : (s.setRf o lo len x).taken = s.taken := by simp [State.setRf]
@[simp] theorem State.setRf_scrubs (s : State) (o lo len x : Nat) : (s.setRf o lo len x).scrubs = s.scrubs := by simp [State.setRf]
@[simp] theorem State.setRf_drams (s : State) (o lo len x : Nat) : (s.setRf o lo len x).drams = s.drams := by simp [State.setRf]
@[simp] theorem State.setRf_pads (s : State) (o lo len x : Nat) : (s.setRf o lo len x).pads = s.pads := by simp [State.setRf]
@[simp] theorem State.setRf_tsuDrive (s : State) (o lo len x : Nat) : (s.setRf o lo len x).tsuDrive = s.tsuDrive := by simp [State.setRf]
@[simp] theorem State.setRf_p1Wait (s : State) (o lo len x : Nat) : (s.setRf o lo len x).p1Wait = s.p1Wait := by simp [State.setRf]
@[simp] theorem State.setRf_marches (s : State) (o lo len x : Nat) : (s.setRf o lo len x).marches = s.marches := by simp [State.setRf]
@[simp] theorem State.setRf_cadLate (s : State) (o lo len x : Nat) : (s.setRf o lo len x).cadLate = s.cadLate := by simp [State.setRf]
@[simp] theorem State.setRf_lbIdx (s : State) (o lo len x : Nat) : (s.setRf o lo len x).lbIdx = s.lbIdx := by simp [State.setRf]
@[simp] theorem State.setRf_lbSecond (s : State) (o lo len x : Nat) : (s.setRf o lo len x).lbSecond = s.lbSecond := by simp [State.setRf]
@[simp] theorem State.setRf_lbHead (s : State) (o lo len x : Nat) : (s.setRf o lo len x).lbHead = s.lbHead := by simp [State.setRf]
@[simp] theorem State.setRf_sched (s : State) (o lo len x : Nat) : (s.setRf o lo len x).sched = s.sched := by simp [State.setRf]
@[simp] theorem State.setRf_cores (s : State) (o lo len x : Nat) : (s.setRf o lo len x).cores = s.cores := by simp [State.setRf]
@[simp] theorem State.setRf_bist (s : State) (o lo len x : Nat) : (s.setRf o lo len x).bist = s.bist := by simp [State.setRf]
@[simp] theorem State.setRf_noc (s : State) (o lo len x : Nat) : (s.setRf o lo len x).noc = s.noc := by simp [State.setRf]
@[simp] theorem State.setRf_raised (s : State) (o lo len x : Nat) : (s.setRf o lo len x).raised = s.raised := by simp [State.setRf]
@[simp] theorem State.setRf_tsuDone (s : State) (o lo len x : Nat) : (s.setRf o lo len x).tsuDone = s.tsuDone := by simp [State.setRf]
@[simp] theorem State.setRf_cxps (s : State) (o lo len x : Nat) : (s.setRf o lo len x).cxps = s.cxps := by simp [State.setRf]
@[simp] theorem State.setRf_eths (s : State) (o lo len x : Nat) : (s.setRf o lo len x).eths = s.eths := by simp [State.setRf]
@[simp] theorem State.setRf_host (s : State) (o lo len x : Nat) : (s.setRf o lo len x).host = s.host := by simp [State.setRf]
@[simp] theorem State.setRf_sha (s : State) (o lo len x : Nat) : (s.setRf o lo len x).sha = s.sha := by simp [State.setRf]
@[simp] theorem State.setRf_mld (s : State) (o lo len x : Nat) : (s.setRf o lo len x).mld = s.mld := by simp [State.setRf]
@[simp] theorem State.setRf_otp (s : State) (o lo len x : Nat) : (s.setRf o lo len x).otp = s.otp := by simp [State.setRf]
@[simp] theorem State.setRf_flash (s : State) (o lo len x : Nat) : (s.setRf o lo len x).flash = s.flash := by simp [State.setRf]
@[simp] theorem State.setRf_boot (s : State) (o lo len x : Nat) : (s.setRf o lo len x).boot = s.boot := by simp [State.setRf]
@[simp] theorem State.setRf_signals (s : State) (o lo len x : Nat) : (s.setRf o lo len x).signals = s.signals := by simp [State.setRf]
@[simp] theorem State.setRf_mtime (s : State) (o lo len x : Nat) : (s.setRf o lo len x).mtime = s.mtime := by simp [State.setRf]
@[simp] theorem State.setRf_avs (s : State) (o lo len x : Nat) : (s.setRf o lo len x).avs = s.avs := by simp [State.setRf]
@[simp] theorem State.setRf_tandem (s : State) (o lo len x : Nat) : (s.setRf o lo len x).tandem = s.tandem := by simp [State.setRf]
@[simp] theorem State.setRf_fatal (s : State) (o lo len x : Nat) : (s.setRf o lo len x).fatal = s.fatal := by simp [State.setRf]
@[simp] theorem State.setRf_out (s : State) (o lo len x : Nat) : (s.setRf o lo len x).out = s.out := by simp [State.setRf]
@[simp] theorem State.setRf_now (s : State) (o lo len x : Nat) : (s.setRf o lo len x).now = s.now := by simp [State.setRf]
@[simp] theorem State.setRf_fresh (s : State) (o lo len x : Nat) : (s.setRf o lo len x).fresh = s.fresh := by simp [State.setRf]
@[simp] theorem State.setRf_pending (s : State) (o lo len x : Nat) : (s.setRf o lo len x).pending = s.pending := by simp [State.setRf]

/-! setRb -/

@[simp] theorem State.setRb_latches (s : State) (o i : Nat) (b : Bool) : (s.setRb o i b).latches = s.latches := by simp [State.setRb]
@[simp] theorem State.setRb_mem (s : State) (o i : Nat) (b : Bool) : (s.setRb o i b).mem = s.mem := by simp [State.setRb]
@[simp] theorem State.setRb_codes (s : State) (o i : Nat) (b : Bool) : (s.setRb o i b).codes = s.codes := by simp [State.setRb]
@[simp] theorem State.setRb_regions (s : State) (o i : Nat) (b : Bool) : (s.setRb o i b).regions = s.regions := by simp [State.setRb]
@[simp] theorem State.setRb_queues (s : State) (o i : Nat) (b : Bool) : (s.setRb o i b).queues = s.queues := by simp [State.setRb]
@[simp] theorem State.setRb_held (s : State) (o i : Nat) (b : Bool) : (s.setRb o i b).held = s.held := by simp [State.setRb]
@[simp] theorem State.setRb_taken (s : State) (o i : Nat) (b : Bool) : (s.setRb o i b).taken = s.taken := by simp [State.setRb]
@[simp] theorem State.setRb_scrubs (s : State) (o i : Nat) (b : Bool) : (s.setRb o i b).scrubs = s.scrubs := by simp [State.setRb]
@[simp] theorem State.setRb_drams (s : State) (o i : Nat) (b : Bool) : (s.setRb o i b).drams = s.drams := by simp [State.setRb]
@[simp] theorem State.setRb_pads (s : State) (o i : Nat) (b : Bool) : (s.setRb o i b).pads = s.pads := by simp [State.setRb]
@[simp] theorem State.setRb_tsuDrive (s : State) (o i : Nat) (b : Bool) : (s.setRb o i b).tsuDrive = s.tsuDrive := by simp [State.setRb]
@[simp] theorem State.setRb_p1Wait (s : State) (o i : Nat) (b : Bool) : (s.setRb o i b).p1Wait = s.p1Wait := by simp [State.setRb]
@[simp] theorem State.setRb_marches (s : State) (o i : Nat) (b : Bool) : (s.setRb o i b).marches = s.marches := by simp [State.setRb]
@[simp] theorem State.setRb_cadLate (s : State) (o i : Nat) (b : Bool) : (s.setRb o i b).cadLate = s.cadLate := by simp [State.setRb]
@[simp] theorem State.setRb_lbIdx (s : State) (o i : Nat) (b : Bool) : (s.setRb o i b).lbIdx = s.lbIdx := by simp [State.setRb]
@[simp] theorem State.setRb_lbSecond (s : State) (o i : Nat) (b : Bool) : (s.setRb o i b).lbSecond = s.lbSecond := by simp [State.setRb]
@[simp] theorem State.setRb_lbHead (s : State) (o i : Nat) (b : Bool) : (s.setRb o i b).lbHead = s.lbHead := by simp [State.setRb]
@[simp] theorem State.setRb_sched (s : State) (o i : Nat) (b : Bool) : (s.setRb o i b).sched = s.sched := by simp [State.setRb]
@[simp] theorem State.setRb_cores (s : State) (o i : Nat) (b : Bool) : (s.setRb o i b).cores = s.cores := by simp [State.setRb]
@[simp] theorem State.setRb_bist (s : State) (o i : Nat) (b : Bool) : (s.setRb o i b).bist = s.bist := by simp [State.setRb]
@[simp] theorem State.setRb_noc (s : State) (o i : Nat) (b : Bool) : (s.setRb o i b).noc = s.noc := by simp [State.setRb]
@[simp] theorem State.setRb_raised (s : State) (o i : Nat) (b : Bool) : (s.setRb o i b).raised = s.raised := by simp [State.setRb]
@[simp] theorem State.setRb_tsuDone (s : State) (o i : Nat) (b : Bool) : (s.setRb o i b).tsuDone = s.tsuDone := by simp [State.setRb]
@[simp] theorem State.setRb_cxps (s : State) (o i : Nat) (b : Bool) : (s.setRb o i b).cxps = s.cxps := by simp [State.setRb]
@[simp] theorem State.setRb_eths (s : State) (o i : Nat) (b : Bool) : (s.setRb o i b).eths = s.eths := by simp [State.setRb]
@[simp] theorem State.setRb_host (s : State) (o i : Nat) (b : Bool) : (s.setRb o i b).host = s.host := by simp [State.setRb]
@[simp] theorem State.setRb_sha (s : State) (o i : Nat) (b : Bool) : (s.setRb o i b).sha = s.sha := by simp [State.setRb]
@[simp] theorem State.setRb_mld (s : State) (o i : Nat) (b : Bool) : (s.setRb o i b).mld = s.mld := by simp [State.setRb]
@[simp] theorem State.setRb_otp (s : State) (o i : Nat) (b : Bool) : (s.setRb o i b).otp = s.otp := by simp [State.setRb]
@[simp] theorem State.setRb_flash (s : State) (o i : Nat) (b : Bool) : (s.setRb o i b).flash = s.flash := by simp [State.setRb]
@[simp] theorem State.setRb_boot (s : State) (o i : Nat) (b : Bool) : (s.setRb o i b).boot = s.boot := by simp [State.setRb]
@[simp] theorem State.setRb_signals (s : State) (o i : Nat) (b : Bool) : (s.setRb o i b).signals = s.signals := by simp [State.setRb]
@[simp] theorem State.setRb_mtime (s : State) (o i : Nat) (b : Bool) : (s.setRb o i b).mtime = s.mtime := by simp [State.setRb]
@[simp] theorem State.setRb_avs (s : State) (o i : Nat) (b : Bool) : (s.setRb o i b).avs = s.avs := by simp [State.setRb]
@[simp] theorem State.setRb_tandem (s : State) (o i : Nat) (b : Bool) : (s.setRb o i b).tandem = s.tandem := by simp [State.setRb]
@[simp] theorem State.setRb_fatal (s : State) (o i : Nat) (b : Bool) : (s.setRb o i b).fatal = s.fatal := by simp [State.setRb]
@[simp] theorem State.setRb_out (s : State) (o i : Nat) (b : Bool) : (s.setRb o i b).out = s.out := by simp [State.setRb]
@[simp] theorem State.setRb_now (s : State) (o i : Nat) (b : Bool) : (s.setRb o i b).now = s.now := by simp [State.setRb]
@[simp] theorem State.setRb_fresh (s : State) (o i : Nat) (b : Bool) : (s.setRb o i b).fresh = s.fresh := by simp [State.setRb]
@[simp] theorem State.setRb_pending (s : State) (o i : Nat) (b : Bool) : (s.setRb o i b).pending = s.pending := by simp [State.setRb]

/-! setRg64 -/

@[simp] theorem State.setRg64_latches (s : State) (o v : Nat) : (s.setRg64 o v).latches = s.latches := by simp [State.setRg64]
@[simp] theorem State.setRg64_mem (s : State) (o v : Nat) : (s.setRg64 o v).mem = s.mem := by simp [State.setRg64]
@[simp] theorem State.setRg64_codes (s : State) (o v : Nat) : (s.setRg64 o v).codes = s.codes := by simp [State.setRg64]
@[simp] theorem State.setRg64_regions (s : State) (o v : Nat) : (s.setRg64 o v).regions = s.regions := by simp [State.setRg64]
@[simp] theorem State.setRg64_queues (s : State) (o v : Nat) : (s.setRg64 o v).queues = s.queues := by simp [State.setRg64]
@[simp] theorem State.setRg64_held (s : State) (o v : Nat) : (s.setRg64 o v).held = s.held := by simp [State.setRg64]
@[simp] theorem State.setRg64_taken (s : State) (o v : Nat) : (s.setRg64 o v).taken = s.taken := by simp [State.setRg64]
@[simp] theorem State.setRg64_scrubs (s : State) (o v : Nat) : (s.setRg64 o v).scrubs = s.scrubs := by simp [State.setRg64]
@[simp] theorem State.setRg64_drams (s : State) (o v : Nat) : (s.setRg64 o v).drams = s.drams := by simp [State.setRg64]
@[simp] theorem State.setRg64_pads (s : State) (o v : Nat) : (s.setRg64 o v).pads = s.pads := by simp [State.setRg64]
@[simp] theorem State.setRg64_tsuDrive (s : State) (o v : Nat) : (s.setRg64 o v).tsuDrive = s.tsuDrive := by simp [State.setRg64]
@[simp] theorem State.setRg64_p1Wait (s : State) (o v : Nat) : (s.setRg64 o v).p1Wait = s.p1Wait := by simp [State.setRg64]
@[simp] theorem State.setRg64_marches (s : State) (o v : Nat) : (s.setRg64 o v).marches = s.marches := by simp [State.setRg64]
@[simp] theorem State.setRg64_cadLate (s : State) (o v : Nat) : (s.setRg64 o v).cadLate = s.cadLate := by simp [State.setRg64]
@[simp] theorem State.setRg64_lbIdx (s : State) (o v : Nat) : (s.setRg64 o v).lbIdx = s.lbIdx := by simp [State.setRg64]
@[simp] theorem State.setRg64_lbSecond (s : State) (o v : Nat) : (s.setRg64 o v).lbSecond = s.lbSecond := by simp [State.setRg64]
@[simp] theorem State.setRg64_lbHead (s : State) (o v : Nat) : (s.setRg64 o v).lbHead = s.lbHead := by simp [State.setRg64]
@[simp] theorem State.setRg64_sched (s : State) (o v : Nat) : (s.setRg64 o v).sched = s.sched := by simp [State.setRg64]
@[simp] theorem State.setRg64_cores (s : State) (o v : Nat) : (s.setRg64 o v).cores = s.cores := by simp [State.setRg64]
@[simp] theorem State.setRg64_bist (s : State) (o v : Nat) : (s.setRg64 o v).bist = s.bist := by simp [State.setRg64]
@[simp] theorem State.setRg64_noc (s : State) (o v : Nat) : (s.setRg64 o v).noc = s.noc := by simp [State.setRg64]
@[simp] theorem State.setRg64_raised (s : State) (o v : Nat) : (s.setRg64 o v).raised = s.raised := by simp [State.setRg64]
@[simp] theorem State.setRg64_tsuDone (s : State) (o v : Nat) : (s.setRg64 o v).tsuDone = s.tsuDone := by simp [State.setRg64]
@[simp] theorem State.setRg64_cxps (s : State) (o v : Nat) : (s.setRg64 o v).cxps = s.cxps := by simp [State.setRg64]
@[simp] theorem State.setRg64_eths (s : State) (o v : Nat) : (s.setRg64 o v).eths = s.eths := by simp [State.setRg64]
@[simp] theorem State.setRg64_host (s : State) (o v : Nat) : (s.setRg64 o v).host = s.host := by simp [State.setRg64]
@[simp] theorem State.setRg64_sha (s : State) (o v : Nat) : (s.setRg64 o v).sha = s.sha := by simp [State.setRg64]
@[simp] theorem State.setRg64_mld (s : State) (o v : Nat) : (s.setRg64 o v).mld = s.mld := by simp [State.setRg64]
@[simp] theorem State.setRg64_otp (s : State) (o v : Nat) : (s.setRg64 o v).otp = s.otp := by simp [State.setRg64]
@[simp] theorem State.setRg64_flash (s : State) (o v : Nat) : (s.setRg64 o v).flash = s.flash := by simp [State.setRg64]
@[simp] theorem State.setRg64_boot (s : State) (o v : Nat) : (s.setRg64 o v).boot = s.boot := by simp [State.setRg64]
@[simp] theorem State.setRg64_signals (s : State) (o v : Nat) : (s.setRg64 o v).signals = s.signals := by simp [State.setRg64]
@[simp] theorem State.setRg64_mtime (s : State) (o v : Nat) : (s.setRg64 o v).mtime = s.mtime := by simp [State.setRg64]
@[simp] theorem State.setRg64_avs (s : State) (o v : Nat) : (s.setRg64 o v).avs = s.avs := by simp [State.setRg64]
@[simp] theorem State.setRg64_tandem (s : State) (o v : Nat) : (s.setRg64 o v).tandem = s.tandem := by simp [State.setRg64]
@[simp] theorem State.setRg64_fatal (s : State) (o v : Nat) : (s.setRg64 o v).fatal = s.fatal := by simp [State.setRg64]
@[simp] theorem State.setRg64_out (s : State) (o v : Nat) : (s.setRg64 o v).out = s.out := by simp [State.setRg64]
@[simp] theorem State.setRg64_now (s : State) (o v : Nat) : (s.setRg64 o v).now = s.now := by simp [State.setRg64]
@[simp] theorem State.setRg64_fresh (s : State) (o v : Nat) : (s.setRg64 o v).fresh = s.fresh := by simp [State.setRg64]
@[simp] theorem State.setRg64_pending (s : State) (o v : Nat) : (s.setRg64 o v).pending = s.pending := by simp [State.setRg64]

/-! count -/

@[simp] theorem State.count_latches (s : State) (o : Nat) : (s.count o).latches = s.latches := by simp [State.count]
@[simp] theorem State.count_mem (s : State) (o : Nat) : (s.count o).mem = s.mem := by simp [State.count]
@[simp] theorem State.count_codes (s : State) (o : Nat) : (s.count o).codes = s.codes := by simp [State.count]
@[simp] theorem State.count_regions (s : State) (o : Nat) : (s.count o).regions = s.regions := by simp [State.count]
@[simp] theorem State.count_queues (s : State) (o : Nat) : (s.count o).queues = s.queues := by simp [State.count]
@[simp] theorem State.count_held (s : State) (o : Nat) : (s.count o).held = s.held := by simp [State.count]
@[simp] theorem State.count_taken (s : State) (o : Nat) : (s.count o).taken = s.taken := by simp [State.count]
@[simp] theorem State.count_scrubs (s : State) (o : Nat) : (s.count o).scrubs = s.scrubs := by simp [State.count]
@[simp] theorem State.count_drams (s : State) (o : Nat) : (s.count o).drams = s.drams := by simp [State.count]
@[simp] theorem State.count_pads (s : State) (o : Nat) : (s.count o).pads = s.pads := by simp [State.count]
@[simp] theorem State.count_tsuDrive (s : State) (o : Nat) : (s.count o).tsuDrive = s.tsuDrive := by simp [State.count]
@[simp] theorem State.count_p1Wait (s : State) (o : Nat) : (s.count o).p1Wait = s.p1Wait := by simp [State.count]
@[simp] theorem State.count_marches (s : State) (o : Nat) : (s.count o).marches = s.marches := by simp [State.count]
@[simp] theorem State.count_cadLate (s : State) (o : Nat) : (s.count o).cadLate = s.cadLate := by simp [State.count]
@[simp] theorem State.count_lbIdx (s : State) (o : Nat) : (s.count o).lbIdx = s.lbIdx := by simp [State.count]
@[simp] theorem State.count_lbSecond (s : State) (o : Nat) : (s.count o).lbSecond = s.lbSecond := by simp [State.count]
@[simp] theorem State.count_lbHead (s : State) (o : Nat) : (s.count o).lbHead = s.lbHead := by simp [State.count]
@[simp] theorem State.count_sched (s : State) (o : Nat) : (s.count o).sched = s.sched := by simp [State.count]
@[simp] theorem State.count_cores (s : State) (o : Nat) : (s.count o).cores = s.cores := by simp [State.count]
@[simp] theorem State.count_bist (s : State) (o : Nat) : (s.count o).bist = s.bist := by simp [State.count]
@[simp] theorem State.count_noc (s : State) (o : Nat) : (s.count o).noc = s.noc := by simp [State.count]
@[simp] theorem State.count_raised (s : State) (o : Nat) : (s.count o).raised = s.raised := by simp [State.count]
@[simp] theorem State.count_tsuDone (s : State) (o : Nat) : (s.count o).tsuDone = s.tsuDone := by simp [State.count]
@[simp] theorem State.count_cxps (s : State) (o : Nat) : (s.count o).cxps = s.cxps := by simp [State.count]
@[simp] theorem State.count_eths (s : State) (o : Nat) : (s.count o).eths = s.eths := by simp [State.count]
@[simp] theorem State.count_host (s : State) (o : Nat) : (s.count o).host = s.host := by simp [State.count]
@[simp] theorem State.count_sha (s : State) (o : Nat) : (s.count o).sha = s.sha := by simp [State.count]
@[simp] theorem State.count_mld (s : State) (o : Nat) : (s.count o).mld = s.mld := by simp [State.count]
@[simp] theorem State.count_otp (s : State) (o : Nat) : (s.count o).otp = s.otp := by simp [State.count]
@[simp] theorem State.count_flash (s : State) (o : Nat) : (s.count o).flash = s.flash := by simp [State.count]
@[simp] theorem State.count_boot (s : State) (o : Nat) : (s.count o).boot = s.boot := by simp [State.count]
@[simp] theorem State.count_signals (s : State) (o : Nat) : (s.count o).signals = s.signals := by simp [State.count]
@[simp] theorem State.count_mtime (s : State) (o : Nat) : (s.count o).mtime = s.mtime := by simp [State.count]
@[simp] theorem State.count_avs (s : State) (o : Nat) : (s.count o).avs = s.avs := by simp [State.count]
@[simp] theorem State.count_tandem (s : State) (o : Nat) : (s.count o).tandem = s.tandem := by simp [State.count]
@[simp] theorem State.count_fatal (s : State) (o : Nat) : (s.count o).fatal = s.fatal := by simp [State.count]
@[simp] theorem State.count_out (s : State) (o : Nat) : (s.count o).out = s.out := by simp [State.count]
@[simp] theorem State.count_now (s : State) (o : Nat) : (s.count o).now = s.now := by simp [State.count]
@[simp] theorem State.count_fresh (s : State) (o : Nat) : (s.count o).fresh = s.fresh := by simp [State.count]
@[simp] theorem State.count_pending (s : State) (o : Nat) : (s.count o).pending = s.pending := by simp [State.count]

/-! count64 -/

@[simp] theorem State.count64_latches (s : State) (o : Nat) : (s.count64 o).latches = s.latches := by simp [State.count64]
@[simp] theorem State.count64_mem (s : State) (o : Nat) : (s.count64 o).mem = s.mem := by simp [State.count64]
@[simp] theorem State.count64_codes (s : State) (o : Nat) : (s.count64 o).codes = s.codes := by simp [State.count64]
@[simp] theorem State.count64_regions (s : State) (o : Nat) : (s.count64 o).regions = s.regions := by simp [State.count64]
@[simp] theorem State.count64_queues (s : State) (o : Nat) : (s.count64 o).queues = s.queues := by simp [State.count64]
@[simp] theorem State.count64_held (s : State) (o : Nat) : (s.count64 o).held = s.held := by simp [State.count64]
@[simp] theorem State.count64_taken (s : State) (o : Nat) : (s.count64 o).taken = s.taken := by simp [State.count64]
@[simp] theorem State.count64_scrubs (s : State) (o : Nat) : (s.count64 o).scrubs = s.scrubs := by simp [State.count64]
@[simp] theorem State.count64_drams (s : State) (o : Nat) : (s.count64 o).drams = s.drams := by simp [State.count64]
@[simp] theorem State.count64_pads (s : State) (o : Nat) : (s.count64 o).pads = s.pads := by simp [State.count64]
@[simp] theorem State.count64_tsuDrive (s : State) (o : Nat) : (s.count64 o).tsuDrive = s.tsuDrive := by simp [State.count64]
@[simp] theorem State.count64_p1Wait (s : State) (o : Nat) : (s.count64 o).p1Wait = s.p1Wait := by simp [State.count64]
@[simp] theorem State.count64_marches (s : State) (o : Nat) : (s.count64 o).marches = s.marches := by simp [State.count64]
@[simp] theorem State.count64_cadLate (s : State) (o : Nat) : (s.count64 o).cadLate = s.cadLate := by simp [State.count64]
@[simp] theorem State.count64_lbIdx (s : State) (o : Nat) : (s.count64 o).lbIdx = s.lbIdx := by simp [State.count64]
@[simp] theorem State.count64_lbSecond (s : State) (o : Nat) : (s.count64 o).lbSecond = s.lbSecond := by simp [State.count64]
@[simp] theorem State.count64_lbHead (s : State) (o : Nat) : (s.count64 o).lbHead = s.lbHead := by simp [State.count64]
@[simp] theorem State.count64_sched (s : State) (o : Nat) : (s.count64 o).sched = s.sched := by simp [State.count64]
@[simp] theorem State.count64_cores (s : State) (o : Nat) : (s.count64 o).cores = s.cores := by simp [State.count64]
@[simp] theorem State.count64_bist (s : State) (o : Nat) : (s.count64 o).bist = s.bist := by simp [State.count64]
@[simp] theorem State.count64_noc (s : State) (o : Nat) : (s.count64 o).noc = s.noc := by simp [State.count64]
@[simp] theorem State.count64_raised (s : State) (o : Nat) : (s.count64 o).raised = s.raised := by simp [State.count64]
@[simp] theorem State.count64_tsuDone (s : State) (o : Nat) : (s.count64 o).tsuDone = s.tsuDone := by simp [State.count64]
@[simp] theorem State.count64_cxps (s : State) (o : Nat) : (s.count64 o).cxps = s.cxps := by simp [State.count64]
@[simp] theorem State.count64_eths (s : State) (o : Nat) : (s.count64 o).eths = s.eths := by simp [State.count64]
@[simp] theorem State.count64_host (s : State) (o : Nat) : (s.count64 o).host = s.host := by simp [State.count64]
@[simp] theorem State.count64_sha (s : State) (o : Nat) : (s.count64 o).sha = s.sha := by simp [State.count64]
@[simp] theorem State.count64_mld (s : State) (o : Nat) : (s.count64 o).mld = s.mld := by simp [State.count64]
@[simp] theorem State.count64_otp (s : State) (o : Nat) : (s.count64 o).otp = s.otp := by simp [State.count64]
@[simp] theorem State.count64_flash (s : State) (o : Nat) : (s.count64 o).flash = s.flash := by simp [State.count64]
@[simp] theorem State.count64_boot (s : State) (o : Nat) : (s.count64 o).boot = s.boot := by simp [State.count64]
@[simp] theorem State.count64_signals (s : State) (o : Nat) : (s.count64 o).signals = s.signals := by simp [State.count64]
@[simp] theorem State.count64_mtime (s : State) (o : Nat) : (s.count64 o).mtime = s.mtime := by simp [State.count64]
@[simp] theorem State.count64_avs (s : State) (o : Nat) : (s.count64 o).avs = s.avs := by simp [State.count64]
@[simp] theorem State.count64_tandem (s : State) (o : Nat) : (s.count64 o).tandem = s.tandem := by simp [State.count64]
@[simp] theorem State.count64_fatal (s : State) (o : Nat) : (s.count64 o).fatal = s.fatal := by simp [State.count64]
@[simp] theorem State.count64_out (s : State) (o : Nat) : (s.count64 o).out = s.out := by simp [State.count64]
@[simp] theorem State.count64_now (s : State) (o : Nat) : (s.count64 o).now = s.now := by simp [State.count64]
@[simp] theorem State.count64_fresh (s : State) (o : Nat) : (s.count64 o).fresh = s.fresh := by simp [State.count64]
@[simp] theorem State.count64_pending (s : State) (o : Nat) : (s.count64 o).pending = s.pending := by simp [State.count64]

/-! writeFields -/

@[simp] theorem State.writeFields_latches (s : State) (o : Nat) (f : RegSpec) (v : Word32) : (s.writeFields o f v).latches = s.latches := by simp [State.writeFields]
@[simp] theorem State.writeFields_mem (s : State) (o : Nat) (f : RegSpec) (v : Word32) : (s.writeFields o f v).mem = s.mem := by simp [State.writeFields]
@[simp] theorem State.writeFields_codes (s : State) (o : Nat) (f : RegSpec) (v : Word32) : (s.writeFields o f v).codes = s.codes := by simp [State.writeFields]
@[simp] theorem State.writeFields_regions (s : State) (o : Nat) (f : RegSpec) (v : Word32) : (s.writeFields o f v).regions = s.regions := by simp [State.writeFields]
@[simp] theorem State.writeFields_queues (s : State) (o : Nat) (f : RegSpec) (v : Word32) : (s.writeFields o f v).queues = s.queues := by simp [State.writeFields]
@[simp] theorem State.writeFields_held (s : State) (o : Nat) (f : RegSpec) (v : Word32) : (s.writeFields o f v).held = s.held := by simp [State.writeFields]
@[simp] theorem State.writeFields_taken (s : State) (o : Nat) (f : RegSpec) (v : Word32) : (s.writeFields o f v).taken = s.taken := by simp [State.writeFields]
@[simp] theorem State.writeFields_scrubs (s : State) (o : Nat) (f : RegSpec) (v : Word32) : (s.writeFields o f v).scrubs = s.scrubs := by simp [State.writeFields]
@[simp] theorem State.writeFields_drams (s : State) (o : Nat) (f : RegSpec) (v : Word32) : (s.writeFields o f v).drams = s.drams := by simp [State.writeFields]
@[simp] theorem State.writeFields_pads (s : State) (o : Nat) (f : RegSpec) (v : Word32) : (s.writeFields o f v).pads = s.pads := by simp [State.writeFields]
@[simp] theorem State.writeFields_tsuDrive (s : State) (o : Nat) (f : RegSpec) (v : Word32) : (s.writeFields o f v).tsuDrive = s.tsuDrive := by simp [State.writeFields]
@[simp] theorem State.writeFields_p1Wait (s : State) (o : Nat) (f : RegSpec) (v : Word32) : (s.writeFields o f v).p1Wait = s.p1Wait := by simp [State.writeFields]
@[simp] theorem State.writeFields_marches (s : State) (o : Nat) (f : RegSpec) (v : Word32) : (s.writeFields o f v).marches = s.marches := by simp [State.writeFields]
@[simp] theorem State.writeFields_cadLate (s : State) (o : Nat) (f : RegSpec) (v : Word32) : (s.writeFields o f v).cadLate = s.cadLate := by simp [State.writeFields]
@[simp] theorem State.writeFields_lbIdx (s : State) (o : Nat) (f : RegSpec) (v : Word32) : (s.writeFields o f v).lbIdx = s.lbIdx := by simp [State.writeFields]
@[simp] theorem State.writeFields_lbSecond (s : State) (o : Nat) (f : RegSpec) (v : Word32) : (s.writeFields o f v).lbSecond = s.lbSecond := by simp [State.writeFields]
@[simp] theorem State.writeFields_lbHead (s : State) (o : Nat) (f : RegSpec) (v : Word32) : (s.writeFields o f v).lbHead = s.lbHead := by simp [State.writeFields]
@[simp] theorem State.writeFields_sched (s : State) (o : Nat) (f : RegSpec) (v : Word32) : (s.writeFields o f v).sched = s.sched := by simp [State.writeFields]
@[simp] theorem State.writeFields_cores (s : State) (o : Nat) (f : RegSpec) (v : Word32) : (s.writeFields o f v).cores = s.cores := by simp [State.writeFields]
@[simp] theorem State.writeFields_bist (s : State) (o : Nat) (f : RegSpec) (v : Word32) : (s.writeFields o f v).bist = s.bist := by simp [State.writeFields]
@[simp] theorem State.writeFields_noc (s : State) (o : Nat) (f : RegSpec) (v : Word32) : (s.writeFields o f v).noc = s.noc := by simp [State.writeFields]
@[simp] theorem State.writeFields_raised (s : State) (o : Nat) (f : RegSpec) (v : Word32) : (s.writeFields o f v).raised = s.raised := by simp [State.writeFields]
@[simp] theorem State.writeFields_tsuDone (s : State) (o : Nat) (f : RegSpec) (v : Word32) : (s.writeFields o f v).tsuDone = s.tsuDone := by simp [State.writeFields]
@[simp] theorem State.writeFields_cxps (s : State) (o : Nat) (f : RegSpec) (v : Word32) : (s.writeFields o f v).cxps = s.cxps := by simp [State.writeFields]
@[simp] theorem State.writeFields_eths (s : State) (o : Nat) (f : RegSpec) (v : Word32) : (s.writeFields o f v).eths = s.eths := by simp [State.writeFields]
@[simp] theorem State.writeFields_host (s : State) (o : Nat) (f : RegSpec) (v : Word32) : (s.writeFields o f v).host = s.host := by simp [State.writeFields]
@[simp] theorem State.writeFields_sha (s : State) (o : Nat) (f : RegSpec) (v : Word32) : (s.writeFields o f v).sha = s.sha := by simp [State.writeFields]
@[simp] theorem State.writeFields_mld (s : State) (o : Nat) (f : RegSpec) (v : Word32) : (s.writeFields o f v).mld = s.mld := by simp [State.writeFields]
@[simp] theorem State.writeFields_otp (s : State) (o : Nat) (f : RegSpec) (v : Word32) : (s.writeFields o f v).otp = s.otp := by simp [State.writeFields]
@[simp] theorem State.writeFields_flash (s : State) (o : Nat) (f : RegSpec) (v : Word32) : (s.writeFields o f v).flash = s.flash := by simp [State.writeFields]
@[simp] theorem State.writeFields_boot (s : State) (o : Nat) (f : RegSpec) (v : Word32) : (s.writeFields o f v).boot = s.boot := by simp [State.writeFields]
@[simp] theorem State.writeFields_signals (s : State) (o : Nat) (f : RegSpec) (v : Word32) : (s.writeFields o f v).signals = s.signals := by simp [State.writeFields]
@[simp] theorem State.writeFields_mtime (s : State) (o : Nat) (f : RegSpec) (v : Word32) : (s.writeFields o f v).mtime = s.mtime := by simp [State.writeFields]
@[simp] theorem State.writeFields_avs (s : State) (o : Nat) (f : RegSpec) (v : Word32) : (s.writeFields o f v).avs = s.avs := by simp [State.writeFields]
@[simp] theorem State.writeFields_tandem (s : State) (o : Nat) (f : RegSpec) (v : Word32) : (s.writeFields o f v).tandem = s.tandem := by simp [State.writeFields]
@[simp] theorem State.writeFields_fatal (s : State) (o : Nat) (f : RegSpec) (v : Word32) : (s.writeFields o f v).fatal = s.fatal := by simp [State.writeFields]
@[simp] theorem State.writeFields_out (s : State) (o : Nat) (f : RegSpec) (v : Word32) : (s.writeFields o f v).out = s.out := by simp [State.writeFields]
@[simp] theorem State.writeFields_now (s : State) (o : Nat) (f : RegSpec) (v : Word32) : (s.writeFields o f v).now = s.now := by simp [State.writeFields]
@[simp] theorem State.writeFields_fresh (s : State) (o : Nat) (f : RegSpec) (v : Word32) : (s.writeFields o f v).fresh = s.fresh := by simp [State.writeFields]
@[simp] theorem State.writeFields_pending (s : State) (o : Nat) (f : RegSpec) (v : Word32) : (s.writeFields o f v).pending = s.pending := by simp [State.writeFields]

/-! raise -/

@[simp] theorem State.raise_regs (s : State) (n : Nat) : (s.raise n).regs = s.regs := rfl
@[simp] theorem State.raise_latches (s : State) (n : Nat) : (s.raise n).latches = s.latches := rfl
@[simp] theorem State.raise_mem (s : State) (n : Nat) : (s.raise n).mem = s.mem := rfl
@[simp] theorem State.raise_codes (s : State) (n : Nat) : (s.raise n).codes = s.codes := rfl
@[simp] theorem State.raise_regions (s : State) (n : Nat) : (s.raise n).regions = s.regions := rfl
@[simp] theorem State.raise_queues (s : State) (n : Nat) : (s.raise n).queues = s.queues := rfl
@[simp] theorem State.raise_held (s : State) (n : Nat) : (s.raise n).held = s.held := rfl
@[simp] theorem State.raise_taken (s : State) (n : Nat) : (s.raise n).taken = s.taken := rfl
@[simp] theorem State.raise_scrubs (s : State) (n : Nat) : (s.raise n).scrubs = s.scrubs := rfl
@[simp] theorem State.raise_drams (s : State) (n : Nat) : (s.raise n).drams = s.drams := rfl
@[simp] theorem State.raise_pads (s : State) (n : Nat) : (s.raise n).pads = s.pads := rfl
@[simp] theorem State.raise_tsuDrive (s : State) (n : Nat) : (s.raise n).tsuDrive = s.tsuDrive := rfl
@[simp] theorem State.raise_p1Wait (s : State) (n : Nat) : (s.raise n).p1Wait = s.p1Wait := rfl
@[simp] theorem State.raise_marches (s : State) (n : Nat) : (s.raise n).marches = s.marches := rfl
@[simp] theorem State.raise_cadLate (s : State) (n : Nat) : (s.raise n).cadLate = s.cadLate := rfl
@[simp] theorem State.raise_lbIdx (s : State) (n : Nat) : (s.raise n).lbIdx = s.lbIdx := rfl
@[simp] theorem State.raise_lbSecond (s : State) (n : Nat) : (s.raise n).lbSecond = s.lbSecond := rfl
@[simp] theorem State.raise_lbHead (s : State) (n : Nat) : (s.raise n).lbHead = s.lbHead := rfl
@[simp] theorem State.raise_sched (s : State) (n : Nat) : (s.raise n).sched = s.sched := rfl
@[simp] theorem State.raise_cores (s : State) (n : Nat) : (s.raise n).cores = s.cores := rfl
@[simp] theorem State.raise_bist (s : State) (n : Nat) : (s.raise n).bist = s.bist := rfl
@[simp] theorem State.raise_noc (s : State) (n : Nat) : (s.raise n).noc = s.noc := rfl
@[simp] theorem State.raise_tsuDone (s : State) (n : Nat) : (s.raise n).tsuDone = s.tsuDone := rfl
@[simp] theorem State.raise_cxps (s : State) (n : Nat) : (s.raise n).cxps = s.cxps := rfl
@[simp] theorem State.raise_eths (s : State) (n : Nat) : (s.raise n).eths = s.eths := rfl
@[simp] theorem State.raise_host (s : State) (n : Nat) : (s.raise n).host = s.host := rfl
@[simp] theorem State.raise_sha (s : State) (n : Nat) : (s.raise n).sha = s.sha := rfl
@[simp] theorem State.raise_mld (s : State) (n : Nat) : (s.raise n).mld = s.mld := rfl
@[simp] theorem State.raise_otp (s : State) (n : Nat) : (s.raise n).otp = s.otp := rfl
@[simp] theorem State.raise_flash (s : State) (n : Nat) : (s.raise n).flash = s.flash := rfl
@[simp] theorem State.raise_boot (s : State) (n : Nat) : (s.raise n).boot = s.boot := rfl
@[simp] theorem State.raise_signals (s : State) (n : Nat) : (s.raise n).signals = s.signals := rfl
@[simp] theorem State.raise_mtime (s : State) (n : Nat) : (s.raise n).mtime = s.mtime := rfl
@[simp] theorem State.raise_avs (s : State) (n : Nat) : (s.raise n).avs = s.avs := rfl
@[simp] theorem State.raise_tandem (s : State) (n : Nat) : (s.raise n).tandem = s.tandem := rfl
@[simp] theorem State.raise_fatal (s : State) (n : Nat) : (s.raise n).fatal = s.fatal := rfl
@[simp] theorem State.raise_out (s : State) (n : Nat) : (s.raise n).out = s.out := rfl
@[simp] theorem State.raise_now (s : State) (n : Nat) : (s.raise n).now = s.now := rfl
@[simp] theorem State.raise_fresh (s : State) (n : Nat) : (s.raise n).fresh = s.fresh := rfl
@[simp] theorem State.raise_pending (s : State) (n : Nat) : (s.raise n).pending = s.pending := rfl

/-! raiseIf -/

@[simp] theorem State.raiseIf_regs (s : State) (b : Bool) (n : Nat) : (s.raiseIf b n).regs = s.regs := by cases b <;> rfl
@[simp] theorem State.raiseIf_latches (s : State) (b : Bool) (n : Nat) : (s.raiseIf b n).latches = s.latches := by cases b <;> rfl
@[simp] theorem State.raiseIf_mem (s : State) (b : Bool) (n : Nat) : (s.raiseIf b n).mem = s.mem := by cases b <;> rfl
@[simp] theorem State.raiseIf_codes (s : State) (b : Bool) (n : Nat) : (s.raiseIf b n).codes = s.codes := by cases b <;> rfl
@[simp] theorem State.raiseIf_regions (s : State) (b : Bool) (n : Nat) : (s.raiseIf b n).regions = s.regions := by cases b <;> rfl
@[simp] theorem State.raiseIf_queues (s : State) (b : Bool) (n : Nat) : (s.raiseIf b n).queues = s.queues := by cases b <;> rfl
@[simp] theorem State.raiseIf_held (s : State) (b : Bool) (n : Nat) : (s.raiseIf b n).held = s.held := by cases b <;> rfl
@[simp] theorem State.raiseIf_taken (s : State) (b : Bool) (n : Nat) : (s.raiseIf b n).taken = s.taken := by cases b <;> rfl
@[simp] theorem State.raiseIf_scrubs (s : State) (b : Bool) (n : Nat) : (s.raiseIf b n).scrubs = s.scrubs := by cases b <;> rfl
@[simp] theorem State.raiseIf_drams (s : State) (b : Bool) (n : Nat) : (s.raiseIf b n).drams = s.drams := by cases b <;> rfl
@[simp] theorem State.raiseIf_pads (s : State) (b : Bool) (n : Nat) : (s.raiseIf b n).pads = s.pads := by cases b <;> rfl
@[simp] theorem State.raiseIf_tsuDrive (s : State) (b : Bool) (n : Nat) : (s.raiseIf b n).tsuDrive = s.tsuDrive := by cases b <;> rfl
@[simp] theorem State.raiseIf_p1Wait (s : State) (b : Bool) (n : Nat) : (s.raiseIf b n).p1Wait = s.p1Wait := by cases b <;> rfl
@[simp] theorem State.raiseIf_marches (s : State) (b : Bool) (n : Nat) : (s.raiseIf b n).marches = s.marches := by cases b <;> rfl
@[simp] theorem State.raiseIf_cadLate (s : State) (b : Bool) (n : Nat) : (s.raiseIf b n).cadLate = s.cadLate := by cases b <;> rfl
@[simp] theorem State.raiseIf_lbIdx (s : State) (b : Bool) (n : Nat) : (s.raiseIf b n).lbIdx = s.lbIdx := by cases b <;> rfl
@[simp] theorem State.raiseIf_lbSecond (s : State) (b : Bool) (n : Nat) : (s.raiseIf b n).lbSecond = s.lbSecond := by cases b <;> rfl
@[simp] theorem State.raiseIf_lbHead (s : State) (b : Bool) (n : Nat) : (s.raiseIf b n).lbHead = s.lbHead := by cases b <;> rfl
@[simp] theorem State.raiseIf_sched (s : State) (b : Bool) (n : Nat) : (s.raiseIf b n).sched = s.sched := by cases b <;> rfl
@[simp] theorem State.raiseIf_cores (s : State) (b : Bool) (n : Nat) : (s.raiseIf b n).cores = s.cores := by cases b <;> rfl
@[simp] theorem State.raiseIf_bist (s : State) (b : Bool) (n : Nat) : (s.raiseIf b n).bist = s.bist := by cases b <;> rfl
@[simp] theorem State.raiseIf_noc (s : State) (b : Bool) (n : Nat) : (s.raiseIf b n).noc = s.noc := by cases b <;> rfl
@[simp] theorem State.raiseIf_tsuDone (s : State) (b : Bool) (n : Nat) : (s.raiseIf b n).tsuDone = s.tsuDone := by cases b <;> rfl
@[simp] theorem State.raiseIf_cxps (s : State) (b : Bool) (n : Nat) : (s.raiseIf b n).cxps = s.cxps := by cases b <;> rfl
@[simp] theorem State.raiseIf_eths (s : State) (b : Bool) (n : Nat) : (s.raiseIf b n).eths = s.eths := by cases b <;> rfl
@[simp] theorem State.raiseIf_host (s : State) (b : Bool) (n : Nat) : (s.raiseIf b n).host = s.host := by cases b <;> rfl
@[simp] theorem State.raiseIf_sha (s : State) (b : Bool) (n : Nat) : (s.raiseIf b n).sha = s.sha := by cases b <;> rfl
@[simp] theorem State.raiseIf_mld (s : State) (b : Bool) (n : Nat) : (s.raiseIf b n).mld = s.mld := by cases b <;> rfl
@[simp] theorem State.raiseIf_otp (s : State) (b : Bool) (n : Nat) : (s.raiseIf b n).otp = s.otp := by cases b <;> rfl
@[simp] theorem State.raiseIf_flash (s : State) (b : Bool) (n : Nat) : (s.raiseIf b n).flash = s.flash := by cases b <;> rfl
@[simp] theorem State.raiseIf_boot (s : State) (b : Bool) (n : Nat) : (s.raiseIf b n).boot = s.boot := by cases b <;> rfl
@[simp] theorem State.raiseIf_signals (s : State) (b : Bool) (n : Nat) : (s.raiseIf b n).signals = s.signals := by cases b <;> rfl
@[simp] theorem State.raiseIf_mtime (s : State) (b : Bool) (n : Nat) : (s.raiseIf b n).mtime = s.mtime := by cases b <;> rfl
@[simp] theorem State.raiseIf_avs (s : State) (b : Bool) (n : Nat) : (s.raiseIf b n).avs = s.avs := by cases b <;> rfl
@[simp] theorem State.raiseIf_tandem (s : State) (b : Bool) (n : Nat) : (s.raiseIf b n).tandem = s.tandem := by cases b <;> rfl
@[simp] theorem State.raiseIf_fatal (s : State) (b : Bool) (n : Nat) : (s.raiseIf b n).fatal = s.fatal := by cases b <;> rfl
@[simp] theorem State.raiseIf_out (s : State) (b : Bool) (n : Nat) : (s.raiseIf b n).out = s.out := by cases b <;> rfl
@[simp] theorem State.raiseIf_now (s : State) (b : Bool) (n : Nat) : (s.raiseIf b n).now = s.now := by cases b <;> rfl
@[simp] theorem State.raiseIf_fresh (s : State) (b : Bool) (n : Nat) : (s.raiseIf b n).fresh = s.fresh := by cases b <;> rfl
@[simp] theorem State.raiseIf_pending (s : State) (b : Bool) (n : Nat) : (s.raiseIf b n).pending = s.pending := by cases b <;> rfl

/-! event -/

@[simp] theorem State.event_latches (s : State) (o k en src : Nat) : (s.event o k en src).latches = s.latches := by simp [State.event]
@[simp] theorem State.event_mem (s : State) (o k en src : Nat) : (s.event o k en src).mem = s.mem := by simp [State.event]
@[simp] theorem State.event_codes (s : State) (o k en src : Nat) : (s.event o k en src).codes = s.codes := by simp [State.event]
@[simp] theorem State.event_regions (s : State) (o k en src : Nat) : (s.event o k en src).regions = s.regions := by simp [State.event]
@[simp] theorem State.event_queues (s : State) (o k en src : Nat) : (s.event o k en src).queues = s.queues := by simp [State.event]
@[simp] theorem State.event_held (s : State) (o k en src : Nat) : (s.event o k en src).held = s.held := by simp [State.event]
@[simp] theorem State.event_taken (s : State) (o k en src : Nat) : (s.event o k en src).taken = s.taken := by simp [State.event]
@[simp] theorem State.event_scrubs (s : State) (o k en src : Nat) : (s.event o k en src).scrubs = s.scrubs := by simp [State.event]
@[simp] theorem State.event_drams (s : State) (o k en src : Nat) : (s.event o k en src).drams = s.drams := by simp [State.event]
@[simp] theorem State.event_pads (s : State) (o k en src : Nat) : (s.event o k en src).pads = s.pads := by simp [State.event]
@[simp] theorem State.event_tsuDrive (s : State) (o k en src : Nat) : (s.event o k en src).tsuDrive = s.tsuDrive := by simp [State.event]
@[simp] theorem State.event_p1Wait (s : State) (o k en src : Nat) : (s.event o k en src).p1Wait = s.p1Wait := by simp [State.event]
@[simp] theorem State.event_marches (s : State) (o k en src : Nat) : (s.event o k en src).marches = s.marches := by simp [State.event]
@[simp] theorem State.event_cadLate (s : State) (o k en src : Nat) : (s.event o k en src).cadLate = s.cadLate := by simp [State.event]
@[simp] theorem State.event_lbIdx (s : State) (o k en src : Nat) : (s.event o k en src).lbIdx = s.lbIdx := by simp [State.event]
@[simp] theorem State.event_lbSecond (s : State) (o k en src : Nat) : (s.event o k en src).lbSecond = s.lbSecond := by simp [State.event]
@[simp] theorem State.event_lbHead (s : State) (o k en src : Nat) : (s.event o k en src).lbHead = s.lbHead := by simp [State.event]
@[simp] theorem State.event_sched (s : State) (o k en src : Nat) : (s.event o k en src).sched = s.sched := by simp [State.event]
@[simp] theorem State.event_cores (s : State) (o k en src : Nat) : (s.event o k en src).cores = s.cores := by simp [State.event]
@[simp] theorem State.event_bist (s : State) (o k en src : Nat) : (s.event o k en src).bist = s.bist := by simp [State.event]
@[simp] theorem State.event_noc (s : State) (o k en src : Nat) : (s.event o k en src).noc = s.noc := by simp [State.event]
@[simp] theorem State.event_tsuDone (s : State) (o k en src : Nat) : (s.event o k en src).tsuDone = s.tsuDone := by simp [State.event]
@[simp] theorem State.event_cxps (s : State) (o k en src : Nat) : (s.event o k en src).cxps = s.cxps := by simp [State.event]
@[simp] theorem State.event_eths (s : State) (o k en src : Nat) : (s.event o k en src).eths = s.eths := by simp [State.event]
@[simp] theorem State.event_host (s : State) (o k en src : Nat) : (s.event o k en src).host = s.host := by simp [State.event]
@[simp] theorem State.event_sha (s : State) (o k en src : Nat) : (s.event o k en src).sha = s.sha := by simp [State.event]
@[simp] theorem State.event_mld (s : State) (o k en src : Nat) : (s.event o k en src).mld = s.mld := by simp [State.event]
@[simp] theorem State.event_otp (s : State) (o k en src : Nat) : (s.event o k en src).otp = s.otp := by simp [State.event]
@[simp] theorem State.event_flash (s : State) (o k en src : Nat) : (s.event o k en src).flash = s.flash := by simp [State.event]
@[simp] theorem State.event_boot (s : State) (o k en src : Nat) : (s.event o k en src).boot = s.boot := by simp [State.event]
@[simp] theorem State.event_signals (s : State) (o k en src : Nat) : (s.event o k en src).signals = s.signals := by simp [State.event]
@[simp] theorem State.event_mtime (s : State) (o k en src : Nat) : (s.event o k en src).mtime = s.mtime := by simp [State.event]
@[simp] theorem State.event_avs (s : State) (o k en src : Nat) : (s.event o k en src).avs = s.avs := by simp [State.event]
@[simp] theorem State.event_tandem (s : State) (o k en src : Nat) : (s.event o k en src).tandem = s.tandem := by simp [State.event]
@[simp] theorem State.event_fatal (s : State) (o k en src : Nat) : (s.event o k en src).fatal = s.fatal := by simp [State.event]
@[simp] theorem State.event_out (s : State) (o k en src : Nat) : (s.event o k en src).out = s.out := by simp [State.event]
@[simp] theorem State.event_now (s : State) (o k en src : Nat) : (s.event o k en src).now = s.now := by simp [State.event]
@[simp] theorem State.event_fresh (s : State) (o k en src : Nat) : (s.event o k en src).fresh = s.fresh := by simp [State.event]
@[simp] theorem State.event_pending (s : State) (o k en src : Nat) : (s.event o k en src).pending = s.pending := by simp [State.event]

/-! setRegion -/

@[simp] theorem State.setRegion_regs (s : State) (r : Nat) (x : Region) : (s.setRegion r x).regs = s.regs := rfl
@[simp] theorem State.setRegion_latches (s : State) (r : Nat) (x : Region) : (s.setRegion r x).latches = s.latches := rfl
@[simp] theorem State.setRegion_mem (s : State) (r : Nat) (x : Region) : (s.setRegion r x).mem = s.mem := rfl
@[simp] theorem State.setRegion_codes (s : State) (r : Nat) (x : Region) : (s.setRegion r x).codes = s.codes := rfl
@[simp] theorem State.setRegion_queues (s : State) (r : Nat) (x : Region) : (s.setRegion r x).queues = s.queues := rfl
@[simp] theorem State.setRegion_held (s : State) (r : Nat) (x : Region) : (s.setRegion r x).held = s.held := rfl
@[simp] theorem State.setRegion_taken (s : State) (r : Nat) (x : Region) : (s.setRegion r x).taken = s.taken := rfl
@[simp] theorem State.setRegion_scrubs (s : State) (r : Nat) (x : Region) : (s.setRegion r x).scrubs = s.scrubs := rfl
@[simp] theorem State.setRegion_drams (s : State) (r : Nat) (x : Region) : (s.setRegion r x).drams = s.drams := rfl
@[simp] theorem State.setRegion_pads (s : State) (r : Nat) (x : Region) : (s.setRegion r x).pads = s.pads := rfl
@[simp] theorem State.setRegion_tsuDrive (s : State) (r : Nat) (x : Region) : (s.setRegion r x).tsuDrive = s.tsuDrive := rfl
@[simp] theorem State.setRegion_p1Wait (s : State) (r : Nat) (x : Region) : (s.setRegion r x).p1Wait = s.p1Wait := rfl
@[simp] theorem State.setRegion_marches (s : State) (r : Nat) (x : Region) : (s.setRegion r x).marches = s.marches := rfl
@[simp] theorem State.setRegion_cadLate (s : State) (r : Nat) (x : Region) : (s.setRegion r x).cadLate = s.cadLate := rfl
@[simp] theorem State.setRegion_lbIdx (s : State) (r : Nat) (x : Region) : (s.setRegion r x).lbIdx = s.lbIdx := rfl
@[simp] theorem State.setRegion_lbSecond (s : State) (r : Nat) (x : Region) : (s.setRegion r x).lbSecond = s.lbSecond := rfl
@[simp] theorem State.setRegion_lbHead (s : State) (r : Nat) (x : Region) : (s.setRegion r x).lbHead = s.lbHead := rfl
@[simp] theorem State.setRegion_sched (s : State) (r : Nat) (x : Region) : (s.setRegion r x).sched = s.sched := rfl
@[simp] theorem State.setRegion_cores (s : State) (r : Nat) (x : Region) : (s.setRegion r x).cores = s.cores := rfl
@[simp] theorem State.setRegion_bist (s : State) (r : Nat) (x : Region) : (s.setRegion r x).bist = s.bist := rfl
@[simp] theorem State.setRegion_noc (s : State) (r : Nat) (x : Region) : (s.setRegion r x).noc = s.noc := rfl
@[simp] theorem State.setRegion_raised (s : State) (r : Nat) (x : Region) : (s.setRegion r x).raised = s.raised := rfl
@[simp] theorem State.setRegion_tsuDone (s : State) (r : Nat) (x : Region) : (s.setRegion r x).tsuDone = s.tsuDone := rfl
@[simp] theorem State.setRegion_cxps (s : State) (r : Nat) (x : Region) : (s.setRegion r x).cxps = s.cxps := rfl
@[simp] theorem State.setRegion_eths (s : State) (r : Nat) (x : Region) : (s.setRegion r x).eths = s.eths := rfl
@[simp] theorem State.setRegion_host (s : State) (r : Nat) (x : Region) : (s.setRegion r x).host = s.host := rfl
@[simp] theorem State.setRegion_sha (s : State) (r : Nat) (x : Region) : (s.setRegion r x).sha = s.sha := rfl
@[simp] theorem State.setRegion_mld (s : State) (r : Nat) (x : Region) : (s.setRegion r x).mld = s.mld := rfl
@[simp] theorem State.setRegion_otp (s : State) (r : Nat) (x : Region) : (s.setRegion r x).otp = s.otp := rfl
@[simp] theorem State.setRegion_flash (s : State) (r : Nat) (x : Region) : (s.setRegion r x).flash = s.flash := rfl
@[simp] theorem State.setRegion_boot (s : State) (r : Nat) (x : Region) : (s.setRegion r x).boot = s.boot := rfl
@[simp] theorem State.setRegion_signals (s : State) (r : Nat) (x : Region) : (s.setRegion r x).signals = s.signals := rfl
@[simp] theorem State.setRegion_mtime (s : State) (r : Nat) (x : Region) : (s.setRegion r x).mtime = s.mtime := rfl
@[simp] theorem State.setRegion_avs (s : State) (r : Nat) (x : Region) : (s.setRegion r x).avs = s.avs := rfl
@[simp] theorem State.setRegion_tandem (s : State) (r : Nat) (x : Region) : (s.setRegion r x).tandem = s.tandem := rfl
@[simp] theorem State.setRegion_fatal (s : State) (r : Nat) (x : Region) : (s.setRegion r x).fatal = s.fatal := rfl
@[simp] theorem State.setRegion_out (s : State) (r : Nat) (x : Region) : (s.setRegion r x).out = s.out := rfl
@[simp] theorem State.setRegion_now (s : State) (r : Nat) (x : Region) : (s.setRegion r x).now = s.now := rfl
@[simp] theorem State.setRegion_fresh (s : State) (r : Nat) (x : Region) : (s.setRegion r x).fresh = s.fresh := rfl
@[simp] theorem State.setRegion_pending (s : State) (r : Nat) (x : Region) : (s.setRegion r x).pending = s.pending := rfl

/-! onRegion -/

@[simp] theorem State.onRegion_regs (s : State) (r : Nat) (f : Region → Region) : (s.onRegion r f).regs = s.regs := by simp [State.onRegion]
@[simp] theorem State.onRegion_latches (s : State) (r : Nat) (f : Region → Region) : (s.onRegion r f).latches = s.latches := by simp [State.onRegion]
@[simp] theorem State.onRegion_mem (s : State) (r : Nat) (f : Region → Region) : (s.onRegion r f).mem = s.mem := by simp [State.onRegion]
@[simp] theorem State.onRegion_codes (s : State) (r : Nat) (f : Region → Region) : (s.onRegion r f).codes = s.codes := by simp [State.onRegion]
@[simp] theorem State.onRegion_queues (s : State) (r : Nat) (f : Region → Region) : (s.onRegion r f).queues = s.queues := by simp [State.onRegion]
@[simp] theorem State.onRegion_held (s : State) (r : Nat) (f : Region → Region) : (s.onRegion r f).held = s.held := by simp [State.onRegion]
@[simp] theorem State.onRegion_taken (s : State) (r : Nat) (f : Region → Region) : (s.onRegion r f).taken = s.taken := by simp [State.onRegion]
@[simp] theorem State.onRegion_scrubs (s : State) (r : Nat) (f : Region → Region) : (s.onRegion r f).scrubs = s.scrubs := by simp [State.onRegion]
@[simp] theorem State.onRegion_drams (s : State) (r : Nat) (f : Region → Region) : (s.onRegion r f).drams = s.drams := by simp [State.onRegion]
@[simp] theorem State.onRegion_pads (s : State) (r : Nat) (f : Region → Region) : (s.onRegion r f).pads = s.pads := by simp [State.onRegion]
@[simp] theorem State.onRegion_tsuDrive (s : State) (r : Nat) (f : Region → Region) : (s.onRegion r f).tsuDrive = s.tsuDrive := by simp [State.onRegion]
@[simp] theorem State.onRegion_p1Wait (s : State) (r : Nat) (f : Region → Region) : (s.onRegion r f).p1Wait = s.p1Wait := by simp [State.onRegion]
@[simp] theorem State.onRegion_marches (s : State) (r : Nat) (f : Region → Region) : (s.onRegion r f).marches = s.marches := by simp [State.onRegion]
@[simp] theorem State.onRegion_cadLate (s : State) (r : Nat) (f : Region → Region) : (s.onRegion r f).cadLate = s.cadLate := by simp [State.onRegion]
@[simp] theorem State.onRegion_lbIdx (s : State) (r : Nat) (f : Region → Region) : (s.onRegion r f).lbIdx = s.lbIdx := by simp [State.onRegion]
@[simp] theorem State.onRegion_lbSecond (s : State) (r : Nat) (f : Region → Region) : (s.onRegion r f).lbSecond = s.lbSecond := by simp [State.onRegion]
@[simp] theorem State.onRegion_lbHead (s : State) (r : Nat) (f : Region → Region) : (s.onRegion r f).lbHead = s.lbHead := by simp [State.onRegion]
@[simp] theorem State.onRegion_sched (s : State) (r : Nat) (f : Region → Region) : (s.onRegion r f).sched = s.sched := by simp [State.onRegion]
@[simp] theorem State.onRegion_cores (s : State) (r : Nat) (f : Region → Region) : (s.onRegion r f).cores = s.cores := by simp [State.onRegion]
@[simp] theorem State.onRegion_bist (s : State) (r : Nat) (f : Region → Region) : (s.onRegion r f).bist = s.bist := by simp [State.onRegion]
@[simp] theorem State.onRegion_noc (s : State) (r : Nat) (f : Region → Region) : (s.onRegion r f).noc = s.noc := by simp [State.onRegion]
@[simp] theorem State.onRegion_raised (s : State) (r : Nat) (f : Region → Region) : (s.onRegion r f).raised = s.raised := by simp [State.onRegion]
@[simp] theorem State.onRegion_tsuDone (s : State) (r : Nat) (f : Region → Region) : (s.onRegion r f).tsuDone = s.tsuDone := by simp [State.onRegion]
@[simp] theorem State.onRegion_cxps (s : State) (r : Nat) (f : Region → Region) : (s.onRegion r f).cxps = s.cxps := by simp [State.onRegion]
@[simp] theorem State.onRegion_eths (s : State) (r : Nat) (f : Region → Region) : (s.onRegion r f).eths = s.eths := by simp [State.onRegion]
@[simp] theorem State.onRegion_host (s : State) (r : Nat) (f : Region → Region) : (s.onRegion r f).host = s.host := by simp [State.onRegion]
@[simp] theorem State.onRegion_sha (s : State) (r : Nat) (f : Region → Region) : (s.onRegion r f).sha = s.sha := by simp [State.onRegion]
@[simp] theorem State.onRegion_mld (s : State) (r : Nat) (f : Region → Region) : (s.onRegion r f).mld = s.mld := by simp [State.onRegion]
@[simp] theorem State.onRegion_otp (s : State) (r : Nat) (f : Region → Region) : (s.onRegion r f).otp = s.otp := by simp [State.onRegion]
@[simp] theorem State.onRegion_flash (s : State) (r : Nat) (f : Region → Region) : (s.onRegion r f).flash = s.flash := by simp [State.onRegion]
@[simp] theorem State.onRegion_boot (s : State) (r : Nat) (f : Region → Region) : (s.onRegion r f).boot = s.boot := by simp [State.onRegion]
@[simp] theorem State.onRegion_signals (s : State) (r : Nat) (f : Region → Region) : (s.onRegion r f).signals = s.signals := by simp [State.onRegion]
@[simp] theorem State.onRegion_mtime (s : State) (r : Nat) (f : Region → Region) : (s.onRegion r f).mtime = s.mtime := by simp [State.onRegion]
@[simp] theorem State.onRegion_avs (s : State) (r : Nat) (f : Region → Region) : (s.onRegion r f).avs = s.avs := by simp [State.onRegion]
@[simp] theorem State.onRegion_tandem (s : State) (r : Nat) (f : Region → Region) : (s.onRegion r f).tandem = s.tandem := by simp [State.onRegion]
@[simp] theorem State.onRegion_fatal (s : State) (r : Nat) (f : Region → Region) : (s.onRegion r f).fatal = s.fatal := by simp [State.onRegion]
@[simp] theorem State.onRegion_out (s : State) (r : Nat) (f : Region → Region) : (s.onRegion r f).out = s.out := by simp [State.onRegion]
@[simp] theorem State.onRegion_now (s : State) (r : Nat) (f : Region → Region) : (s.onRegion r f).now = s.now := by simp [State.onRegion]
@[simp] theorem State.onRegion_fresh (s : State) (r : Nat) (f : Region → Region) : (s.onRegion r f).fresh = s.fresh := by simp [State.onRegion]
@[simp] theorem State.onRegion_pending (s : State) (r : Nat) (f : Region → Region) : (s.onRegion r f).pending = s.pending := by simp [State.onRegion]

/-! setQueue -/

@[simp] theorem State.setQueue_regs (s : State) (q : Nat) (x : Queue) : (s.setQueue q x).regs = s.regs := rfl
@[simp] theorem State.setQueue_latches (s : State) (q : Nat) (x : Queue) : (s.setQueue q x).latches = s.latches := rfl
@[simp] theorem State.setQueue_mem (s : State) (q : Nat) (x : Queue) : (s.setQueue q x).mem = s.mem := rfl
@[simp] theorem State.setQueue_codes (s : State) (q : Nat) (x : Queue) : (s.setQueue q x).codes = s.codes := rfl
@[simp] theorem State.setQueue_regions (s : State) (q : Nat) (x : Queue) : (s.setQueue q x).regions = s.regions := rfl
@[simp] theorem State.setQueue_held (s : State) (q : Nat) (x : Queue) : (s.setQueue q x).held = s.held := rfl
@[simp] theorem State.setQueue_taken (s : State) (q : Nat) (x : Queue) : (s.setQueue q x).taken = s.taken := rfl
@[simp] theorem State.setQueue_scrubs (s : State) (q : Nat) (x : Queue) : (s.setQueue q x).scrubs = s.scrubs := rfl
@[simp] theorem State.setQueue_drams (s : State) (q : Nat) (x : Queue) : (s.setQueue q x).drams = s.drams := rfl
@[simp] theorem State.setQueue_pads (s : State) (q : Nat) (x : Queue) : (s.setQueue q x).pads = s.pads := rfl
@[simp] theorem State.setQueue_tsuDrive (s : State) (q : Nat) (x : Queue) : (s.setQueue q x).tsuDrive = s.tsuDrive := rfl
@[simp] theorem State.setQueue_p1Wait (s : State) (q : Nat) (x : Queue) : (s.setQueue q x).p1Wait = s.p1Wait := rfl
@[simp] theorem State.setQueue_marches (s : State) (q : Nat) (x : Queue) : (s.setQueue q x).marches = s.marches := rfl
@[simp] theorem State.setQueue_cadLate (s : State) (q : Nat) (x : Queue) : (s.setQueue q x).cadLate = s.cadLate := rfl
@[simp] theorem State.setQueue_lbIdx (s : State) (q : Nat) (x : Queue) : (s.setQueue q x).lbIdx = s.lbIdx := rfl
@[simp] theorem State.setQueue_lbSecond (s : State) (q : Nat) (x : Queue) : (s.setQueue q x).lbSecond = s.lbSecond := rfl
@[simp] theorem State.setQueue_lbHead (s : State) (q : Nat) (x : Queue) : (s.setQueue q x).lbHead = s.lbHead := rfl
@[simp] theorem State.setQueue_sched (s : State) (q : Nat) (x : Queue) : (s.setQueue q x).sched = s.sched := rfl
@[simp] theorem State.setQueue_cores (s : State) (q : Nat) (x : Queue) : (s.setQueue q x).cores = s.cores := rfl
@[simp] theorem State.setQueue_bist (s : State) (q : Nat) (x : Queue) : (s.setQueue q x).bist = s.bist := rfl
@[simp] theorem State.setQueue_noc (s : State) (q : Nat) (x : Queue) : (s.setQueue q x).noc = s.noc := rfl
@[simp] theorem State.setQueue_raised (s : State) (q : Nat) (x : Queue) : (s.setQueue q x).raised = s.raised := rfl
@[simp] theorem State.setQueue_tsuDone (s : State) (q : Nat) (x : Queue) : (s.setQueue q x).tsuDone = s.tsuDone := rfl
@[simp] theorem State.setQueue_cxps (s : State) (q : Nat) (x : Queue) : (s.setQueue q x).cxps = s.cxps := rfl
@[simp] theorem State.setQueue_eths (s : State) (q : Nat) (x : Queue) : (s.setQueue q x).eths = s.eths := rfl
@[simp] theorem State.setQueue_host (s : State) (q : Nat) (x : Queue) : (s.setQueue q x).host = s.host := rfl
@[simp] theorem State.setQueue_sha (s : State) (q : Nat) (x : Queue) : (s.setQueue q x).sha = s.sha := rfl
@[simp] theorem State.setQueue_mld (s : State) (q : Nat) (x : Queue) : (s.setQueue q x).mld = s.mld := rfl
@[simp] theorem State.setQueue_otp (s : State) (q : Nat) (x : Queue) : (s.setQueue q x).otp = s.otp := rfl
@[simp] theorem State.setQueue_flash (s : State) (q : Nat) (x : Queue) : (s.setQueue q x).flash = s.flash := rfl
@[simp] theorem State.setQueue_boot (s : State) (q : Nat) (x : Queue) : (s.setQueue q x).boot = s.boot := rfl
@[simp] theorem State.setQueue_signals (s : State) (q : Nat) (x : Queue) : (s.setQueue q x).signals = s.signals := rfl
@[simp] theorem State.setQueue_mtime (s : State) (q : Nat) (x : Queue) : (s.setQueue q x).mtime = s.mtime := rfl
@[simp] theorem State.setQueue_avs (s : State) (q : Nat) (x : Queue) : (s.setQueue q x).avs = s.avs := rfl
@[simp] theorem State.setQueue_tandem (s : State) (q : Nat) (x : Queue) : (s.setQueue q x).tandem = s.tandem := rfl
@[simp] theorem State.setQueue_fatal (s : State) (q : Nat) (x : Queue) : (s.setQueue q x).fatal = s.fatal := rfl
@[simp] theorem State.setQueue_out (s : State) (q : Nat) (x : Queue) : (s.setQueue q x).out = s.out := rfl
@[simp] theorem State.setQueue_now (s : State) (q : Nat) (x : Queue) : (s.setQueue q x).now = s.now := rfl
@[simp] theorem State.setQueue_fresh (s : State) (q : Nat) (x : Queue) : (s.setQueue q x).fresh = s.fresh := rfl
@[simp] theorem State.setQueue_pending (s : State) (q : Nat) (x : Queue) : (s.setQueue q x).pending = s.pending := rfl

/-! onQueue -/

@[simp] theorem State.onQueue_regs (s : State) (q : Nat) (f : Queue → Queue) : (s.onQueue q f).regs = s.regs := by simp [State.onQueue]
@[simp] theorem State.onQueue_latches (s : State) (q : Nat) (f : Queue → Queue) : (s.onQueue q f).latches = s.latches := by simp [State.onQueue]
@[simp] theorem State.onQueue_mem (s : State) (q : Nat) (f : Queue → Queue) : (s.onQueue q f).mem = s.mem := by simp [State.onQueue]
@[simp] theorem State.onQueue_codes (s : State) (q : Nat) (f : Queue → Queue) : (s.onQueue q f).codes = s.codes := by simp [State.onQueue]
@[simp] theorem State.onQueue_regions (s : State) (q : Nat) (f : Queue → Queue) : (s.onQueue q f).regions = s.regions := by simp [State.onQueue]
@[simp] theorem State.onQueue_held (s : State) (q : Nat) (f : Queue → Queue) : (s.onQueue q f).held = s.held := by simp [State.onQueue]
@[simp] theorem State.onQueue_taken (s : State) (q : Nat) (f : Queue → Queue) : (s.onQueue q f).taken = s.taken := by simp [State.onQueue]
@[simp] theorem State.onQueue_scrubs (s : State) (q : Nat) (f : Queue → Queue) : (s.onQueue q f).scrubs = s.scrubs := by simp [State.onQueue]
@[simp] theorem State.onQueue_drams (s : State) (q : Nat) (f : Queue → Queue) : (s.onQueue q f).drams = s.drams := by simp [State.onQueue]
@[simp] theorem State.onQueue_pads (s : State) (q : Nat) (f : Queue → Queue) : (s.onQueue q f).pads = s.pads := by simp [State.onQueue]
@[simp] theorem State.onQueue_tsuDrive (s : State) (q : Nat) (f : Queue → Queue) : (s.onQueue q f).tsuDrive = s.tsuDrive := by simp [State.onQueue]
@[simp] theorem State.onQueue_p1Wait (s : State) (q : Nat) (f : Queue → Queue) : (s.onQueue q f).p1Wait = s.p1Wait := by simp [State.onQueue]
@[simp] theorem State.onQueue_marches (s : State) (q : Nat) (f : Queue → Queue) : (s.onQueue q f).marches = s.marches := by simp [State.onQueue]
@[simp] theorem State.onQueue_cadLate (s : State) (q : Nat) (f : Queue → Queue) : (s.onQueue q f).cadLate = s.cadLate := by simp [State.onQueue]
@[simp] theorem State.onQueue_lbIdx (s : State) (q : Nat) (f : Queue → Queue) : (s.onQueue q f).lbIdx = s.lbIdx := by simp [State.onQueue]
@[simp] theorem State.onQueue_lbSecond (s : State) (q : Nat) (f : Queue → Queue) : (s.onQueue q f).lbSecond = s.lbSecond := by simp [State.onQueue]
@[simp] theorem State.onQueue_lbHead (s : State) (q : Nat) (f : Queue → Queue) : (s.onQueue q f).lbHead = s.lbHead := by simp [State.onQueue]
@[simp] theorem State.onQueue_sched (s : State) (q : Nat) (f : Queue → Queue) : (s.onQueue q f).sched = s.sched := by simp [State.onQueue]
@[simp] theorem State.onQueue_cores (s : State) (q : Nat) (f : Queue → Queue) : (s.onQueue q f).cores = s.cores := by simp [State.onQueue]
@[simp] theorem State.onQueue_bist (s : State) (q : Nat) (f : Queue → Queue) : (s.onQueue q f).bist = s.bist := by simp [State.onQueue]
@[simp] theorem State.onQueue_noc (s : State) (q : Nat) (f : Queue → Queue) : (s.onQueue q f).noc = s.noc := by simp [State.onQueue]
@[simp] theorem State.onQueue_raised (s : State) (q : Nat) (f : Queue → Queue) : (s.onQueue q f).raised = s.raised := by simp [State.onQueue]
@[simp] theorem State.onQueue_tsuDone (s : State) (q : Nat) (f : Queue → Queue) : (s.onQueue q f).tsuDone = s.tsuDone := by simp [State.onQueue]
@[simp] theorem State.onQueue_cxps (s : State) (q : Nat) (f : Queue → Queue) : (s.onQueue q f).cxps = s.cxps := by simp [State.onQueue]
@[simp] theorem State.onQueue_eths (s : State) (q : Nat) (f : Queue → Queue) : (s.onQueue q f).eths = s.eths := by simp [State.onQueue]
@[simp] theorem State.onQueue_host (s : State) (q : Nat) (f : Queue → Queue) : (s.onQueue q f).host = s.host := by simp [State.onQueue]
@[simp] theorem State.onQueue_sha (s : State) (q : Nat) (f : Queue → Queue) : (s.onQueue q f).sha = s.sha := by simp [State.onQueue]
@[simp] theorem State.onQueue_mld (s : State) (q : Nat) (f : Queue → Queue) : (s.onQueue q f).mld = s.mld := by simp [State.onQueue]
@[simp] theorem State.onQueue_otp (s : State) (q : Nat) (f : Queue → Queue) : (s.onQueue q f).otp = s.otp := by simp [State.onQueue]
@[simp] theorem State.onQueue_flash (s : State) (q : Nat) (f : Queue → Queue) : (s.onQueue q f).flash = s.flash := by simp [State.onQueue]
@[simp] theorem State.onQueue_boot (s : State) (q : Nat) (f : Queue → Queue) : (s.onQueue q f).boot = s.boot := by simp [State.onQueue]
@[simp] theorem State.onQueue_signals (s : State) (q : Nat) (f : Queue → Queue) : (s.onQueue q f).signals = s.signals := by simp [State.onQueue]
@[simp] theorem State.onQueue_mtime (s : State) (q : Nat) (f : Queue → Queue) : (s.onQueue q f).mtime = s.mtime := by simp [State.onQueue]
@[simp] theorem State.onQueue_avs (s : State) (q : Nat) (f : Queue → Queue) : (s.onQueue q f).avs = s.avs := by simp [State.onQueue]
@[simp] theorem State.onQueue_tandem (s : State) (q : Nat) (f : Queue → Queue) : (s.onQueue q f).tandem = s.tandem := by simp [State.onQueue]
@[simp] theorem State.onQueue_fatal (s : State) (q : Nat) (f : Queue → Queue) : (s.onQueue q f).fatal = s.fatal := by simp [State.onQueue]
@[simp] theorem State.onQueue_out (s : State) (q : Nat) (f : Queue → Queue) : (s.onQueue q f).out = s.out := by simp [State.onQueue]
@[simp] theorem State.onQueue_now (s : State) (q : Nat) (f : Queue → Queue) : (s.onQueue q f).now = s.now := by simp [State.onQueue]
@[simp] theorem State.onQueue_fresh (s : State) (q : Nat) (f : Queue → Queue) : (s.onQueue q f).fresh = s.fresh := by simp [State.onQueue]
@[simp] theorem State.onQueue_pending (s : State) (q : Nat) (f : Queue → Queue) : (s.onQueue q f).pending = s.pending := by simp [State.onQueue]

/-! notify -/

@[simp] theorem State.notify_regs (s : State) (q k : Nat) : (s.notify q k).regs = s.regs := by simp [State.notify]
@[simp] theorem State.notify_latches (s : State) (q k : Nat) : (s.notify q k).latches = s.latches := by simp [State.notify]
@[simp] theorem State.notify_mem (s : State) (q k : Nat) : (s.notify q k).mem = s.mem := by simp [State.notify]
@[simp] theorem State.notify_codes (s : State) (q k : Nat) : (s.notify q k).codes = s.codes := by simp [State.notify]
@[simp] theorem State.notify_regions (s : State) (q k : Nat) : (s.notify q k).regions = s.regions := by simp [State.notify]
@[simp] theorem State.notify_held (s : State) (q k : Nat) : (s.notify q k).held = s.held := by simp [State.notify]
@[simp] theorem State.notify_taken (s : State) (q k : Nat) : (s.notify q k).taken = s.taken := by simp [State.notify]
@[simp] theorem State.notify_scrubs (s : State) (q k : Nat) : (s.notify q k).scrubs = s.scrubs := by simp [State.notify]
@[simp] theorem State.notify_drams (s : State) (q k : Nat) : (s.notify q k).drams = s.drams := by simp [State.notify]
@[simp] theorem State.notify_pads (s : State) (q k : Nat) : (s.notify q k).pads = s.pads := by simp [State.notify]
@[simp] theorem State.notify_tsuDrive (s : State) (q k : Nat) : (s.notify q k).tsuDrive = s.tsuDrive := by simp [State.notify]
@[simp] theorem State.notify_p1Wait (s : State) (q k : Nat) : (s.notify q k).p1Wait = s.p1Wait := by simp [State.notify]
@[simp] theorem State.notify_marches (s : State) (q k : Nat) : (s.notify q k).marches = s.marches := by simp [State.notify]
@[simp] theorem State.notify_cadLate (s : State) (q k : Nat) : (s.notify q k).cadLate = s.cadLate := by simp [State.notify]
@[simp] theorem State.notify_lbIdx (s : State) (q k : Nat) : (s.notify q k).lbIdx = s.lbIdx := by simp [State.notify]
@[simp] theorem State.notify_lbSecond (s : State) (q k : Nat) : (s.notify q k).lbSecond = s.lbSecond := by simp [State.notify]
@[simp] theorem State.notify_lbHead (s : State) (q k : Nat) : (s.notify q k).lbHead = s.lbHead := by simp [State.notify]
@[simp] theorem State.notify_sched (s : State) (q k : Nat) : (s.notify q k).sched = s.sched := by simp [State.notify]
@[simp] theorem State.notify_cores (s : State) (q k : Nat) : (s.notify q k).cores = s.cores := by simp [State.notify]
@[simp] theorem State.notify_bist (s : State) (q k : Nat) : (s.notify q k).bist = s.bist := by simp [State.notify]
@[simp] theorem State.notify_noc (s : State) (q k : Nat) : (s.notify q k).noc = s.noc := by simp [State.notify]
@[simp] theorem State.notify_tsuDone (s : State) (q k : Nat) : (s.notify q k).tsuDone = s.tsuDone := by simp [State.notify]
@[simp] theorem State.notify_cxps (s : State) (q k : Nat) : (s.notify q k).cxps = s.cxps := by simp [State.notify]
@[simp] theorem State.notify_eths (s : State) (q k : Nat) : (s.notify q k).eths = s.eths := by simp [State.notify]
@[simp] theorem State.notify_host (s : State) (q k : Nat) : (s.notify q k).host = s.host := by simp [State.notify]
@[simp] theorem State.notify_sha (s : State) (q k : Nat) : (s.notify q k).sha = s.sha := by simp [State.notify]
@[simp] theorem State.notify_mld (s : State) (q k : Nat) : (s.notify q k).mld = s.mld := by simp [State.notify]
@[simp] theorem State.notify_otp (s : State) (q k : Nat) : (s.notify q k).otp = s.otp := by simp [State.notify]
@[simp] theorem State.notify_flash (s : State) (q k : Nat) : (s.notify q k).flash = s.flash := by simp [State.notify]
@[simp] theorem State.notify_boot (s : State) (q k : Nat) : (s.notify q k).boot = s.boot := by simp [State.notify]
@[simp] theorem State.notify_signals (s : State) (q k : Nat) : (s.notify q k).signals = s.signals := by simp [State.notify]
@[simp] theorem State.notify_mtime (s : State) (q k : Nat) : (s.notify q k).mtime = s.mtime := by simp [State.notify]
@[simp] theorem State.notify_avs (s : State) (q k : Nat) : (s.notify q k).avs = s.avs := by simp [State.notify]
@[simp] theorem State.notify_tandem (s : State) (q k : Nat) : (s.notify q k).tandem = s.tandem := by simp [State.notify]
@[simp] theorem State.notify_fatal (s : State) (q k : Nat) : (s.notify q k).fatal = s.fatal := by simp [State.notify]
@[simp] theorem State.notify_out (s : State) (q k : Nat) : (s.notify q k).out = s.out := by simp [State.notify]
@[simp] theorem State.notify_now (s : State) (q k : Nat) : (s.notify q k).now = s.now := by simp [State.notify]
@[simp] theorem State.notify_fresh (s : State) (q k : Nat) : (s.notify q k).fresh = s.fresh := by simp [State.notify]
@[simp] theorem State.notify_pending (s : State) (q k : Nat) : (s.notify q k).pending = s.pending := by simp [State.notify]

/-! putLine -/

@[simp] theorem State.putLine_regs (s : State) (a : Nat) (d : Line) : (s.putLine a d).regs = s.regs := rfl
@[simp] theorem State.putLine_latches (s : State) (a : Nat) (d : Line) : (s.putLine a d).latches = s.latches := rfl
@[simp] theorem State.putLine_regions (s : State) (a : Nat) (d : Line) : (s.putLine a d).regions = s.regions := rfl
@[simp] theorem State.putLine_queues (s : State) (a : Nat) (d : Line) : (s.putLine a d).queues = s.queues := rfl
@[simp] theorem State.putLine_held (s : State) (a : Nat) (d : Line) : (s.putLine a d).held = s.held := rfl
@[simp] theorem State.putLine_taken (s : State) (a : Nat) (d : Line) : (s.putLine a d).taken = s.taken := rfl
@[simp] theorem State.putLine_scrubs (s : State) (a : Nat) (d : Line) : (s.putLine a d).scrubs = s.scrubs := rfl
@[simp] theorem State.putLine_drams (s : State) (a : Nat) (d : Line) : (s.putLine a d).drams = s.drams := rfl
@[simp] theorem State.putLine_pads (s : State) (a : Nat) (d : Line) : (s.putLine a d).pads = s.pads := rfl
@[simp] theorem State.putLine_tsuDrive (s : State) (a : Nat) (d : Line) : (s.putLine a d).tsuDrive = s.tsuDrive := rfl
@[simp] theorem State.putLine_p1Wait (s : State) (a : Nat) (d : Line) : (s.putLine a d).p1Wait = s.p1Wait := rfl
@[simp] theorem State.putLine_marches (s : State) (a : Nat) (d : Line) : (s.putLine a d).marches = s.marches := rfl
@[simp] theorem State.putLine_cadLate (s : State) (a : Nat) (d : Line) : (s.putLine a d).cadLate = s.cadLate := rfl
@[simp] theorem State.putLine_lbIdx (s : State) (a : Nat) (d : Line) : (s.putLine a d).lbIdx = s.lbIdx := rfl
@[simp] theorem State.putLine_lbSecond (s : State) (a : Nat) (d : Line) : (s.putLine a d).lbSecond = s.lbSecond := rfl
@[simp] theorem State.putLine_lbHead (s : State) (a : Nat) (d : Line) : (s.putLine a d).lbHead = s.lbHead := rfl
@[simp] theorem State.putLine_sched (s : State) (a : Nat) (d : Line) : (s.putLine a d).sched = s.sched := rfl
@[simp] theorem State.putLine_cores (s : State) (a : Nat) (d : Line) : (s.putLine a d).cores = s.cores := rfl
@[simp] theorem State.putLine_bist (s : State) (a : Nat) (d : Line) : (s.putLine a d).bist = s.bist := rfl
@[simp] theorem State.putLine_noc (s : State) (a : Nat) (d : Line) : (s.putLine a d).noc = s.noc := rfl
@[simp] theorem State.putLine_raised (s : State) (a : Nat) (d : Line) : (s.putLine a d).raised = s.raised := rfl
@[simp] theorem State.putLine_tsuDone (s : State) (a : Nat) (d : Line) : (s.putLine a d).tsuDone = s.tsuDone := rfl
@[simp] theorem State.putLine_cxps (s : State) (a : Nat) (d : Line) : (s.putLine a d).cxps = s.cxps := rfl
@[simp] theorem State.putLine_eths (s : State) (a : Nat) (d : Line) : (s.putLine a d).eths = s.eths := rfl
@[simp] theorem State.putLine_host (s : State) (a : Nat) (d : Line) : (s.putLine a d).host = s.host := rfl
@[simp] theorem State.putLine_sha (s : State) (a : Nat) (d : Line) : (s.putLine a d).sha = s.sha := rfl
@[simp] theorem State.putLine_mld (s : State) (a : Nat) (d : Line) : (s.putLine a d).mld = s.mld := rfl
@[simp] theorem State.putLine_otp (s : State) (a : Nat) (d : Line) : (s.putLine a d).otp = s.otp := rfl
@[simp] theorem State.putLine_flash (s : State) (a : Nat) (d : Line) : (s.putLine a d).flash = s.flash := rfl
@[simp] theorem State.putLine_boot (s : State) (a : Nat) (d : Line) : (s.putLine a d).boot = s.boot := rfl
@[simp] theorem State.putLine_signals (s : State) (a : Nat) (d : Line) : (s.putLine a d).signals = s.signals := rfl
@[simp] theorem State.putLine_mtime (s : State) (a : Nat) (d : Line) : (s.putLine a d).mtime = s.mtime := rfl
@[simp] theorem State.putLine_avs (s : State) (a : Nat) (d : Line) : (s.putLine a d).avs = s.avs := rfl
@[simp] theorem State.putLine_tandem (s : State) (a : Nat) (d : Line) : (s.putLine a d).tandem = s.tandem := rfl
@[simp] theorem State.putLine_fatal (s : State) (a : Nat) (d : Line) : (s.putLine a d).fatal = s.fatal := rfl
@[simp] theorem State.putLine_out (s : State) (a : Nat) (d : Line) : (s.putLine a d).out = s.out := rfl
@[simp] theorem State.putLine_now (s : State) (a : Nat) (d : Line) : (s.putLine a d).now = s.now := rfl
@[simp] theorem State.putLine_fresh (s : State) (a : Nat) (d : Line) : (s.putLine a d).fresh = s.fresh := rfl
@[simp] theorem State.putLine_pending (s : State) (a : Nat) (d : Line) : (s.putLine a d).pending = s.pending := rfl

/-! clearLines -/

@[simp] theorem State.clearLines_regs (s : State) (a n : Nat) : (s.clearLines a n).regs = s.regs := rfl
@[simp] theorem State.clearLines_latches (s : State) (a n : Nat) : (s.clearLines a n).latches = s.latches := rfl
@[simp] theorem State.clearLines_regions (s : State) (a n : Nat) : (s.clearLines a n).regions = s.regions := rfl
@[simp] theorem State.clearLines_queues (s : State) (a n : Nat) : (s.clearLines a n).queues = s.queues := rfl
@[simp] theorem State.clearLines_held (s : State) (a n : Nat) : (s.clearLines a n).held = s.held := rfl
@[simp] theorem State.clearLines_taken (s : State) (a n : Nat) : (s.clearLines a n).taken = s.taken := rfl
@[simp] theorem State.clearLines_scrubs (s : State) (a n : Nat) : (s.clearLines a n).scrubs = s.scrubs := rfl
@[simp] theorem State.clearLines_drams (s : State) (a n : Nat) : (s.clearLines a n).drams = s.drams := rfl
@[simp] theorem State.clearLines_pads (s : State) (a n : Nat) : (s.clearLines a n).pads = s.pads := rfl
@[simp] theorem State.clearLines_tsuDrive (s : State) (a n : Nat) : (s.clearLines a n).tsuDrive = s.tsuDrive := rfl
@[simp] theorem State.clearLines_p1Wait (s : State) (a n : Nat) : (s.clearLines a n).p1Wait = s.p1Wait := rfl
@[simp] theorem State.clearLines_marches (s : State) (a n : Nat) : (s.clearLines a n).marches = s.marches := rfl
@[simp] theorem State.clearLines_cadLate (s : State) (a n : Nat) : (s.clearLines a n).cadLate = s.cadLate := rfl
@[simp] theorem State.clearLines_lbIdx (s : State) (a n : Nat) : (s.clearLines a n).lbIdx = s.lbIdx := rfl
@[simp] theorem State.clearLines_lbSecond (s : State) (a n : Nat) : (s.clearLines a n).lbSecond = s.lbSecond := rfl
@[simp] theorem State.clearLines_lbHead (s : State) (a n : Nat) : (s.clearLines a n).lbHead = s.lbHead := rfl
@[simp] theorem State.clearLines_sched (s : State) (a n : Nat) : (s.clearLines a n).sched = s.sched := rfl
@[simp] theorem State.clearLines_cores (s : State) (a n : Nat) : (s.clearLines a n).cores = s.cores := rfl
@[simp] theorem State.clearLines_bist (s : State) (a n : Nat) : (s.clearLines a n).bist = s.bist := rfl
@[simp] theorem State.clearLines_noc (s : State) (a n : Nat) : (s.clearLines a n).noc = s.noc := rfl
@[simp] theorem State.clearLines_raised (s : State) (a n : Nat) : (s.clearLines a n).raised = s.raised := rfl
@[simp] theorem State.clearLines_tsuDone (s : State) (a n : Nat) : (s.clearLines a n).tsuDone = s.tsuDone := rfl
@[simp] theorem State.clearLines_cxps (s : State) (a n : Nat) : (s.clearLines a n).cxps = s.cxps := rfl
@[simp] theorem State.clearLines_eths (s : State) (a n : Nat) : (s.clearLines a n).eths = s.eths := rfl
@[simp] theorem State.clearLines_host (s : State) (a n : Nat) : (s.clearLines a n).host = s.host := rfl
@[simp] theorem State.clearLines_sha (s : State) (a n : Nat) : (s.clearLines a n).sha = s.sha := rfl
@[simp] theorem State.clearLines_mld (s : State) (a n : Nat) : (s.clearLines a n).mld = s.mld := rfl
@[simp] theorem State.clearLines_otp (s : State) (a n : Nat) : (s.clearLines a n).otp = s.otp := rfl
@[simp] theorem State.clearLines_flash (s : State) (a n : Nat) : (s.clearLines a n).flash = s.flash := rfl
@[simp] theorem State.clearLines_boot (s : State) (a n : Nat) : (s.clearLines a n).boot = s.boot := rfl
@[simp] theorem State.clearLines_signals (s : State) (a n : Nat) : (s.clearLines a n).signals = s.signals := rfl
@[simp] theorem State.clearLines_mtime (s : State) (a n : Nat) : (s.clearLines a n).mtime = s.mtime := rfl
@[simp] theorem State.clearLines_avs (s : State) (a n : Nat) : (s.clearLines a n).avs = s.avs := rfl
@[simp] theorem State.clearLines_tandem (s : State) (a n : Nat) : (s.clearLines a n).tandem = s.tandem := rfl
@[simp] theorem State.clearLines_fatal (s : State) (a n : Nat) : (s.clearLines a n).fatal = s.fatal := rfl
@[simp] theorem State.clearLines_out (s : State) (a n : Nat) : (s.clearLines a n).out = s.out := rfl
@[simp] theorem State.clearLines_now (s : State) (a n : Nat) : (s.clearLines a n).now = s.now := rfl
@[simp] theorem State.clearLines_fresh (s : State) (a n : Nat) : (s.clearLines a n).fresh = s.fresh := rfl
@[simp] theorem State.clearLines_pending (s : State) (a n : Nat) : (s.clearLines a n).pending = s.pending := rfl

/-! put -/

@[simp] theorem State.put_regs (s : State) (m : OutMsg) : (s.put m).regs = s.regs := rfl
@[simp] theorem State.put_latches (s : State) (m : OutMsg) : (s.put m).latches = s.latches := rfl
@[simp] theorem State.put_mem (s : State) (m : OutMsg) : (s.put m).mem = s.mem := rfl
@[simp] theorem State.put_codes (s : State) (m : OutMsg) : (s.put m).codes = s.codes := rfl
@[simp] theorem State.put_regions (s : State) (m : OutMsg) : (s.put m).regions = s.regions := rfl
@[simp] theorem State.put_queues (s : State) (m : OutMsg) : (s.put m).queues = s.queues := rfl
@[simp] theorem State.put_held (s : State) (m : OutMsg) : (s.put m).held = s.held := rfl
@[simp] theorem State.put_taken (s : State) (m : OutMsg) : (s.put m).taken = s.taken := rfl
@[simp] theorem State.put_scrubs (s : State) (m : OutMsg) : (s.put m).scrubs = s.scrubs := rfl
@[simp] theorem State.put_drams (s : State) (m : OutMsg) : (s.put m).drams = s.drams := rfl
@[simp] theorem State.put_pads (s : State) (m : OutMsg) : (s.put m).pads = s.pads := rfl
@[simp] theorem State.put_tsuDrive (s : State) (m : OutMsg) : (s.put m).tsuDrive = s.tsuDrive := rfl
@[simp] theorem State.put_p1Wait (s : State) (m : OutMsg) : (s.put m).p1Wait = s.p1Wait := rfl
@[simp] theorem State.put_marches (s : State) (m : OutMsg) : (s.put m).marches = s.marches := rfl
@[simp] theorem State.put_cadLate (s : State) (m : OutMsg) : (s.put m).cadLate = s.cadLate := rfl
@[simp] theorem State.put_lbIdx (s : State) (m : OutMsg) : (s.put m).lbIdx = s.lbIdx := rfl
@[simp] theorem State.put_lbSecond (s : State) (m : OutMsg) : (s.put m).lbSecond = s.lbSecond := rfl
@[simp] theorem State.put_lbHead (s : State) (m : OutMsg) : (s.put m).lbHead = s.lbHead := rfl
@[simp] theorem State.put_sched (s : State) (m : OutMsg) : (s.put m).sched = s.sched := rfl
@[simp] theorem State.put_cores (s : State) (m : OutMsg) : (s.put m).cores = s.cores := rfl
@[simp] theorem State.put_bist (s : State) (m : OutMsg) : (s.put m).bist = s.bist := rfl
@[simp] theorem State.put_noc (s : State) (m : OutMsg) : (s.put m).noc = s.noc := rfl
@[simp] theorem State.put_raised (s : State) (m : OutMsg) : (s.put m).raised = s.raised := rfl
@[simp] theorem State.put_tsuDone (s : State) (m : OutMsg) : (s.put m).tsuDone = s.tsuDone := rfl
@[simp] theorem State.put_cxps (s : State) (m : OutMsg) : (s.put m).cxps = s.cxps := rfl
@[simp] theorem State.put_eths (s : State) (m : OutMsg) : (s.put m).eths = s.eths := rfl
@[simp] theorem State.put_host (s : State) (m : OutMsg) : (s.put m).host = s.host := rfl
@[simp] theorem State.put_sha (s : State) (m : OutMsg) : (s.put m).sha = s.sha := rfl
@[simp] theorem State.put_mld (s : State) (m : OutMsg) : (s.put m).mld = s.mld := rfl
@[simp] theorem State.put_otp (s : State) (m : OutMsg) : (s.put m).otp = s.otp := rfl
@[simp] theorem State.put_flash (s : State) (m : OutMsg) : (s.put m).flash = s.flash := rfl
@[simp] theorem State.put_boot (s : State) (m : OutMsg) : (s.put m).boot = s.boot := rfl
@[simp] theorem State.put_signals (s : State) (m : OutMsg) : (s.put m).signals = s.signals := rfl
@[simp] theorem State.put_mtime (s : State) (m : OutMsg) : (s.put m).mtime = s.mtime := rfl
@[simp] theorem State.put_avs (s : State) (m : OutMsg) : (s.put m).avs = s.avs := rfl
@[simp] theorem State.put_tandem (s : State) (m : OutMsg) : (s.put m).tandem = s.tandem := rfl
@[simp] theorem State.put_fatal (s : State) (m : OutMsg) : (s.put m).fatal = s.fatal := rfl
@[simp] theorem State.put_now (s : State) (m : OutMsg) : (s.put m).now = s.now := rfl
@[simp] theorem State.put_fresh (s : State) (m : OutMsg) : (s.put m).fresh = s.fresh := rfl
@[simp] theorem State.put_pending (s : State) (m : OutMsg) : (s.put m).pending = s.pending := rfl

/-! hold -/

@[simp] theorem State.hold_regs (s : State) (e : Nat) (cs : List Chan) : (s.hold e cs).regs = s.regs := rfl
@[simp] theorem State.hold_latches (s : State) (e : Nat) (cs : List Chan) : (s.hold e cs).latches = s.latches := rfl
@[simp] theorem State.hold_mem (s : State) (e : Nat) (cs : List Chan) : (s.hold e cs).mem = s.mem := rfl
@[simp] theorem State.hold_codes (s : State) (e : Nat) (cs : List Chan) : (s.hold e cs).codes = s.codes := rfl
@[simp] theorem State.hold_regions (s : State) (e : Nat) (cs : List Chan) : (s.hold e cs).regions = s.regions := rfl
@[simp] theorem State.hold_queues (s : State) (e : Nat) (cs : List Chan) : (s.hold e cs).queues = s.queues := rfl
@[simp] theorem State.hold_taken (s : State) (e : Nat) (cs : List Chan) : (s.hold e cs).taken = s.taken := rfl
@[simp] theorem State.hold_scrubs (s : State) (e : Nat) (cs : List Chan) : (s.hold e cs).scrubs = s.scrubs := rfl
@[simp] theorem State.hold_drams (s : State) (e : Nat) (cs : List Chan) : (s.hold e cs).drams = s.drams := rfl
@[simp] theorem State.hold_pads (s : State) (e : Nat) (cs : List Chan) : (s.hold e cs).pads = s.pads := rfl
@[simp] theorem State.hold_tsuDrive (s : State) (e : Nat) (cs : List Chan) : (s.hold e cs).tsuDrive = s.tsuDrive := rfl
@[simp] theorem State.hold_p1Wait (s : State) (e : Nat) (cs : List Chan) : (s.hold e cs).p1Wait = s.p1Wait := rfl
@[simp] theorem State.hold_marches (s : State) (e : Nat) (cs : List Chan) : (s.hold e cs).marches = s.marches := rfl
@[simp] theorem State.hold_cadLate (s : State) (e : Nat) (cs : List Chan) : (s.hold e cs).cadLate = s.cadLate := rfl
@[simp] theorem State.hold_lbIdx (s : State) (e : Nat) (cs : List Chan) : (s.hold e cs).lbIdx = s.lbIdx := rfl
@[simp] theorem State.hold_lbSecond (s : State) (e : Nat) (cs : List Chan) : (s.hold e cs).lbSecond = s.lbSecond := rfl
@[simp] theorem State.hold_lbHead (s : State) (e : Nat) (cs : List Chan) : (s.hold e cs).lbHead = s.lbHead := rfl
@[simp] theorem State.hold_sched (s : State) (e : Nat) (cs : List Chan) : (s.hold e cs).sched = s.sched := rfl
@[simp] theorem State.hold_cores (s : State) (e : Nat) (cs : List Chan) : (s.hold e cs).cores = s.cores := rfl
@[simp] theorem State.hold_bist (s : State) (e : Nat) (cs : List Chan) : (s.hold e cs).bist = s.bist := rfl
@[simp] theorem State.hold_noc (s : State) (e : Nat) (cs : List Chan) : (s.hold e cs).noc = s.noc := rfl
@[simp] theorem State.hold_raised (s : State) (e : Nat) (cs : List Chan) : (s.hold e cs).raised = s.raised := rfl
@[simp] theorem State.hold_tsuDone (s : State) (e : Nat) (cs : List Chan) : (s.hold e cs).tsuDone = s.tsuDone := rfl
@[simp] theorem State.hold_cxps (s : State) (e : Nat) (cs : List Chan) : (s.hold e cs).cxps = s.cxps := rfl
@[simp] theorem State.hold_eths (s : State) (e : Nat) (cs : List Chan) : (s.hold e cs).eths = s.eths := rfl
@[simp] theorem State.hold_host (s : State) (e : Nat) (cs : List Chan) : (s.hold e cs).host = s.host := rfl
@[simp] theorem State.hold_sha (s : State) (e : Nat) (cs : List Chan) : (s.hold e cs).sha = s.sha := rfl
@[simp] theorem State.hold_mld (s : State) (e : Nat) (cs : List Chan) : (s.hold e cs).mld = s.mld := rfl
@[simp] theorem State.hold_otp (s : State) (e : Nat) (cs : List Chan) : (s.hold e cs).otp = s.otp := rfl
@[simp] theorem State.hold_flash (s : State) (e : Nat) (cs : List Chan) : (s.hold e cs).flash = s.flash := rfl
@[simp] theorem State.hold_boot (s : State) (e : Nat) (cs : List Chan) : (s.hold e cs).boot = s.boot := rfl
@[simp] theorem State.hold_signals (s : State) (e : Nat) (cs : List Chan) : (s.hold e cs).signals = s.signals := rfl
@[simp] theorem State.hold_mtime (s : State) (e : Nat) (cs : List Chan) : (s.hold e cs).mtime = s.mtime := rfl
@[simp] theorem State.hold_avs (s : State) (e : Nat) (cs : List Chan) : (s.hold e cs).avs = s.avs := rfl
@[simp] theorem State.hold_tandem (s : State) (e : Nat) (cs : List Chan) : (s.hold e cs).tandem = s.tandem := rfl
@[simp] theorem State.hold_fatal (s : State) (e : Nat) (cs : List Chan) : (s.hold e cs).fatal = s.fatal := rfl
@[simp] theorem State.hold_out (s : State) (e : Nat) (cs : List Chan) : (s.hold e cs).out = s.out := rfl
@[simp] theorem State.hold_now (s : State) (e : Nat) (cs : List Chan) : (s.hold e cs).now = s.now := rfl
@[simp] theorem State.hold_fresh (s : State) (e : Nat) (cs : List Chan) : (s.hold e cs).fresh = s.fresh := rfl
@[simp] theorem State.hold_pending (s : State) (e : Nat) (cs : List Chan) : (s.hold e cs).pending = s.pending := rfl

/-! dropTaken -/

@[simp] theorem State.dropTaken_regs (s : State) (e n : Nat) : (s.dropTaken e n).regs = s.regs := rfl
@[simp] theorem State.dropTaken_latches (s : State) (e n : Nat) : (s.dropTaken e n).latches = s.latches := rfl
@[simp] theorem State.dropTaken_mem (s : State) (e n : Nat) : (s.dropTaken e n).mem = s.mem := rfl
@[simp] theorem State.dropTaken_codes (s : State) (e n : Nat) : (s.dropTaken e n).codes = s.codes := rfl
@[simp] theorem State.dropTaken_regions (s : State) (e n : Nat) : (s.dropTaken e n).regions = s.regions := rfl
@[simp] theorem State.dropTaken_queues (s : State) (e n : Nat) : (s.dropTaken e n).queues = s.queues := rfl
@[simp] theorem State.dropTaken_held (s : State) (e n : Nat) : (s.dropTaken e n).held = s.held := rfl
@[simp] theorem State.dropTaken_scrubs (s : State) (e n : Nat) : (s.dropTaken e n).scrubs = s.scrubs := rfl
@[simp] theorem State.dropTaken_drams (s : State) (e n : Nat) : (s.dropTaken e n).drams = s.drams := rfl
@[simp] theorem State.dropTaken_pads (s : State) (e n : Nat) : (s.dropTaken e n).pads = s.pads := rfl
@[simp] theorem State.dropTaken_tsuDrive (s : State) (e n : Nat) : (s.dropTaken e n).tsuDrive = s.tsuDrive := rfl
@[simp] theorem State.dropTaken_p1Wait (s : State) (e n : Nat) : (s.dropTaken e n).p1Wait = s.p1Wait := rfl
@[simp] theorem State.dropTaken_marches (s : State) (e n : Nat) : (s.dropTaken e n).marches = s.marches := rfl
@[simp] theorem State.dropTaken_cadLate (s : State) (e n : Nat) : (s.dropTaken e n).cadLate = s.cadLate := rfl
@[simp] theorem State.dropTaken_lbIdx (s : State) (e n : Nat) : (s.dropTaken e n).lbIdx = s.lbIdx := rfl
@[simp] theorem State.dropTaken_lbSecond (s : State) (e n : Nat) : (s.dropTaken e n).lbSecond = s.lbSecond := rfl
@[simp] theorem State.dropTaken_lbHead (s : State) (e n : Nat) : (s.dropTaken e n).lbHead = s.lbHead := rfl
@[simp] theorem State.dropTaken_sched (s : State) (e n : Nat) : (s.dropTaken e n).sched = s.sched := rfl
@[simp] theorem State.dropTaken_cores (s : State) (e n : Nat) : (s.dropTaken e n).cores = s.cores := rfl
@[simp] theorem State.dropTaken_bist (s : State) (e n : Nat) : (s.dropTaken e n).bist = s.bist := rfl
@[simp] theorem State.dropTaken_noc (s : State) (e n : Nat) : (s.dropTaken e n).noc = s.noc := rfl
@[simp] theorem State.dropTaken_raised (s : State) (e n : Nat) : (s.dropTaken e n).raised = s.raised := rfl
@[simp] theorem State.dropTaken_tsuDone (s : State) (e n : Nat) : (s.dropTaken e n).tsuDone = s.tsuDone := rfl
@[simp] theorem State.dropTaken_cxps (s : State) (e n : Nat) : (s.dropTaken e n).cxps = s.cxps := rfl
@[simp] theorem State.dropTaken_eths (s : State) (e n : Nat) : (s.dropTaken e n).eths = s.eths := rfl
@[simp] theorem State.dropTaken_host (s : State) (e n : Nat) : (s.dropTaken e n).host = s.host := rfl
@[simp] theorem State.dropTaken_sha (s : State) (e n : Nat) : (s.dropTaken e n).sha = s.sha := rfl
@[simp] theorem State.dropTaken_mld (s : State) (e n : Nat) : (s.dropTaken e n).mld = s.mld := rfl
@[simp] theorem State.dropTaken_otp (s : State) (e n : Nat) : (s.dropTaken e n).otp = s.otp := rfl
@[simp] theorem State.dropTaken_flash (s : State) (e n : Nat) : (s.dropTaken e n).flash = s.flash := rfl
@[simp] theorem State.dropTaken_boot (s : State) (e n : Nat) : (s.dropTaken e n).boot = s.boot := rfl
@[simp] theorem State.dropTaken_signals (s : State) (e n : Nat) : (s.dropTaken e n).signals = s.signals := rfl
@[simp] theorem State.dropTaken_mtime (s : State) (e n : Nat) : (s.dropTaken e n).mtime = s.mtime := rfl
@[simp] theorem State.dropTaken_avs (s : State) (e n : Nat) : (s.dropTaken e n).avs = s.avs := rfl
@[simp] theorem State.dropTaken_tandem (s : State) (e n : Nat) : (s.dropTaken e n).tandem = s.tandem := rfl
@[simp] theorem State.dropTaken_fatal (s : State) (e n : Nat) : (s.dropTaken e n).fatal = s.fatal := rfl
@[simp] theorem State.dropTaken_out (s : State) (e n : Nat) : (s.dropTaken e n).out = s.out := rfl
@[simp] theorem State.dropTaken_now (s : State) (e n : Nat) : (s.dropTaken e n).now = s.now := rfl
@[simp] theorem State.dropTaken_fresh (s : State) (e n : Nat) : (s.dropTaken e n).fresh = s.fresh := rfl
@[simp] theorem State.dropTaken_pending (s : State) (e n : Nat) : (s.dropTaken e n).pending = s.pending := rfl

/-! settle -/

@[simp] theorem State.settle_regs (s : State) : (s.settle).regs = s.regs := rfl
@[simp] theorem State.settle_latches (s : State) : (s.settle).latches = s.latches := rfl
@[simp] theorem State.settle_mem (s : State) : (s.settle).mem = s.mem := rfl
@[simp] theorem State.settle_codes (s : State) : (s.settle).codes = s.codes := rfl
@[simp] theorem State.settle_regions (s : State) : (s.settle).regions = s.regions := rfl
@[simp] theorem State.settle_held (s : State) : (s.settle).held = s.held := rfl
@[simp] theorem State.settle_taken (s : State) : (s.settle).taken = s.taken := rfl
@[simp] theorem State.settle_scrubs (s : State) : (s.settle).scrubs = s.scrubs := rfl
@[simp] theorem State.settle_drams (s : State) : (s.settle).drams = s.drams := rfl
@[simp] theorem State.settle_pads (s : State) : (s.settle).pads = s.pads := rfl
@[simp] theorem State.settle_tsuDrive (s : State) : (s.settle).tsuDrive = s.tsuDrive := rfl
@[simp] theorem State.settle_p1Wait (s : State) : (s.settle).p1Wait = s.p1Wait := rfl
@[simp] theorem State.settle_marches (s : State) : (s.settle).marches = s.marches := rfl
@[simp] theorem State.settle_cadLate (s : State) : (s.settle).cadLate = s.cadLate := rfl
@[simp] theorem State.settle_lbIdx (s : State) : (s.settle).lbIdx = s.lbIdx := rfl
@[simp] theorem State.settle_lbSecond (s : State) : (s.settle).lbSecond = s.lbSecond := rfl
@[simp] theorem State.settle_lbHead (s : State) : (s.settle).lbHead = s.lbHead := rfl
@[simp] theorem State.settle_sched (s : State) : (s.settle).sched = s.sched := rfl
@[simp] theorem State.settle_cores (s : State) : (s.settle).cores = s.cores := rfl
@[simp] theorem State.settle_bist (s : State) : (s.settle).bist = s.bist := rfl
@[simp] theorem State.settle_noc (s : State) : (s.settle).noc = s.noc := rfl
@[simp] theorem State.settle_tsuDone (s : State) : (s.settle).tsuDone = s.tsuDone := rfl
@[simp] theorem State.settle_cxps (s : State) : (s.settle).cxps = s.cxps := rfl
@[simp] theorem State.settle_eths (s : State) : (s.settle).eths = s.eths := rfl
@[simp] theorem State.settle_host (s : State) : (s.settle).host = s.host := rfl
@[simp] theorem State.settle_sha (s : State) : (s.settle).sha = s.sha := rfl
@[simp] theorem State.settle_mld (s : State) : (s.settle).mld = s.mld := rfl
@[simp] theorem State.settle_otp (s : State) : (s.settle).otp = s.otp := rfl
@[simp] theorem State.settle_flash (s : State) : (s.settle).flash = s.flash := rfl
@[simp] theorem State.settle_boot (s : State) : (s.settle).boot = s.boot := rfl
@[simp] theorem State.settle_signals (s : State) : (s.settle).signals = s.signals := rfl
@[simp] theorem State.settle_mtime (s : State) : (s.settle).mtime = s.mtime := rfl
@[simp] theorem State.settle_avs (s : State) : (s.settle).avs = s.avs := rfl
@[simp] theorem State.settle_tandem (s : State) : (s.settle).tandem = s.tandem := rfl
@[simp] theorem State.settle_fatal (s : State) : (s.settle).fatal = s.fatal := rfl
@[simp] theorem State.settle_out (s : State) : (s.settle).out = s.out := rfl
@[simp] theorem State.settle_now (s : State) : (s.settle).now = s.now := rfl
@[simp] theorem State.settle_pending (s : State) : (s.settle).pending = s.pending := rfl

end Sys2Proof.Machine
end

