-- ==== Sys2Proof/Laws/Regs.lean ====
section
/-! SUPPORT. Laws of the register file: a read after a write, and the fields and bits of a word. -/

namespace Sys2Proof.Machine

/-! Fields. -/

theorem maskAt_bit (w lo len i : Nat) (h : lo + len ≤ w) :
    (maskAt w lo len).getLsbD i = (decide (lo ≤ i) && decide (i < lo + len)) := by
  simp only [maskAt, BitVec.getLsbD_ofNat, Nat.testBit_shiftLeft, Nat.testBit_two_pow_sub_one]
  by_cases h1 : lo ≤ i <;> by_cases h2 : i < lo + len
  · have h3 : i < w := by omega
    have h4 : i - lo < len := by omega
    simp [h1, h2, h3, h4]
  · have h4 : ¬ i - lo < len := by omega
    simp [h2, h4]
  · simp [h1]
  · simp [h1]

/-- A bit of a word with a field replaced. -/
theorem getLsbD_setFld {w : Nat} (v : BitVec w) (lo len x i : Nat) (h : lo + len ≤ w) :
    (setFld v lo len x).getLsbD i =
      if lo ≤ i ∧ i < lo + len then x.testBit (i - lo) else v.getLsbD i := by
  simp only [setFld, BitVec.getLsbD_or, BitVec.getLsbD_and, BitVec.getLsbD_not, maskAt_bit w lo len i h,
    BitVec.getLsbD_ofNat, Nat.testBit_shiftLeft, Nat.testBit_mod_two_pow]
  by_cases h1 : lo ≤ i <;> by_cases h2 : i < lo + len
  · have : i < w := by omega
    have : i - lo < len := by omega
    simp [*]
  · have : ¬ (i - lo < len) := by omega
    by_cases h3 : i < w
    · simp [*]
    · have := BitVec.getLsbD_of_ge v i (by omega); simp [*]
  · have : ¬ (i ≥ lo) := by omega
    by_cases h3 : i < w
    · simp [*]
    · have := BitVec.getLsbD_of_ge v i (by omega); simp [*]
  · omega

/-- A bit of a word with a bit replaced. -/
theorem getLsbD_setBit {w : Nat} (v : BitVec w) (k i : Nat) (b : Bool) (h : k < w) :
    (setBit v k b).getLsbD i = if i = k then b else v.getLsbD i := by
  rw [setBit, getLsbD_setFld v k 1 _ i (by omega)]
  by_cases hi : i = k
  · subst hi; cases b <;> simp
  · have : ¬ (k ≤ i ∧ i < k + 1) := by omega
    rw [if_neg this, if_neg hi]

/-- The bits of a field. -/
theorem testBit_fld {w : Nat} (v : BitVec w) (lo len i : Nat) :
    (fld v lo len).testBit i = (decide (i < len) && v.getLsbD (lo + i)) := by
  simp [fld, Nat.testBit_mod_two_pow, Nat.testBit_shiftRight, BitVec.getLsbD]

/-- A field reads back as it was written. -/
theorem fld_setFld {w : Nat} (v : BitVec w) (lo len x : Nat) (h : lo + len ≤ w) :
    fld (setFld v lo len x) lo len = x % 2 ^ len := by
  apply Nat.eq_of_testBit_eq
  intro i
  rw [testBit_fld, getLsbD_setFld v lo len x _ h, Nat.testBit_mod_two_pow]
  by_cases hi : i < len
  · have : lo ≤ lo + i ∧ lo + i < lo + len := by omega
    simp [hi]
  · simp [hi]

/-- A field is left alone by a write to another. -/
theorem fld_setFld_ne {w : Nat} (v : BitVec w) (lo len lo' len' x : Nat) (h : lo' + len' ≤ w)
    (hd : lo + len ≤ lo' ∨ lo' + len' ≤ lo) : fld (setFld v lo' len' x) lo len = fld v lo len := by
  apply Nat.eq_of_testBit_eq
  intro i
  rw [testBit_fld, testBit_fld, getLsbD_setFld v lo' len' x _ h]
  by_cases hi : i < len
  · have : ¬ (lo' ≤ lo + i ∧ lo + i < lo' + len') := by omega
    simp [hi, this]
  · simp [hi]

theorem fld_lt {w : Nat} (v : BitVec w) (lo len : Nat) : fld v lo len < 2 ^ len :=
  Nat.mod_lt _ (Nat.two_pow_pos len)

/-! Registers. -/

theorem rg_setRg (s : State) (o p : Nat) (v : Word32) :
    (s.setRg o v).rg p = if p = o then v else s.rg p := by
  by_cases h : p = o
  · subst h; simp [State.rg, State.setRg]
  · simp [State.rg, State.setRg, mget_mset_ne _ _ _ _ h, h]

@[simp] theorem rg_setRg_self (s : State) (o : Nat) (v : Word32) : (s.setRg o v).rg o = v := by simp [rg_setRg]

theorem rg_setRg_ne (s : State) {o p : Nat} (v : Word32) (h : p ≠ o) : (s.setRg o v).rg p = s.rg p := by
  simp [rg_setRg, h]

theorem rg_setRf (s : State) (o lo len x p : Nat) :
    (s.setRf o lo len x).rg p = if p = o then setFld (s.rg o) lo len x else s.rg p := rg_setRg s o p _

theorem rg_setRf_ne (s : State) {o p : Nat} (lo len x : Nat) (h : p ≠ o) : (s.setRf o lo len x).rg p = s.rg p :=
  rg_setRg_ne s _ h

theorem rg_setRb (s : State) (o i p : Nat) (b : Bool) :
    (s.setRb o i b).rg p = if p = o then setBit (s.rg o) i b else s.rg p := rg_setRg s o p _

theorem rg_setRb_ne (s : State) {o p : Nat} (i : Nat) (b : Bool) (h : p ≠ o) : (s.setRb o i b).rg p = s.rg p :=
  rg_setRg_ne s _ h

theorem rg_setRg64 (s : State) (o v p : Nat) :
    (s.setRg64 o v).rg p = if p = o + 4 then BitVec.ofNat 32 (v / 2 ^ 32)
      else if p = o then BitVec.ofNat 32 v else s.rg p := by
  simp only [State.setRg64, rg_setRg]

theorem rg_count (s : State) (o p : Nat) : (s.count o).rg p = if p = o then satInc32 (s.rg o) else s.rg p :=
  rg_setRg s o p _

theorem rg_writeFields (s : State) (o p : Nat) (f : RegSpec) (v : Word32) :
    (s.writeFields o f v).rg p =
      if p = o then regTakes f (f.rwl != 0 && s.rb f.en f.enBit) (s.rg o) v else s.rg p := rg_setRg s o p _

/-- A register reads the same in two states with the same registers. -/
theorem rg_of_regs {s t : State} (h : t.regs = s.regs) (o : Nat) : t.rg o = s.rg o := by simp [State.rg, h]

theorem rf_of_rg {s t : State} {o : Nat} (h : t.rg o = s.rg o) (lo len : Nat) : t.rf o lo len = s.rf o lo len := by
  simp [State.rf, h]

theorem rb_of_rg {s t : State} {o : Nat} (h : t.rg o = s.rg o) (i : Nat) : t.rb o i = s.rb o i := by
  simp [State.rb, h]

@[simp] theorem rg_raise (s : State) (n o : Nat) : (s.raise n).rg o = s.rg o := rfl
@[simp] theorem rg_raiseIf (s : State) (b : Bool) (n o : Nat) : (s.raiseIf b n).rg o = s.rg o := by cases b <;> rfl
@[simp] theorem rg_put (s : State) (m : OutMsg) (o : Nat) : (s.put m).rg o = s.rg o := rfl
@[simp] theorem rg_setRegion (s : State) (r : Nat) (x : Region) (o : Nat) : (s.setRegion r x).rg o = s.rg o := rfl
@[simp] theorem rg_onRegion (s : State) (r : Nat) (f : Region → Region) (o : Nat) : (s.onRegion r f).rg o = s.rg o := rfl
@[simp] theorem rg_setQueue (s : State) (q : Nat) (x : Queue) (o : Nat) : (s.setQueue q x).rg o = s.rg o := rfl
@[simp] theorem rg_onQueue (s : State) (q : Nat) (f : Queue → Queue) (o : Nat) : (s.onQueue q f).rg o = s.rg o := rfl
@[simp] theorem rg_settle (s : State) (o : Nat) : s.settle.rg o = s.rg o := rfl

theorem rg_event (s : State) (o k en src p : Nat) :
    (s.event o k en src).rg p = if p = o then setBit (s.rg o) k true else s.rg p := by
  simp [State.event, rg_setRb]

@[simp] theorem rf_setRf_self (s : State) (o lo len x : Nat) (h : lo + len ≤ 32) :
    (s.setRf o lo len x).rf o lo len = x % 2 ^ len := by
  simp [State.rf, State.setRf, fld_setFld _ lo len x h]

@[simp] theorem rb_setRb_self (s : State) (o i : Nat) (b : Bool) (h : i < 32) : (s.setRb o i b).rb o i = b := by
  simp [State.rb, State.setRb, getLsbD_setBit _ i i b h]

@[simp] theorem rg64_setRg64_self (s : State) (o v : Nat) : (s.setRg64 o v).rg64 o = v % 2 ^ 64 := by
  have h1 : (s.setRg64 o v).rg o = BitVec.ofNat 32 v := by simp [rg_setRg64]
  have h2 : (s.setRg64 o v).rg (o + 4) = BitVec.ofNat 32 (v / 2 ^ 32) := by simp [rg_setRg64]
  simp only [State.rg64, h1, h2, BitVec.toNat_ofNat]
  omega

/-! Regions and queues. -/

@[simp] theorem region_setRegion_self (s : State) (r : Nat) (x : Region) : (s.setRegion r x).region r = x := by
  simp [State.region, State.setRegion]

theorem region_setRegion_ne (s : State) {r p : Nat} (x : Region) (h : p ≠ r) :
    (s.setRegion r x).region p = s.region p := by simp [State.region, State.setRegion, mget_mset, h]

@[simp] theorem region_onRegion_self (s : State) (r : Nat) (f : Region → Region) :
    (s.onRegion r f).region r = f (s.region r) := by simp [State.onRegion]

@[simp] theorem queue_setQueue_self (s : State) (q : Nat) (x : Queue) : (s.setQueue q x).queue q = x := by
  simp [State.queue, State.setQueue]

theorem queue_setQueue_ne (s : State) {q p : Nat} (x : Queue) (h : p ≠ q) :
    (s.setQueue q x).queue p = s.queue p := by simp [State.queue, State.setQueue, mget_mset, h]

@[simp] theorem queue_onQueue_self (s : State) (q : Nat) (f : Queue → Queue) :
    (s.onQueue q f).queue q = f (s.queue q) := by simp [State.onQueue]

end Sys2Proof.Machine
end

