-- ==== Sys2Proof/Laws/Ops.lean ====
section
/-! SUPPORT. Laws of what ends every command: the levels are evaluated once, the waiting commands stay. -/

namespace Sys2Proof.Machine

/-! The evaluation of levels (R148). -/

theorem Queue.held_leveled (x : Queue) (h l b : Bool) : (x.leveled h l).held b = x.held b := rfl

/-- The notices are left alone where no level has risen. -/
theorem setBit_self {w : Nat} (v : BitVec w) (k : Nat) (h : k < w) : setBit v k (v.getLsbD k) = v := by
  apply BitVec.eq_of_getLsbD_eq
  intro i _
  rw [getLsbD_setBit v k i _ h]
  by_cases hi : i = k
  · subst hi; simp
  · simp [hi]

/-- What the evaluation makes of an entry shows the levels asked for. -/
theorem levelOk_levelEntry (s : State) (e : Nat × Queue) : s.levelOk (s.levelEntry e) = true := by
  unfold State.levelEntry
  by_cases h : e.2.on
  · rw [if_pos h]
    simp only [State.levelOk, State.wantHigh, State.wantLow, Queue.held_leveled]
    simp [Queue.leveled]
  · simp [h, State.levelOk]

/-- The levels asked for depend on the registers of the queue alone. -/
theorem levelOk_of_rg {s t : State} {e : Nat × Queue}
    (h : ∀ k, k < 0x40 → t.rg (queueBase e.1 + k) = s.rg (queueBase e.1 + k)) : t.levelOk e = s.levelOk e := by
  have h0 : t.rg (queueBase e.1) = s.rg (queueBase e.1) := h 0 (by decide)
  simp only [State.levelOk, State.wantHigh, State.wantLow, State.simple, State.rf, State.rb, h0,
    h 0x1C (by decide), h 0x20 (by decide)]

/-- Every command leaves the levels evaluated. -/
theorem settled_settle (s : State) : s.settle.settled = true := by
  simp only [State.settled, State.settle, List.all_map, List.all_eq_true]
  intro e _
  exact (levelOk_of_rg (s := s) (fun _ _ => rfl)).trans (levelOk_levelEntry s e)

theorem settled_pending (s : State) (l : List Instr) : State.settled { s with pending := l } = s.settled := rfl

/-- Where the levels are as asked for, the evaluation changes no entry. -/
theorem levelEntry_of_ok (s : State) (e : Nat × Queue) (h : s.levelOk e = true) : s.levelEntry e = e := by
  unfold State.levelEntry
  by_cases ho : e.2.on
  · rw [if_pos ho]
    simp only [State.levelOk, ho, Bool.not_true, Bool.false_or, Bool.and_eq_true, beq_iff_eq] at h
    obtain ⟨a, x⟩ := e
    have h2 := h.2
    have h1 := h.1
    simp only at h1 h2
    rw [← h1, ← h2]
    simp only [Queue.leveled, Bool.and_not_self, Bool.or_false, Bool.false_eq_true, if_false]
    rw [setBit_self x.notice 0 (by decide), setBit_self x.notice 1 (by decide)]
  · simp [ho]

/-- Where the levels are as asked for, the evaluation raises nothing for an entry. -/
theorem levelRaises_of_ok (s : State) (e : Nat × Queue) (h : s.levelOk e = true) : s.levelRaises e = false := by
  unfold State.levelRaises
  by_cases ho : e.2.on
  · simp only [State.levelOk, ho, Bool.not_true, Bool.false_or, Bool.and_eq_true, beq_iff_eq] at h
    rw [← h.1, ← h.2]; simp
  · simp [ho]

/-- Where the levels are as asked for, the evaluation only counts the free values. -/
theorem settle_of_settled (s : State) (h : s.settled = true) : s.settle = { s with fresh := s.fresh + 1 } := by
  simp only [State.settled, List.all_eq_true] at h
  have h1 : s.queues.map s.levelEntry = s.queues := by
    conv => rhs; rw [← List.map_id s.queues]
    exact List.map_congr_left (fun e he => levelEntry_of_ok s e (h e he))
  have h2 : s.queues.filter s.levelRaises = [] :=
    List.filter_eq_nil_iff.mpr (fun e he => by simp [levelRaises_of_ok s e (h e he)])
  simp [State.settle, h1, h2]

/-- A state whose queues and queue registers are those of a state with evaluated levels has them too. -/
theorem settled_of_same {s t : State} (h : s.settled = true) (hq : t.queues = s.queues)
    (hr : ∀ e ∈ s.queues, ∀ k, k < 0x40 → t.rg (queueBase e.1 + k) = s.rg (queueBase e.1 + k)) : t.settled = true := by
  simp only [State.settled, List.all_eq_true, hq] at h ⊢
  intro e he
  rw [levelOk_of_rg (hr e he)]; exact h e he

/-- So the evaluation leaves everything else of it alone. -/
theorem settle_of_same {s t : State} (h : s.settled = true) (hq : t.queues = s.queues)
    (hr : ∀ e ∈ s.queues, ∀ k, k < 0x40 → t.rg (queueBase e.1 + k) = s.rg (queueBase e.1 + k)) :
    t.settle = { t with fresh := t.fresh + 1 } := settle_of_settled t (settled_of_same h hq hr)

/-- The offsets of the queues' registers (R133, R156). -/
def isQueueReg (o : Nat) : Prop := 0x400000 ≤ o ∧ o < 0x440000 ∧ o % 0x10000 < 0x2000

theorem queueBase_isQueueReg (q k : Nat) (h : k < 0x40) : isQueueReg (queueBase q + k) := by
  unfold isQueueReg queueBase planeBase; omega

/-- The same where only registers that are no queue's differ. -/
theorem settle_of_outside {s t : State} (h : s.settled = true) (hq : t.queues = s.queues)
    (hr : ∀ o, isQueueReg o → t.rg o = s.rg o) : t.settle = { t with fresh := t.fresh + 1 } :=
  settle_of_same h hq (fun e _ k hk => hr _ (queueBase_isQueueReg e.1 k hk))

/-- A queue after the evaluation: leveled where it is enabled, as it was otherwise. -/
theorem queue_settle (s : State) (q : Nat) : s.settle.queue q =
    if (s.queue q).on then (s.queue q).leveled (s.wantHigh q (s.queue q)) (s.wantLow q (s.queue q)) else s.queue q := by
  show mget {} (s.queues.map s.levelEntry) q = _
  unfold State.queue
  generalize s.queues = l
  induction l with
  | nil => rfl
  | cons e r ih =>
    obtain ⟨a, x⟩ := e
    by_cases h : a = q
    · subst h
      by_cases ho : x.on <;> simp [State.levelEntry, mget, ho]
    · by_cases ho : x.on <;> simpa [State.levelEntry, mget, ho, h] using ih

@[simp] theorem tail_settle (s : State) (q : Nat) : (s.settle.queue q).tail = (s.queue q).tail := by
  rw [queue_settle]; split <;> rfl
@[simp] theorem head_settle (s : State) (q : Nat) : (s.settle.queue q).head = (s.queue q).head := by
  rw [queue_settle]; split <;> rfl
@[simp] theorem on_settle (s : State) (q : Nat) : (s.settle.queue q).on = (s.queue q).on := by
  rw [queue_settle]; split <;> rfl
@[simp] theorem stage_settle (s : State) (q : Nat) : (s.settle.queue q).stage = (s.queue q).stage := by
  rw [queue_settle]; split <;> rfl
@[simp] theorem unread_settle (s : State) (q : Nat) : (s.settle.queue q).unread = (s.queue q).unread := by
  rw [queue_settle]; split <;> rfl
@[simp] theorem mark_settle (s : State) (q : Nat) : (s.settle.queue q).mark = (s.queue q).mark := by
  rw [queue_settle]; split <;> rfl
@[simp] theorem pkts_settle (s : State) (q : Nat) : (s.settle.queue q).pkts = (s.queue q).pkts := by
  rw [queue_settle]; split <;> rfl

/-! What a command answers. -/

@[simp] theorem onceEach_nil : onceEach [] = [] := rfl
@[simp] theorem onceEach_one (n : Nat) : onceEach [n] = [n] := by simp [onceEach]

/-- The evaluation at the end of a cycle raises what was raised, and what the levels raise. -/
theorem raised_settle (t : State) :
    t.settle.raised = t.raised ++ (t.queues.filter t.levelRaises).map (fun e => 512 + e.1) := rfl

/-- The end of a command after which the sources `l` have been raised further. -/
theorem cycleEnd_of_raised {s t : State} {l : List Nat} (h : t.settle.raised = s.raised ++ l) :
    s.cycleEnd t = { t.settle with raised := s.raised ++ onceEach l } := by
  simp [State.cycleEnd, h]

theorem finish_eq (s t : State) : finish s t = .next { s.cycleEnd t with pending := s.pending } := rfl

theorem live_eq (s t : State) (h : s.dead = false) : live s t = .next { s.cycleEnd t with pending := s.pending } := by
  simp [live, h, finish]

theorem live_dead (s t : State) (h : s.dead = true) : live s t = .next { s.cycleEnd s with pending := s.pending } := by
  simp [live, h, finish]

/-- A command whose effect touches no queue and no queue's register: nothing else changes. -/
theorem finish_outside {s t : State} {l : List Nat} (h : s.settled = true) (hq : t.queues = s.queues)
    (hr : ∀ o, isQueueReg o → t.rg o = s.rg o) (hl : t.raised = s.raised ++ l) (hp : t.pending = s.pending) :
    finish s t = .next { t with raised := s.raised ++ onceEach l, fresh := t.fresh + 1 } := by
  have e := settle_of_outside h hq hr
  rw [finish_eq, cycleEnd_of_raised (l := l) (by rw [e]; exact hl), e, ← hp]

theorem live_outside {s t : State} {l : List Nat} (hd : s.dead = false) (h : s.settled = true) (hq : t.queues = s.queues)
    (hr : ∀ o, isQueueReg o → t.rg o = s.rg o) (hl : t.raised = s.raised ++ l) (hp : t.pending = s.pending) :
    live s t = .next { t with raised := s.raised ++ onceEach l, fresh := t.fresh + 1 } := by
  have e : live s t = finish s t := by simp [live, hd]
  rw [e, finish_outside h hq hr hl hp]

/-- The same where nothing is raised. -/
theorem live_quiet {s t : State} (hd : s.dead = false) (h : s.settled = true) (hq : t.queues = s.queues)
    (hr : ∀ o, isQueueReg o → t.rg o = s.rg o) (hl : t.raised = s.raised) (hp : t.pending = s.pending) :
    live s t = .next { t with fresh := t.fresh + 1 } := by
  rw [live_outside (l := []) hd h hq hr (by simp [hl]) hp]; simp [hl]

/-- Every command ends the same way. -/
theorem live_finish (s t : State) : live s t = finish s (if s.dead then s else t) := by
  unfold live; split <;> rfl

/-- The evaluated levels do not depend on the sources raised and the commands that wait. -/
theorem settled_raised (s : State) (l : List Nat) : State.settled { s with raised := l } = s.settled := rfl

/-- A command that ends by `finish` leaves the levels evaluated and the waiting commands as they were. -/
theorem finish_spec (s t u : State) (h : finish s t = .next u) :
    u.settled = true ∧ u.pending = s.pending ∧ u.regs = t.regs ∧ u.mem = t.mem ∧ u.regions = t.regions ∧ u.now = t.now := by
  cases h; exact ⟨settled_settle t, rfl, rfl, rfl, rfl, rfl⟩

end Sys2Proof.Machine
end

