-- ==== Sys2Proof/Laws/Exec.lean ====
section
/-! SUPPORT. What every command and every step answers. -/

namespace Sys2Proof.Machine

/-- Every command answers a next state, through `finish`. -/
theorem exec_finish (c : Instr) (s : State) : ∃ t, exec c s = finish s t := by
  cases c <;> first | exact ⟨_, rfl⟩ | exact ⟨_, live_finish _ _⟩

end Sys2Proof.Machine
end

