-- ==== Sys2Proof/Laws/Memory.lean ====
section
/-! SUPPORT. Laws of memory: a read after a store, and the canonical form that every operation on memory keeps. -/

namespace Sys2Proof.Machine

/-- A byte after a store of `n` bytes from `a` on. -/
theorem readByte_putBytes (m : List Host.Cell) (a x n b : Nat) :
    readByte (putBytes m a x n) b =
      if a ≤ b ∧ b < a + n then BitVec.ofNat 8 (x >>> (8 * (b - a))) else readByte m b := by
  induction n with
  | zero => rw [if_neg (by omega)]; rfl
  | succ n ih =>
    simp only [readByte] at ih
    simp only [putBytes, readByte, mget_mset, ih]
    by_cases h : b = a + n
    · subst h; simp
    · by_cases h2 : a ≤ b ∧ b < a + n
      · have : a ≤ b ∧ b < a + (n + 1) := by omega
        simp [h, h2, this]
      · have : ¬ (a ≤ b ∧ b < a + (n + 1)) := by omega
        simp only [h, h2, this, if_false]

/-- A store leaves every other byte alone. -/
theorem readByte_putBytes_ne (m : List Host.Cell) (a x n b : Nat) (h : b < a ∨ a + n ≤ b) :
    readByte (putBytes m a x n) b = readByte m b := by
  rw [readByte_putBytes, if_neg (by omega)]

/-- A store keeps the canonical form. -/
theorem putBytes_wf (m : List Host.Cell) (a x n : Nat) (h : Memory.wf m = true) : Memory.wf (putBytes m a x n) = true := by
  induction n with
  | zero => exact h
  | succ n ih => exact mset_ok _ _ _ _ ih

/-- A byte after words were cleared. -/
theorem readByte_mclear (m : List Host.Cell) (lo hi b : Nat) :
    readByte (mclear lo hi m) b = if lo ≤ b ∧ b < hi then emptyByte else readByte m b := mget_mclear _ _ _ _ _

/-- Storing a word keeps the canonical form. -/
theorem putLine_wf (s : State) (a : Nat) (d : Line) (h : Memory.wf s.mem = true) : Memory.wf (s.putLine a d).mem = true :=
  putBytes_wf _ _ _ _ h

/-- Clearing words keeps the canonical form. -/
theorem clearLines_wf (s : State) (a n : Nat) (h : Memory.wf s.mem = true) : Memory.wf (s.clearLines a n).mem = true :=
  mclear_ok _ _ _ _ h

/-- A byte of memory after a word was stored. -/
theorem readByte_putLine (s : State) (a b : Nat) (d : Line) :
    readByte (s.putLine a d).mem b =
      if a / 32 * 32 ≤ b ∧ b < a / 32 * 32 + 32 then BitVec.ofNat 8 (d.toNat >>> (8 * (b - a / 32 * 32))) else readByte s.mem b :=
  readByte_putBytes _ _ _ _ _

/-- Memory at reset has the canonical form. -/
theorem reset_memory_wf : Memory.wf State.reset.mem = true := rfl

end Sys2Proof.Machine
end

