-- ==== Sys2Proof/Tests/Slice0.lean ====
section
/-! SUPPORT. The model's own tests: words of the spec's encodings (R265), one ill-formed command for each check of
`WellFormed`, and for every clause of every statement of `Sys2Proof/Certificates/Slice0/Obligations.lean` that has
hypotheses a state and operands that meet all of them together (`<statement>.witness<clause>`, one existential for
each way the clause can come out, the boundary values among them).  Left out are the ways that rest on a free value of `Config`
alone, and those that hash 64 KB or check an ML-DSA signature, which the kernel does not finish in useful time. -/

namespace Sys2Proof.Tests

set_option maxRecDepth 100000
set_option Elab.async false

open Sys2Proof.Machine


/-! ### Small tests of the decoder and of well-formedness -/

/-- The example words of R265, and neighbours that it does not name. -/
theorem test_xtz_examples :
    xtzDecode 0x00A1100B = some (.stm false 2 10) ∧ xtzDecode 0x0262900B = some (.stm true 5 6) ∧
    xtzDecode 0x0020250B = some (.bankrd 10 2) ∧ xtzDecode 0x0000052B = some (.take 10) ∧
    xtzDecode 0x0005902B = some (.ready 0 11) ∧ xtzDecode 0x00C5A02B = some (.delay 0 11 12) ∧
    xtzDecode 0x0005B52B = some (.cancel 10 11) := by decide

/-- LDM with rd 1, STM with funct7 2, BANKRD with rs1 1, TAKE with rs2 1, funct3 4 of each opcode (R265). -/
theorem test_xtz_refuses :
    xtzDecode 0x00A1008B = none ∧ xtzDecode 0x04A1100B = none ∧ xtzDecode 0x0020A50B = none ∧
    xtzDecode 0x0010052B = none ∧ xtzDecode 0x0000400B = none ∧ xtzDecode 0x0000402B = none := by decide

/-- No row of the opcode table has bits. -/
theorem test_table_has_no_bits : decodeTableWord 32 0 = none ∧ decodeTableWord 16 5 = none := by decide

/-- An ill-formed command for each check: a misaligned register, a low word of a counter at a high place, an
address outside the register range. -/
theorem test_wf_registers :
    (Instr.registerWrite .host 0x4200000002 0).wf = false ∧ (Instr.registerWrite .host 0x4300000000 0).wf = false ∧
    (Instr.counterLowRead .host 0x4200000084).wf = false ∧ (Instr.counterHighRead .host 0x4200000080).wf = false := by
  decide

/-- A Sync offset out of range, a sensor refresh of 68 values, a packet of 16 data flits, beat 16 of a training
operation. -/
theorem test_wf_counts :
    (Instr.mtSyncOffset (2 ^ 63)).wf = false ∧ (Instr.sensorRefresh (List.replicate 68 0)).wf = false ∧
    (Instr.packetHop (.inject .host { op := 2, addr := 0, data := List.replicate 16 0 })).wf = false ∧
    (Instr.packetHop (.response 0 .host { op := 2, addr := 0, data := List.replicate 16 0 } 0 0)).wf = false ∧
    (Instr.twWrrd .host 0 0 [(0, 16, 0)]).wf = false ∧ (Instr.twRd .host 0 0 [(0, 16, 0)]).wf = false := by decide

/-- 65 words of one SSI word time, an image of width 0 and an empty line, a mailbox of 17 words or of 65 bytes, a
frame of 63 bytes. -/
theorem test_wf_io :
    (Instr.ssiWordReady 0 0 (List.replicate 65 (0, 0, false))).wf = false ∧
    (Instr.cxpStreamPacket 0 (.header 0 4)).wf = false ∧ (Instr.cxpStreamPacket 0 (.pixels [] false)).wf = false ∧
    (Instr.mbxReceive 0 (List.replicate 17 0) 4).wf = false ∧ (Instr.mbxReceive 0 [] 65).wf = false ∧
    (Instr.ethFrameReceive 0 (List.replicate 63 0) true).wf = false := by decide

/-- A TLP over a 4 KB boundary, one over a doubleword of configuration space, an empty read, an empty completion. -/
theorem test_wf_host :
    (Instr.hostWrite (.bar 0) 4095 [none, none] false).wf = false ∧
    (Instr.hostWrite .config 3 [none, none] false).wf = false ∧ (Instr.hostRead (.bar 1) 0 0 1).wf = false ∧
    (Instr.dmaHostCompletion 0 (some ([], true))).wf = false := by decide

/-- Flash ranges that are no blocks, no pages or too long, and pattern 0 of the checker self-test. -/
theorem test_wf_boot :
    (Instr.erase false 0x100 0x10000).wf = false ∧ (Instr.program false 0x80 0x100).wf = false ∧
    (Instr.readFlash true 0 0x40001).wf = false ∧ (Instr.restart { checks := [(.other 3, 0)] }).wf = false ∧
    (Instr.porNRise false { a := { checks := [(1, 0)] } }).wf = false ∧
    (Instr.enableSections { checks := [(1, 0)] }).wf = false := by decide

/-- Their well-formed neighbours. -/
theorem test_wf_holds :
    (Instr.registerWrite .host 0x4200000004 0).wf = true ∧ (Instr.counterHighRead .host 0x4200000084).wf = true ∧
    (Instr.hostWrite (.bar 0) 4094 [none, none] false).wf = true ∧ (Instr.erase true 0x10000 0x20000).wf = true ∧
    (Instr.restart {}).wf = true ∧ (Instr.hostRead .config 8 4 3).wf = true := by decide

/-! ## Small helpers of the witnesses -/

def okOf {ε α : Type} : Except ε α → Option α | .ok a => some a | .error _ => none
def erOf {ε α : Type} : Except ε α → Option ε | .ok _ => none | .error a => some a
def nextOf {σ φ ρ : Type} : Host.Outcome σ φ ρ → Option σ | .next a => some a | _ => none
theorem pairEta2 {α β : Type} (e : α × β) : e = (e.1, e.2) := rfl
theorem pairEta3 {α β γ : Type} (e : α × β × γ) : e = (e.1, e.2.1, e.2.2) := rfl
theorem someGet {α : Type} (o : Option α) (h : o.isSome = true) : o = some (o.get h) := (Option.some_get h).symm
theorem someGet2 {α β : Type} (o : Option (α × β)) (h : o.isSome = true) : o = some ((o.get h).1, (o.get h).2) := (Option.some_get h).symm
theorem someGet3 {α β γ : Type} (o : Option (α × β × γ)) (h : o.isSome = true) : o = some ((o.get h).1, (o.get h).2.1, (o.get h).2.2) := (Option.some_get h).symm
theorem pairFst {α β : Type} (e : α × β) {b : β} (h : e.2 = b) : e = (e.1, b) := by cases h; rfl
theorem someGetFst {α β : Type} (o : Option (α × β)) {b : β} (h : o.isSome = true) (k : (o.get h).2 = b) : o = some ((o.get h).1, b) := by cases k; exact (Option.some_get h).symm
theorem nextGet {σ φ ρ : Type} (x : Host.Outcome σ φ ρ) (h : (nextOf x).isSome = true) : x = .next ((nextOf x).get h) := by cases x with | next a => rfl | fault a => cases h | refused a => cases h
theorem isSomeMod {α : Type} (l : List α) (k : Nat) (h : 0 < l.length) : (l[k % l.length]?).isSome = true := by rw [List.getElem?_eq_getElem (Nat.mod_lt _ h)]; rfl
theorem roomOk {a x : Nat} (h : a ≤ 9) : decide (a ≤ 9 + x) = true := decide_eq_true (Nat.le_trans h (Nat.le_add_right _ _))
theorem waitsOne {r n : Nat} {s u : State} (h : n = 1) (hw : ((s.waitGo r).region r).st = .wait) (hu : u = s.waitGo r) : waitsTo r n s u := by subst h; exact ⟨hw, hu⟩
theorem exEq {ε α : Type} {x y : Except ε α} (h : okOf x = okOf y ∧ erOf x = erOf y) : x = y := by cases x <;> cases y <;> simp_all [okOf, erOf]

/-! ## States the witnesses start from -/

def s0 : State := {}
def sDead : State := { regs := [(0xB00044, 0x20000000#32)] }
def sBooted : State := { regs := [(bootBase, 7#32)] }
def nextPort (t d : Nat) : Nat :=
  if t = d then 4 else if 64 ≤ t then 6 else
  let g := if d < 64 then d else (edgeMesh d).headD 0
  if t = g then 5 else if t % 8 < g % 8 then 1 else if g % 8 < t % 8 then 3 else if t < g then 2 else 0
def rtPath : Nat → Nat → Nat → Map Word32 → Map Word32
  | 0, _, _, m => m
  | f + 1, t, d, m =>
    let m := mupd 0 m (rtReg 0 t d) (fun v => setFld v (4 * (d % 8)) 4 (nextPort t d))
    match portHop t (nextPort t d) with
    | .next n => rtPath f n d m
    | _ => m
def rt (l : List (Nat × Nat)) (m : Map Word32 := []) : Map Word32 := l.foldl (fun m e => rtPath 24 e.2 e.1 (rtPath 24 e.1 e.2 m)) m
def regsOf (l : List (Nat × Word32)) (m : Map Word32) : Map Word32 := l.foldl (fun m e => mset 0 m e.1 e.2) m

/-! Witnesses of the statements about every command. -/

/-- Two commands wait. -/
def twoWait : State := { pending := [.stop 0, .signal 1] }
theorem witness_StepRunsTheFrontCommand :
    ∃ (c : Instr) (rest : List Instr) (s : State), s.pending = c :: rest := ⟨_, _, twoWait, rfl⟩
theorem witness_EveryStepGoesOnAndKeepsTheQueueInOrder :
    ∃ (c : Instr) (rest : List Instr) (s t : State), s.pending = c :: rest ∧ step s = .next t :=
  ⟨_, _, twoWait, _, rfl, nextGet _ (by decide +kernel)⟩
theorem witness_MachineTimeCountsWhereNothingIsCommanded :
    ∃ s : State, s.pending = [] ∧ (s.now + 1) % 2 ^ 64 = 0 := ⟨{ now := 2 ^ 64 - 1 }, rfl, rfl⟩
/-- Queue 3 holds two samples at a high watermark of two. -/
def twoHeld : State := { regs := [(queueBase 3, 1#32), (queueBase 3 + 0x1C, 2#32)], queues := [(3, { on := true, head := [{}, {}], hl := true })] }
theorem witness_EveryStepKeepsTheLevelsSettled :
    (∃ s t : State, s.settled = true ∧ step s = .next t) ∧
    (∃ (c : Instr) (s t : State) (e : Nat × Queue), exec c s = .next t ∧ e ∈ t.queues ∧ e.2.on = true ∧ e.2.hl = true) :=
  ⟨⟨{ twoHeld with pending := [.stop 0] }, _, by decide +kernel, nextGet _ (by decide +kernel)⟩,
   ⟨.stop 0, twoHeld, _, (3, { on := true, head := [{}, {}], hl := true }),
    nextGet _ (by decide +kernel), (by decide +kernel), rfl, rfl⟩⟩
theorem witness_TheFatalPathStopsTheEngines :
    ∃ (c : Instr) (s : State), stopsDead c = true ∧ s.dead = true ∧ s.settled = true :=
  ⟨.stop 0, { twoHeld with regs := (0xB00044, 0x20000000#32) :: twoHeld.regs }, by decide +kernel, by decide +kernel, by decide +kernel⟩

/-! Witnesses of `Obligations.CounterReadsLatchTheHighWord`. -/
namespace CounterReadsLatchTheHighWord

theorem witness0 :
    (∃ (m : Master) (addr : Addr) (d : Nat) (s : State) (lo : Word32) (hi : Word32), regRouter (regOffset addr) = some d ∧ s.findsWay m d ∧ regOffset addr % 4 = 0 ∧ counterLow (regOffset addr) = true ∧ (s.asked m (regOffset addr) 4).regPeek (regOffset addr) = some lo ∧ (s.asked m (regOffset addr) 4).regPeek (regOffset addr + 4) = some hi) :=
  ⟨(Sys2Proof.Master.loader : Master), (0x4200000080#40 : Addr), _, (s0 : State), _, _, someGet _ (by decide +kernel), (by unfold State.findsWay; decide +kernel), (by decide +kernel), (by decide +kernel), someGet _ (by decide +kernel), someGet _ (by decide +kernel)⟩

theorem witness1 :
    (∃ (m : Master) (addr : Addr) (d : Nat) (s : State) (live : Word32), regRouter (regOffset addr) = some d ∧ s.findsWay m d ∧ regOffset addr % 4 = 0 ∧ 4 ≤ regOffset addr ∧ counterLow (regOffset addr - 4) = true ∧ (s.asked m (regOffset addr) 4).regPeek (regOffset addr) = some live) :=
  ⟨(Sys2Proof.Master.loader : Master), (0x4200000084#40 : Addr), _, (s0 : State), _, someGet _ (by decide +kernel), (by unfold State.findsWay; decide +kernel), (by decide +kernel), (by decide +kernel), (by decide +kernel), someGet _ (by decide +kernel)⟩

theorem witness2 :
    (∃ (o : Nat) (s : State) (lo : Word32) (hi : Word32), o % 8 = 0 ∧ counterLow o = true ∧ s.regPeek o = some lo ∧ s.regPeek (o + 4) = some hi) :=
  ⟨(128 : Nat), (s0 : State), _, _, (by decide +kernel), (by decide +kernel), someGet _ (by decide +kernel), someGet _ (by decide +kernel)⟩

end CounterReadsLatchTheHighWord

/-! Witnesses of `Obligations.RegisterWritesActByTheirAccessCodes`. -/
namespace RegisterWritesActByTheirAccessCodes

def rw1 : State := { regs := [(4, 9#32), (0xC, 0xF5#32), (0x20, 0xFFFF1234#32), (0x800000, 1#32)] }

theorem witness0 :
    (∃ (m : Master) (addr : Addr) (v : Word32) (d : Nat) (s : State) (u : State) (st : Nat), regRouter (regOffset addr) = some d ∧ (s.asked m (regOffset addr) 5).regPut m (regOffset addr) 4 (BitVec.toNat v) false = (u, st) ∧ (m = Master.loader ∨ s.way (masterRouter m) d = none ∧ u.way d (masterRouter m) = none)) :=
  ⟨(Sys2Proof.Master.loader : Master), (0x4200000020#40 : Addr), (0x00000000#32 : Word32), _, (s0 : State), _, _, someGet _ (by decide +kernel), pairEta2 _, (by decide +kernel)⟩

theorem witness2 :
    (∃ (m : Master) (addr : Addr) (s : State), regRouter (regOffset addr) = none ∧ (m = Master.loader ∨ s.way (masterRouter m) (masterRouter m) = none)) :=
  ⟨(Sys2Proof.Master.loader : Master), (0x4200f00000#40 : Addr), (s0 : State), (by decide +kernel), (by decide +kernel)⟩

theorem witness3 :
    (∃ (o : Nat) (s : State), o % 4 = 0 ∧ s.regPeek o = none ∧ qDataOf o = none) :=
  ⟨(768 : Nat), (s0 : State), (by decide +kernel), (by decide +kernel), (by decide +kernel)⟩

theorem witness4 :
    (∃ (s : State), s.dead = false) :=
  ⟨(s0 : State), (by decide +kernel)⟩

theorem witness5 :
    (∃ (s : State), s.rb mioBase 0 = false) ∧
    (∃ (s : State), s.rb mioBase 0 = true) :=
  ⟨⟨(s0 : State), (by decide +kernel)⟩,
   ⟨(rw1 : State), (by decide +kernel)⟩⟩

end RegisterWritesActByTheirAccessCodes

/-! Witnesses of `Obligations.BorderArrivalsAndLandings`. -/
namespace BorderArrivalsAndLandings

def bd0 : State := { regions := [(0, { inWay := [(16, [(2, { v := 5 }), (3, { v := 6, e := true })]), (17, [(4, { v := 1 }), (4, { v := 2 })])], inFifo := [(16, [{ v := 9 }])], credUsed := [(5, 2), (70, 3)], credWay := [(16, [1, 3]), (17, [4, 4]), (66, [1]), (70, [1])] })], queues := [(2, { on := true, head := [{ c := { v := 7 } }], ll := true })], regs := [(queueBase 2, 1#32), (queueBase 2 + 8, 0x10020000#32)] }
def bdRun : State := { bd0 with regions := bd0.regions.map (fun e => (e.1, { e.2 with st := .run, a := { seq := [(0, 0x01000003#48)] } })), regs := (regionBase 0, 1#32) :: bd0.regs }
def bd1 : State := { regions := [(0, { flights := [{ cell := 4, left := 3, eff := .fx (some { v := 9 }) none (some (2, { v := 4 })), flag := some (true, false) }], cycles := 4 }), (5, { flights := [{ cell := 6, left := 1, eff := .fp none (some (1, { v := 9 })) none }] })] }
def bdNet : State := { bd0 with noc := { outstanding := [{ m := .tunnel 1, tag := 0, dest := 0, addr := 0, op := 0, epoch := !bd0.epoch, sent := 0 }] } }

theorem witness0 :
    (∃ (r : Fin 64) (i : Fin 72) (c : Chan) (pre : List (Nat × Chan)) (rest : List (Nat × Chan)) (s : State), s.dead = false ∧ (↑i : Nat) < 64 ∧ mget [] (s.region (↑r : Nat)).inWay (↑i : Nat) = pre ++ (4, c) :: rest ∧ (∀ (a : Nat × Chan), a ∈ pre → a.fst ≠ 4) ∧ s.tunnelHolds (↑r : Nat) (↑i : Nat) = false) ∧
    (∃ (r : Fin 64) (i : Fin 72) (c : Chan) (pre : List (Nat × Chan)) (rest : List (Nat × Chan)) (s : State), s.dead = false ∧ (↑i : Nat) < 64 ∧ mget [] (s.region (↑r : Nat)).inWay (↑i : Nat) = pre ++ (4, c) :: rest ∧ (∀ (a : Nat × Chan), a ∈ pre → a.fst ≠ 4) ∧ s.tunnelHolds (↑r : Nat) (↑i : Nat) = true) :=
  ⟨⟨(0 : Fin 64), (17 : Fin 72), ({ v := 0x00001#20, e := false, p := false } : Chan), ([] : List (Nat × Chan)), ([(4, { v := 0x00002#20, e := false, p := false })] : List (Nat × Chan)), (bd0 : State), (by decide +kernel), (by decide +kernel), (by decide +kernel), (by decide +kernel), (by decide +kernel)⟩,
   ⟨(0 : Fin 64), (17 : Fin 72), ({ v := 0x00001#20, e := false, p := false } : Chan), ([] : List (Nat × Chan)), ([(4, { v := 0x00002#20, e := false, p := false })] : List (Nat × Chan)), (bdNet : State), (by decide +kernel), (by decide +kernel), (by decide +kernel), (by decide +kernel), (by decide +kernel)⟩⟩

theorem witness1 :
    (∃ (r : Fin 64) (i : Fin 72) (s : State), s.dead = false ∧ s.resting (↑r : Nat) = true ∧ (↑i : Nat) < 64 ∧ (∀ (a : Nat × Chan), a ∈ mget [] (s.region (↑r : Nat)).inWay (↑i : Nat) → 1 ≤ a.fst ∧ a.fst ≤ 3)) :=
  ⟨(0 : Fin 64), (16 : Fin 72), (s0 : State), (by decide +kernel), (by decide +kernel), (by decide +kernel), (by decide +kernel)⟩

theorem witness2 :
    (∃ (r : Fin 64) (i : Fin 72) (s : State), s.dead = false ∧ s.resting (↑r : Nat) = true ∧ 64 ≤ (↑i : Nat) ∧ (∀ (a : Nat), a ∈ s.portLefts (↑r : Nat) ((↑i : Nat) - 64) → 1 ≤ a)) :=
  ⟨(0 : Fin 64), (66 : Fin 72), (s0 : State), (by decide +kernel), (by decide +kernel), (by decide +kernel), (by decide +kernel)⟩

theorem witness3 :
    (∃ (r : Fin 64) (o : Fin 72) (pre : List Nat) (rest : List Nat) (s : State), s.dead = false ∧ mget [] (s.region (↑r : Nat)).credWay (↑o : Nat) = pre ++ 4 :: rest ∧ (∀ (a : Nat), a ∈ pre → a ≠ 4) ∧ s.tunnelHolds (↑r : Nat) (↑o : Nat) = false) ∧
    (∃ (r : Fin 64) (o : Fin 72) (pre : List Nat) (rest : List Nat) (s : State), s.dead = false ∧ mget [] (s.region (↑r : Nat)).credWay (↑o : Nat) = pre ++ 4 :: rest ∧ (∀ (a : Nat), a ∈ pre → a ≠ 4) ∧ s.tunnelHolds (↑r : Nat) (↑o : Nat) = true) :=
  ⟨⟨(0 : Fin 64), (17 : Fin 72), ([] : List Nat), ([4] : List Nat), (bd0 : State), (by decide +kernel), (by decide +kernel), (by decide +kernel), (by decide +kernel)⟩,
   ⟨(0 : Fin 64), (17 : Fin 72), ([] : List Nat), ([4] : List Nat), (bdNet : State), (by decide +kernel), (by decide +kernel), (by decide +kernel), (by decide +kernel)⟩⟩

theorem witness4 :
    (∃ (r : Fin 64) (o : Fin 72) (s : State), s.dead = false ∧ s.resting (↑r : Nat) = true ∧ (∀ (a : Nat), a ∈ mget [] (s.region (↑r : Nat)).credWay (↑o : Nat) → 1 ≤ a ∧ a ≤ 3)) :=
  ⟨(0 : Fin 64), (16 : Fin 72), (s0 : State), (by decide +kernel), (by decide +kernel), (by decide +kernel)⟩

theorem witness5 :
    (∃ (r : Fin 64) (i : Fin 72) (s : State), s.dead = false ∧ s.resting (↑r : Nat) = false ∧ ((↑i : Nat) < 64 → ∀ (a : Nat × Chan), a ∈ mget [] (s.region (↑r : Nat)).inWay (↑i : Nat) → a.fst ≠ 4)) ∧
    (∃ (r : Fin 64) (i : Fin 72) (s : State), s.dead = false ∧ s.resting (↑r : Nat) = false ∧ (∀ (a : Nat), a ∈ mget [] (s.region (↑r : Nat)).credWay (↑i : Nat) → a ≠ 4)) :=
  ⟨⟨(0 : Fin 64), (16 : Fin 72), (bdRun : State), (by decide +kernel), (by decide +kernel), (by decide +kernel)⟩,
   ⟨(0 : Fin 64), (16 : Fin 72), (bdRun : State), (by decide +kernel), (by decide +kernel), (by decide +kernel)⟩⟩

theorem witness6 :
    (∃ (r : Fin 64) (s : State) (f : Flight), s.dead = false ∧ s.resting (↑r : Nat) = true ∧ (s.region (↑r : Nat)).flights = [f] ∧ 1 ≤ f.left ∧ (s.region (↑r : Nat)).rds = [] ∧ (s.region (↑r : Nat)).wrs = [] ∧ (s.region (↑r : Nat)).p1 = [] ∧ (s.region (↑r : Nat)).fixes = []) :=
  ⟨(0 : Fin 64), (bd1 : State), ((((bd1 : State)).region (↑((0 : Fin 64)) : Nat)).flights).head (by all_goals decide +kernel), (by decide +kernel), (by decide +kernel), (by decide +kernel), (by decide +kernel), (by decide +kernel), (by decide +kernel), (by decide +kernel), (by decide +kernel)⟩

end BorderArrivalsAndLandings

/-! Witnesses of `Obligations.AluOpcodesProduceTheirResults`. -/
namespace AluOpcodesProduceTheirResults

theorem witness0 :
    (∃ (c : Sample), BitVec.toNat c ≠ 0) ∧
    (∃ (c : Sample), BitVec.toNat c = 0) ∧
    (∃ (i : Nat), i < 20) :=
  ⟨⟨(0x00001#20 : Sample), (by decide +kernel)⟩,
   ⟨(0x00000#20 : Sample), (by decide +kernel)⟩,
   ⟨(0 : Nat), (by decide +kernel)⟩⟩

end AluOpcodesProduceTheirResults

/-! Witnesses of `Obligations.FixedToFloatIsExact`. -/
namespace FixedToFloatIsExact

theorem witness0 :
    (∃ (a : Sample) (q : Nat), q ≤ 19 ∧ a = 0) :=
  ⟨_, (0 : Nat), (by decide +kernel), rfl⟩

end FixedToFloatIsExact

/-! Witnesses of `Obligations.MultipliersAndAccumulatorsAreExact`. -/
namespace MultipliersAndAccumulatorsAreExact

theorem witness1 :
    (∃ (x : Machine.Acc) (u : Int), -2 ^ 39 ≤ u ∧ u ≤ 2 ^ 39 ∧ 2 ^ 47 ≤ x.v.toInt + u) ∧
    (∃ (x : Machine.Acc) (u : Int), -2 ^ 39 ≤ u ∧ u ≤ 2 ^ 39 ∧ x.v.toInt + u < -2 ^ 47) ∧
    (∃ (x : Machine.Acc) (u : Int), -2 ^ 39 ≤ u ∧ u ≤ 2 ^ 39 ∧ -2 ^ 47 ≤ x.v.toInt + u ∧ x.v.toInt + u < 2 ^ 47) :=
  ⟨⟨({ v := 0x7fffffffffff#48, gov := 0x0#2, ap := false } : Machine.Acc), (1 : Int), (by decide +kernel), (by decide +kernel), (by decide +kernel)⟩,
   ⟨({ v := 0x800000000000#48, gov := 0x0#2, ap := true } : Machine.Acc), (-1 : Int), (by decide +kernel), (by decide +kernel), (by decide +kernel)⟩,
   ⟨({ v := 0x000000000000#48, gov := 0x0#2, ap := false } : Machine.Acc), (0 : Int), (by decide +kernel), (by decide +kernel), (by decide +kernel), (by decide +kernel)⟩⟩

theorem witness2 :
    (∃ (x : Machine.Acc) (n : Nat), n < 48 ∧ x.gov = 1) ∧
    (∃ (x : Machine.Acc) (n : Nat), n < 48 ∧ x.gov = 2) ∧
    (∃ (x : Machine.Acc) (n : Nat), n < 48 ∧ x.gov = 0) :=
  ⟨⟨({ v := 0x000000000005#48, gov := 0x1#2, ap := false } : Machine.Acc), (0 : Nat), (by decide +kernel), (by decide +kernel)⟩,
   ⟨({ v := 0xffffffffffff#48, gov := 0x2#2, ap := false } : Machine.Acc), (0 : Nat), (by decide +kernel), (by decide +kernel)⟩,
   ⟨({ v := 0x000000000000#48, gov := 0x0#2, ap := false } : Machine.Acc), (0 : Nat), (by decide +kernel), (by decide +kernel)⟩⟩

end MultipliersAndAccumulatorsAreExact

/-! Witnesses of `Obligations.LoopAndHaltInstructionsRun`. -/
namespace LoopAndHaltInstructionsRun

def seqSt (w : BitVec 48) (x : Region) : State := { regs := [(0, 1#32), (0x28, 0#32), (0x30, 0x40005#32), (0x34, 0x302#32)], regions := [(0, { x with a := { x.a with seq := if w = 0 then x.a.seq else mset 0 x.a.seq x.pc w } })] }
def lp1 : LoopEnt := { start := 3, stop := 7, count := 2 }
def lpf : LoopEnt := { start := 3, stop := 7, count := 2, frozen := true }
def insW (op ctx lo : Nat) : BitVec 48 := BitVec.ofNat 48 (op * 2 ^ 44 + ctx * 2 ^ 40 + lo)

theorem witness0 :
    (∃ (r : Fin 64) (c : Instr) (op : Nat) (s : State), s.dead = false ∧ (c = Instr.halt r ∧ op = 0 ∨ c = Instr.repeatBlock r ∧ op = 2 ∨ c = Instr.shift r ∧ op = 6 ∨ c = Instr.signal r ∧ op = 7) ∧ (s.passEntry (↑r : Nat)).occupies (↑r : Nat) op = false) :=
  ⟨(0 : Fin 64), (Sys2Proof.Instr.halt 0 : Instr), (0 : Nat), (s0 : State), (by decide +kernel), (by decide +kernel), (by decide +kernel)⟩

namespace C1
def stCtx : Half := { ctx := [(0, BitVec.ofNat 128 (1 * 2 ^ 0 + 38 * 2 ^ 7 + 2 ^ 28))] }

theorem witness1 :
    (∃ (r : Fin 64) (c : Instr) (op : Nat) (s : State) (u : State), s.dead = false ∧ (s.passEntry (↑r : Nat)).occupies (↑r : Nat) op = true ∧ (c = Instr.repeatBlock r ∧ op = 2 ∨ c = Instr.branch (r, 0) ∧ op = 3 ∧ bit ((s.passEntry (↑r : Nat)).instrAt (↑r : Nat)) 39 = false ∨ c = Instr.rete (r, 0) ∧ op = 3 ∧ bit ((s.passEntry (↑r : Nat)).instrAt (↑r : Nat)) 39 = true ∨ c = Instr.shift r ∧ op = 6 ∨ c = Instr.signal r ∧ op = 7 ∨ c = Instr.lstkSave r ∧ op = 8 ∧ bit ((s.passEntry (↑r : Nat)).instrAt (↑r : Nat)) 0 = false ∨ c = Instr.lstkRestore r ∧ op = 8 ∧ bit ((s.passEntry (↑r : Nat)).instrAt (↑r : Nat)) 0 = true) ∧ (s.passEntry (↑r : Nat)).regionCycle (↑r : Nat) (iCtx ((s.passEntry (↑r : Nat)).instrAt (↑r : Nat))) = (u, true)) :=
  ⟨(0 : Fin 64), (Sys2Proof.Instr.repeatBlock 0 : Instr), (2 : Nat), (seqSt (insW 2 0 0) { st := .run, pc := 7, a := stCtx } : State), _, (by decide +kernel), (by decide +kernel), (by decide +kernel), pairFst _ (by decide +kernel)⟩

end C1

theorem witness2 :
    (∃ (r : Fin 64) (s : State), s.dead = false ∧ (s.passEntry (↑r : Nat)).occupies (↑r : Nat) 0 = true) :=
  ⟨(0 : Fin 64), (seqSt 0 { st := .run, pc := 4 } : State), (by decide +kernel), (by decide +kernel)⟩

theorem witness3 :
    (∃ (r : Fin 64) (s : State) (u : State), s.dead = false ∧ (s.passEntry (↑r : Nat)).occupies (↑r : Nat) 2 = true ∧ (s.passEntry (↑r : Nat)).oneCycle (↑r : Nat) = (u, true) ∧ (∃ (x : LoopEnt), x ∈ (u.region (↑r : Nat)).stack ∧ x.frozen = true)) ∧
    (∃ (r : Fin 64) (s : State) (u : State), s.dead = false ∧ (s.passEntry (↑r : Nat)).occupies (↑r : Nat) 2 = true ∧ (s.passEntry (↑r : Nat)).oneCycle (↑r : Nat) = (u, true) ∧ (∀ (x : LoopEnt), x ∈ (u.region (↑r : Nat)).stack → x.frozen = false) ∧ 4 ≤ (u.region (↑r : Nat)).stack.length) ∧
    (∃ (r : Fin 64) (s : State) (u : State), s.dead = false ∧ (s.passEntry (↑r : Nat)).occupies (↑r : Nat) 2 = true ∧ (s.passEntry (↑r : Nat)).oneCycle (↑r : Nat) = (u, true) ∧ (∀ (x : LoopEnt), x ∈ (u.region (↑r : Nat)).stack → x.frozen = false) ∧ (u.region (↑r : Nat)).stack.length < 4 ∧ (min 65536 (if bit ((s.passEntry (↑r : Nat)).instrAt (↑r : Nat)) 38 = true then u.rf (regionBase (↑r : Nat) + 40) 0 17 else fld ((s.passEntry (↑r : Nat)).instrAt (↑r : Nat)) 0 17) = 0)) ∧
    (∃ (r : Fin 64) (s : State) (u : State), s.dead = false ∧ (s.passEntry (↑r : Nat)).occupies (↑r : Nat) 2 = true ∧ (s.passEntry (↑r : Nat)).oneCycle (↑r : Nat) = (u, true) ∧ (∀ (x : LoopEnt), x ∈ (u.region (↑r : Nat)).stack → x.frozen = false) ∧ (u.region (↑r : Nat)).stack.length < 4 ∧ (min 65536 (if bit ((s.passEntry (↑r : Nat)).instrAt (↑r : Nat)) 38 = true then u.rf (regionBase (↑r : Nat) + 40) 0 17 else fld ((s.passEntry (↑r : Nat)).instrAt (↑r : Nat)) 0 17) ≠ 0)) :=
  ⟨⟨(0 : Fin 64), (seqSt (insW 2 0 (9 * 2 ^ 24 + 5)) { st := .run, pc := 7, stack := [lpf] } : State), _, (by decide +kernel), (by decide +kernel), pairFst _ (by decide +kernel), (by decide +kernel)⟩,
   ⟨(0 : Fin 64), (seqSt (insW 2 0 (9 * 2 ^ 24 + 5)) { st := .stall, pc := 7, stack := [lp1, lp1, lp1, lp1] } : State), _, (by decide +kernel), (by decide +kernel), pairFst _ (by decide +kernel), (by decide +kernel), (by decide +kernel)⟩,
   ⟨(0 : Fin 64), (seqSt (insW 2 0 (9 * 2 ^ 24 + 2 ^ 38)) { st := .run, pc := 7, stack := [lp1] } : State), _, (by decide +kernel), (by decide +kernel), pairFst _ (by decide +kernel), (by decide +kernel), (by decide +kernel), (by decide +kernel)⟩,
   ⟨(0 : Fin 64), (seqSt (insW 2 0 (9 * 2 ^ 24 + 5)) { st := .run, pc := 7, stack := [lp1] } : State), _, (by decide +kernel), (by decide +kernel), pairFst _ (by decide +kernel), (by decide +kernel), (by decide +kernel), (by decide +kernel)⟩⟩

theorem witness4 :
    (∃ (r : Fin 64) (s : State) (n : Nat) (u : State), s.dead = false ∧ (s.passEntry (↑r : Nat)).occupies (↑r : Nat) 8 = true ∧ bit ((s.passEntry (↑r : Nat)).instrAt (↑r : Nat)) 0 = false ∧ (∀ (x : LoopEnt), x ∈ (endMatch ((s.passEntry (↑r : Nat)).region (↑r : Nat)).pc (u.region (↑r : Nat)).stack).snd → x.count < 2 ^ 17 ∧ x.start < 256 ∧ x.stop < 256) ∧ (endMatch ((s.passEntry (↑r : Nat)).region (↑r : Nat)).pc (u.region (↑r : Nat)).stack).snd.length ≤ 4 ∧ (s.passEntry (↑r : Nat)).oneCycle (↑r : Nat) = (u, true) ∧ n < 4) ∧
    (∃ (r : Fin 64) (s : State) (n : Nat) (u : State) (x : LoopEnt), s.dead = false ∧ (s.passEntry (↑r : Nat)).occupies (↑r : Nat) 8 = true ∧ bit ((s.passEntry (↑r : Nat)).instrAt (↑r : Nat)) 0 = false ∧ (∀ (x : LoopEnt), x ∈ (endMatch ((s.passEntry (↑r : Nat)).region (↑r : Nat)).pc (u.region (↑r : Nat)).stack).snd → x.count < 2 ^ 17 ∧ x.start < 256 ∧ x.stop < 256) ∧ (endMatch ((s.passEntry (↑r : Nat)).region (↑r : Nat)).pc (u.region (↑r : Nat)).stack).snd.length ≤ 4 ∧ (s.passEntry (↑r : Nat)).oneCycle (↑r : Nat) = (u, true) ∧ (endMatch ((s.passEntry (↑r : Nat)).region (↑r : Nat)).pc (u.region (↑r : Nat)).stack).snd.reverse[n]? = some x) ∧
    (∃ (r : Fin 64) (s : State) (o : Nat) (u : State), s.dead = false ∧ (s.passEntry (↑r : Nat)).occupies (↑r : Nat) 8 = true ∧ bit ((s.passEntry (↑r : Nat)).instrAt (↑r : Nat)) 0 = false ∧ (s.passEntry (↑r : Nat)).oneCycle (↑r : Nat) = (u, true) ∧ (o < regionBase (↑r : Nat) + 48 ∨ regionBase (↑r : Nat) + 80 ≤ o)) :=
  ⟨⟨(0 : Fin 64), (seqSt (insW 8 0 0) { st := .run, pc := 7, stack := [lp1, lp1] } : State), (0 : Nat), _, (by decide +kernel), (by decide +kernel), (by decide +kernel), (by decide +kernel), (by decide +kernel), pairFst _ (by decide +kernel), (by decide +kernel)⟩,
   ⟨(0 : Fin 64), (seqSt (insW 8 0 0) { st := .run, pc := 7, stack := [lp1, lp1] } : State), (0 : Nat), _, _, (by decide +kernel), (by decide +kernel), (by decide +kernel), (by decide +kernel), (by decide +kernel), pairFst _ (by decide +kernel), someGet _ (by decide +kernel)⟩,
   ⟨(0 : Fin 64), (seqSt (insW 8 0 0) { st := .run, pc := 7, stack := [lp1, lp1] } : State), (0 : Nat), _, (by decide +kernel), (by decide +kernel), (by decide +kernel), pairFst _ (by decide +kernel), (by decide +kernel)⟩⟩

theorem witness5 :
    (∃ (r : Fin 64) (s : State) (u : State), s.dead = false ∧ (s.passEntry (↑r : Nat)).occupies (↑r : Nat) 8 = true ∧ bit ((s.passEntry (↑r : Nat)).instrAt (↑r : Nat)) 0 = true ∧ (s.passEntry (↑r : Nat)).oneCycle (↑r : Nat) = (u, true)) :=
  ⟨(0 : Fin 64), (seqSt (insW 8 0 1) { st := .run, pc := 7, stack := [lp1, lp1] } : State), _, (by decide +kernel), (by decide +kernel), (by decide +kernel), pairFst _ (by decide +kernel)⟩

end LoopAndHaltInstructionsRun

/-! Witnesses of `Obligations.RunIssuesItsCyclesAndEnds`. -/
namespace RunIssuesItsCyclesAndEnds

def seqSt (w : BitVec 48) (x : Region) : State := { regs := [(0, 1#32)], regions := [(0, { x with a := { x.a with seq := if w = 0 then x.a.seq else mset 0 x.a.seq x.pc w } })] }
def lp1 : LoopEnt := { start := 3, stop := 7, count := 2 }
def insW (op ctx lo : Nat) : BitVec 48 := BitVec.ofNat 48 (op * 2 ^ 44 + ctx * 2 ^ 40 + lo)

theorem witness0 :
    (∃ (r : Fin 64) (s : State), s.dead = false ∧ (s.passEntry (↑r : Nat)).occupies (↑r : Nat) 1 = true) :=
  ⟨(0 : Fin 64), (seqSt (insW 1 0 2) { st := .run, pc := 7, stack := [lp1] } : State), (by decide +kernel), (by decide +kernel)⟩

theorem witness1 :
    (∃ (r : Fin 64) (s : State), s.dead = false ∧ (s.passEntry (↑r : Nat)).occupies (↑r : Nat) 1 = false) :=
  ⟨(0 : Fin 64), (s0 : State), (by decide +kernel), (by decide +kernel)⟩

end RunIssuesItsCyclesAndEnds

/-! Witnesses of `Obligations.BranchesRunTheirDelaySlot`. -/
namespace BranchesRunTheirDelaySlot

def lp1 : LoopEnt := { start := 3, stop := 7, count := 2 }
def lpf : LoopEnt := { start := 3, stop := 7, count := 2, frozen := true }
def insW (op ctx lo : Nat) : BitVec 48 := BitVec.ofNat 48 (op * 2 ^ 44 + ctx * 2 ^ 40 + lo)
def brNo (lo : Nat) (x : Region) : State := { regs := [(0, 1#32), (0xC, 5#32)], regions := [(0, { x with a := { seq := [(7, insW 3 0 lo), (8, insW 7 0 2)] }, st := .run, pc := 7 })] }
def brSt (lo : Nat) (x : Region) : State := { regs := [(0, 1#32), (0xC, 5#32)], regions := [(0, { x with a := { seq := [(7, insW 3 0 lo), (8, insW 1 0 2)] }, st := .run, pc := 7 })] }

theorem witness0 :
    (∃ (r : Fin 64) (back : Bool) (s : State), s.dead = false ∧ ((s.passEntry (↑r : Nat)).occupies (↑r : Nat) 3 = false ∨ bit ((s.passEntry (↑r : Nat)).instrAt (↑r : Nat)) 39 ≠ back)) :=
  ⟨(0 : Fin 64), (false : Bool), (s0 : State), (by decide +kernel), (by decide +kernel)⟩

theorem witness1 :
    (∃ (r : Fin 64) (s : State) (back : Bool) (u : State), s.dead = false ∧ (s.passEntry (↑r : Nat)).occupies (↑r : Nat) 3 = true ∧ bit ((s.passEntry (↑r : Nat)).instrAt (↑r : Nat)) 39 = back ∧ (s.passEntry (↑r : Nat)).oneCycle (↑r : Nat) = (u, true) ∧ ((s.passEntry (↑r : Nat)).condition (↑r : Nat) (fld ((s.passEntry (↑r : Nat)).instrAt (↑r : Nat)) 32 5)).snd = true) ∧
    (∃ (r : Fin 64) (s : State) (back : Bool) (u : State), s.dead = false ∧ (s.passEntry (↑r : Nat)).occupies (↑r : Nat) 3 = true ∧ bit ((s.passEntry (↑r : Nat)).instrAt (↑r : Nat)) 39 = back ∧ (s.passEntry (↑r : Nat)).oneCycle (↑r : Nat) = (u, true) ∧ ((s.passEntry (↑r : Nat)).condition (↑r : Nat) (fld ((s.passEntry (↑r : Nat)).instrAt (↑r : Nat)) 32 5)).snd = false ∧ ((s.passEntry (↑r : Nat)).condition (↑r : Nat) (fld ((s.passEntry (↑r : Nat)).instrAt (↑r : Nat)) 32 5)).fst = bit ((s.passEntry (↑r : Nat)).instrAt (↑r : Nat)) 38 ∧ (iOp ((u.onRegion (↑r : Nat) fun (x : Region) => { x with st := SeqState.run, pc := ((s.passEntry (↑r : Nat)).region (↑r : Nat)).pc + 1, delay := some { target := ((s.passEntry (↑r : Nat)).region (↑r : Nat)).pc + 2, rete := false : DelaySlot } }).instrAt (↑r : Nat)) = 1)) ∧
    (∃ (r : Fin 64) (s : State) (back : Bool) (u : State), s.dead = false ∧ (s.passEntry (↑r : Nat)).occupies (↑r : Nat) 3 = true ∧ bit ((s.passEntry (↑r : Nat)).instrAt (↑r : Nat)) 39 = back ∧ (s.passEntry (↑r : Nat)).oneCycle (↑r : Nat) = (u, true) ∧ ((s.passEntry (↑r : Nat)).condition (↑r : Nat) (fld ((s.passEntry (↑r : Nat)).instrAt (↑r : Nat)) 32 5)).snd = false ∧ ((s.passEntry (↑r : Nat)).condition (↑r : Nat) (fld ((s.passEntry (↑r : Nat)).instrAt (↑r : Nat)) 32 5)).fst = bit ((s.passEntry (↑r : Nat)).instrAt (↑r : Nat)) 38 ∧ (iOp ((u.onRegion (↑r : Nat) fun (x : Region) => { x with st := SeqState.run, pc := ((s.passEntry (↑r : Nat)).region (↑r : Nat)).pc + 1, delay := some { target := ((s.passEntry (↑r : Nat)).region (↑r : Nat)).pc + 2, rete := false : DelaySlot } }).instrAt (↑r : Nat)) ≠ 1)) ∧
    (∃ (r : Fin 64) (s : State) (back : Bool) (u : State), s.dead = false ∧ (s.passEntry (↑r : Nat)).occupies (↑r : Nat) 3 = true ∧ bit ((s.passEntry (↑r : Nat)).instrAt (↑r : Nat)) 39 = back ∧ (s.passEntry (↑r : Nat)).oneCycle (↑r : Nat) = (u, true) ∧ ((s.passEntry (↑r : Nat)).condition (↑r : Nat) (fld ((s.passEntry (↑r : Nat)).instrAt (↑r : Nat)) 32 5)).snd = false ∧ ((s.passEntry (↑r : Nat)).condition (↑r : Nat) (fld ((s.passEntry (↑r : Nat)).instrAt (↑r : Nat)) 32 5)).fst ≠ bit ((s.passEntry (↑r : Nat)).instrAt (↑r : Nat)) 38 ∧ back = true ∧ (u.region (↑r : Nat)).inh = false) ∧
    (∃ (r : Fin 64) (s : State) (back : Bool) (u : State), s.dead = false ∧ (s.passEntry (↑r : Nat)).occupies (↑r : Nat) 3 = true ∧ bit ((s.passEntry (↑r : Nat)).instrAt (↑r : Nat)) 39 = back ∧ (s.passEntry (↑r : Nat)).oneCycle (↑r : Nat) = (u, true) ∧ ((s.passEntry (↑r : Nat)).condition (↑r : Nat) (fld ((s.passEntry (↑r : Nat)).instrAt (↑r : Nat)) 32 5)).snd = false ∧ ((s.passEntry (↑r : Nat)).condition (↑r : Nat) (fld ((s.passEntry (↑r : Nat)).instrAt (↑r : Nat)) 32 5)).fst ≠ bit ((s.passEntry (↑r : Nat)).instrAt (↑r : Nat)) 38 ∧ (back = false ∨ (u.region (↑r : Nat)).inh = true) ∧ (u.region (↑r : Nat)).stack.length < fld ((s.passEntry (↑r : Nat)).instrAt (↑r : Nat)) 16 3) ∧
    (∃ (r : Fin 64) (s : State) (back : Bool) (u : State), s.dead = false ∧ (s.passEntry (↑r : Nat)).occupies (↑r : Nat) 3 = true ∧ bit ((s.passEntry (↑r : Nat)).instrAt (↑r : Nat)) 39 = back ∧ (s.passEntry (↑r : Nat)).oneCycle (↑r : Nat) = (u, true) ∧ ((s.passEntry (↑r : Nat)).condition (↑r : Nat) (fld ((s.passEntry (↑r : Nat)).instrAt (↑r : Nat)) 32 5)).snd = false ∧ ((s.passEntry (↑r : Nat)).condition (↑r : Nat) (fld ((s.passEntry (↑r : Nat)).instrAt (↑r : Nat)) 32 5)).fst ≠ bit ((s.passEntry (↑r : Nat)).instrAt (↑r : Nat)) 38 ∧ (back = false ∨ (u.region (↑r : Nat)).inh = true) ∧ fld ((s.passEntry (↑r : Nat)).instrAt (↑r : Nat)) 16 3 ≤ (u.region (↑r : Nat)).stack.length ∧ (∃ (l : LoopEnt), l ∈ List.take (fld ((s.passEntry (↑r : Nat)).instrAt (↑r : Nat)) 16 3) (u.region (↑r : Nat)).stack ∧ l.frozen = true)) ∧
    (∃ (r : Fin 64) (s : State) (back : Bool) (u : State), s.dead = false ∧ (s.passEntry (↑r : Nat)).occupies (↑r : Nat) 3 = true ∧ bit ((s.passEntry (↑r : Nat)).instrAt (↑r : Nat)) 39 = back ∧ (s.passEntry (↑r : Nat)).oneCycle (↑r : Nat) = (u, true) ∧ ((s.passEntry (↑r : Nat)).condition (↑r : Nat) (fld ((s.passEntry (↑r : Nat)).instrAt (↑r : Nat)) 32 5)).snd = false ∧ ((s.passEntry (↑r : Nat)).condition (↑r : Nat) (fld ((s.passEntry (↑r : Nat)).instrAt (↑r : Nat)) 32 5)).fst ≠ bit ((s.passEntry (↑r : Nat)).instrAt (↑r : Nat)) 38 ∧ (back = false ∨ (u.region (↑r : Nat)).inh = true) ∧ fld ((s.passEntry (↑r : Nat)).instrAt (↑r : Nat)) 16 3 ≤ (u.region (↑r : Nat)).stack.length ∧ (∀ (l : LoopEnt), l ∈ List.take (fld ((s.passEntry (↑r : Nat)).instrAt (↑r : Nat)) 16 3) (u.region (↑r : Nat)).stack → l.frozen = false) ∧ (iOp ((if (bit ((s.passEntry (↑r : Nat)).instrAt (↑r : Nat)) 37 && decide (17 ≤ fld ((s.passEntry (↑r : Nat)).instrAt (↑r : Nat)) 32 5) && decide (fld ((s.passEntry (↑r : Nat)).instrAt (↑r : Nat)) 32 5 ≤ 24)) = true then (u.onRegion (↑r : Nat) fun (x : Region) => { x with st := SeqState.run, pc := ((s.passEntry (↑r : Nat)).region (↑r : Nat)).pc + 1, stack := List.drop (fld ((s.passEntry (↑r : Nat)).instrAt (↑r : Nat)) 16 3) x.stack, delay := some { target := if back = true then x.evtRet else fld ((s.passEntry (↑r : Nat)).instrAt (↑r : Nat)) 24 8, rete := back : DelaySlot } }).setRb (regionBase (↑r : Nat) + 12) (fld ((s.passEntry (↑r : Nat)).instrAt (↑r : Nat)) 32 5 - 17) false else u.onRegion (↑r : Nat) fun (x : Region) => { x with st := SeqState.run, pc := ((s.passEntry (↑r : Nat)).region (↑r : Nat)).pc + 1, stack := List.drop (fld ((s.passEntry (↑r : Nat)).instrAt (↑r : Nat)) 16 3) x.stack, delay := some { target := if back = true then x.evtRet else fld ((s.passEntry (↑r : Nat)).instrAt (↑r : Nat)) 24 8, rete := back : DelaySlot } }).instrAt (↑r : Nat)) = 1)) ∧
    (∃ (r : Fin 64) (s : State) (back : Bool) (u : State), s.dead = false ∧ (s.passEntry (↑r : Nat)).occupies (↑r : Nat) 3 = true ∧ bit ((s.passEntry (↑r : Nat)).instrAt (↑r : Nat)) 39 = back ∧ (s.passEntry (↑r : Nat)).oneCycle (↑r : Nat) = (u, true) ∧ ((s.passEntry (↑r : Nat)).condition (↑r : Nat) (fld ((s.passEntry (↑r : Nat)).instrAt (↑r : Nat)) 32 5)).snd = false ∧ ((s.passEntry (↑r : Nat)).condition (↑r : Nat) (fld ((s.passEntry (↑r : Nat)).instrAt (↑r : Nat)) 32 5)).fst ≠ bit ((s.passEntry (↑r : Nat)).instrAt (↑r : Nat)) 38 ∧ (back = false ∨ (u.region (↑r : Nat)).inh = true) ∧ fld ((s.passEntry (↑r : Nat)).instrAt (↑r : Nat)) 16 3 ≤ (u.region (↑r : Nat)).stack.length ∧ (∀ (l : LoopEnt), l ∈ List.take (fld ((s.passEntry (↑r : Nat)).instrAt (↑r : Nat)) 16 3) (u.region (↑r : Nat)).stack → l.frozen = false) ∧ (iOp ((if (bit ((s.passEntry (↑r : Nat)).instrAt (↑r : Nat)) 37 && decide (17 ≤ fld ((s.passEntry (↑r : Nat)).instrAt (↑r : Nat)) 32 5) && decide (fld ((s.passEntry (↑r : Nat)).instrAt (↑r : Nat)) 32 5 ≤ 24)) = true then (u.onRegion (↑r : Nat) fun (x : Region) => { x with st := SeqState.run, pc := ((s.passEntry (↑r : Nat)).region (↑r : Nat)).pc + 1, stack := List.drop (fld ((s.passEntry (↑r : Nat)).instrAt (↑r : Nat)) 16 3) x.stack, delay := some { target := if back = true then x.evtRet else fld ((s.passEntry (↑r : Nat)).instrAt (↑r : Nat)) 24 8, rete := back : DelaySlot } }).setRb (regionBase (↑r : Nat) + 12) (fld ((s.passEntry (↑r : Nat)).instrAt (↑r : Nat)) 32 5 - 17) false else u.onRegion (↑r : Nat) fun (x : Region) => { x with st := SeqState.run, pc := ((s.passEntry (↑r : Nat)).region (↑r : Nat)).pc + 1, stack := List.drop (fld ((s.passEntry (↑r : Nat)).instrAt (↑r : Nat)) 16 3) x.stack, delay := some { target := if back = true then x.evtRet else fld ((s.passEntry (↑r : Nat)).instrAt (↑r : Nat)) 24 8, rete := back : DelaySlot } }).instrAt (↑r : Nat)) ≠ 1)) :=
  ⟨⟨(0 : Fin 64), (brSt (20 * 2 ^ 24 + 2 ^ 32) { flags := [(0, (true, true))] } : State), _, _, (by decide +kernel), (by decide +kernel), rfl, pairFst _ (by decide +kernel), (by decide +kernel)⟩,
   ⟨(0 : Fin 64), (brSt (20 * 2 ^ 24 + 2 ^ 32) { flags := [(0, (false, false))] } : State), _, _, (by decide +kernel), (by decide +kernel), rfl, pairFst _ (by decide +kernel), (by decide +kernel), (by decide +kernel), (by decide +kernel)⟩,
   ⟨(0 : Fin 64), (brNo (20 * 2 ^ 24 + 2 ^ 38) { stack := [lp1] } : State), _, _, (by decide +kernel), (by decide +kernel), rfl, pairFst _ (by decide +kernel), (by decide +kernel), (by decide +kernel), (by decide +kernel)⟩,
   ⟨(0 : Fin 64), (brSt (2 ^ 39) { stack := [lp1] } : State), _, _, (by decide +kernel), (by decide +kernel), rfl, pairFst _ (by decide +kernel), (by decide +kernel), (by decide +kernel), (by decide +kernel), (by decide +kernel)⟩,
   ⟨(0 : Fin 64), (brSt (20 * 2 ^ 24 + 2 ^ 17) { stack := [lp1] } : State), _, _, (by decide +kernel), (by decide +kernel), rfl, pairFst _ (by decide +kernel), (by decide +kernel), (by decide +kernel), (by decide +kernel), (by decide +kernel)⟩,
   ⟨(0 : Fin 64), (brSt (20 * 2 ^ 24 + 2 ^ 16) { stack := [lpf] } : State), _, _, (by decide +kernel), (by decide +kernel), rfl, pairFst _ (by decide +kernel), (by decide +kernel), (by decide +kernel), (by decide +kernel), (by decide +kernel), (by decide +kernel)⟩,
   ⟨(0 : Fin 64), (brSt (20 * 2 ^ 24) { stack := [lp1] } : State), _, _, (by decide +kernel), (by decide +kernel), rfl, pairFst _ (by decide +kernel), (by decide +kernel), (by decide +kernel), (by decide +kernel), (by decide +kernel), (by decide +kernel), (by decide +kernel)⟩,
   ⟨(0 : Fin 64), (brNo (20 * 2 ^ 24) { stack := [lp1] } : State), _, _, (by decide +kernel), (by decide +kernel), rfl, pairFst _ (by decide +kernel), (by decide +kernel), (by decide +kernel), (by decide +kernel), (by decide +kernel), (by decide +kernel), (by decide +kernel)⟩⟩

end BranchesRunTheirDelaySlot

/-! Witnesses of `Obligations.WaitsEndAsTheBorderStands`. -/
namespace WaitsEndAsTheBorderStands

def insW (op ctx lo : Nat) : BitVec 48 := BitVec.ofNat 48 (op * 2 ^ 44 + ctx * 2 ^ 40 + lo)
def waEv (op lo : Nat) (st : SeqState) (w : Nat) : State := { regs := [(0, 1#32), (0xC, 0xFF#32), (0x10, 0xFF#32)], regions := [(0, { a := { seq := [(7, insW op 0 lo)], evtEn := 0xFF, vec := [(0, 9#8)] }, pc := 7, st := st, waited := w })] }
def waSt (lo : Nat) (x : Region) : State := { regs := [(0, 1#32), (0xC, 5#32)], regions := [(0, { x with a := { seq := [(7, insW 4 0 lo)] }, pc := 7 })] }

theorem witness0 :
    (∃ (r : Fin 64) (s : State), s.dead = false ∧ (s.passEntry (↑r : Nat)).atWait (↑r : Nat) = true ∧ ((s.passEntry (↑r : Nat)).borderTick (↑r : Nat)).waitHolds (↑r : Nat) ((s.passEntry (↑r : Nat)).instrAt (↑r : Nat)) = true) ∧
    (∃ (r : Fin 64) (s : State), s.dead = false ∧ (s.passEntry (↑r : Nat)).atWait (↑r : Nat) = true ∧ ((s.passEntry (↑r : Nat)).borderTick (↑r : Nat)).waitHolds (↑r : Nat) ((s.passEntry (↑r : Nat)).instrAt (↑r : Nat)) = false ∧ fld ((s.passEntry (↑r : Nat)).instrAt (↑r : Nat)) 0 16 ≠ 0 ∧ fld ((s.passEntry (↑r : Nat)).instrAt (↑r : Nat)) 0 16 ≤ ((s.passEntry (↑r : Nat)).region (↑r : Nat)).waited + 1) ∧
    (∃ (r : Fin 64) (s : State), s.dead = false ∧ (s.passEntry (↑r : Nat)).atWait (↑r : Nat) = true ∧ ((s.passEntry (↑r : Nat)).borderTick (↑r : Nat)).waitHolds (↑r : Nat) ((s.passEntry (↑r : Nat)).instrAt (↑r : Nat)) = false ∧ fld ((s.passEntry (↑r : Nat)).instrAt (↑r : Nat)) 0 16 = 0) ∧
    (∃ (r : Fin 64) (s : State), s.dead = false ∧ (s.passEntry (↑r : Nat)).atWait (↑r : Nat) = true ∧ ((s.passEntry (↑r : Nat)).borderTick (↑r : Nat)).waitHolds (↑r : Nat) ((s.passEntry (↑r : Nat)).instrAt (↑r : Nat)) = false ∧ (fld ((s.passEntry (↑r : Nat)).instrAt (↑r : Nat)) 0 16 = 0 ∨ ((s.passEntry (↑r : Nat)).region (↑r : Nat)).waited + 1 < fld ((s.passEntry (↑r : Nat)).instrAt (↑r : Nat)) 0 16) ∧ (bit ((s.passEntry (↑r : Nat)).instrAt (↑r : Nat)) 39 = false ∨ { (((s.passEntry (↑r : Nat)).idleCycle (↑r : Nat)).region (↑r : Nat)) with st := SeqState.wait, waited := ((s.passEntry (↑r : Nat)).region (↑r : Nat)).waited + 1 }.eligible = false ∨ ((s.passEntry (↑r : Nat)).idleCycle (↑r : Nat)).eventLine (↑r : Nat) = none)) ∧
    (∃ (r : Fin 64) (s : State) (k : Nat), s.dead = false ∧ (s.passEntry (↑r : Nat)).atWait (↑r : Nat) = true ∧ ((s.passEntry (↑r : Nat)).borderTick (↑r : Nat)).waitHolds (↑r : Nat) ((s.passEntry (↑r : Nat)).instrAt (↑r : Nat)) = false ∧ (fld ((s.passEntry (↑r : Nat)).instrAt (↑r : Nat)) 0 16 = 0 ∨ ((s.passEntry (↑r : Nat)).region (↑r : Nat)).waited + 1 < fld ((s.passEntry (↑r : Nat)).instrAt (↑r : Nat)) 0 16) ∧ bit ((s.passEntry (↑r : Nat)).instrAt (↑r : Nat)) 39 = true ∧ { (((s.passEntry (↑r : Nat)).idleCycle (↑r : Nat)).region (↑r : Nat)) with st := SeqState.wait, waited := ((s.passEntry (↑r : Nat)).region (↑r : Nat)).waited + 1 }.eligible = true ∧ ((s.passEntry (↑r : Nat)).idleCycle (↑r : Nat)).eventLine (↑r : Nat) = some k) :=
  ⟨⟨(0 : Fin 64), (waSt (0x13 * 2 ^ 24) { st := .run, inFifo := [(3, [{ v := 9 }])], wto := true } : State), (by decide +kernel), (by decide +kernel), (by decide +kernel)⟩,
   ⟨(0 : Fin 64), (waSt (0x13 * 2 ^ 24 + 3) { st := .wait, waited := 2 } : State), (by decide +kernel), (by decide +kernel), (by decide +kernel), (by decide +kernel), (by decide +kernel)⟩,
   ⟨(0 : Fin 64), (waSt 0 { st := .run } : State), (by decide +kernel), (by decide +kernel), (by decide +kernel), (by decide +kernel)⟩,
   ⟨(0 : Fin 64), (waSt 0 { st := .run } : State), (by decide +kernel), (by decide +kernel), (by decide +kernel), (by decide +kernel), (by decide +kernel)⟩,
   ⟨(0 : Fin 64), (waEv 4 (2 ^ 39 + 0x13 * 2 ^ 24 + 9) .wait 2 : State), _, (by decide +kernel), (by decide +kernel), (by decide +kernel), (by decide +kernel), (by decide +kernel), (by decide +kernel), someGet _ (by decide +kernel)⟩⟩

theorem witness1 :
    (∃ (r : Fin 64) (s : State) (u : State), s.dead = false ∧ (s.passEntry (↑r : Nat)).atWait (↑r : Nat) = true ∧ ((s.passEntry (↑r : Nat)).borderTick (↑r : Nat)).waitHolds (↑r : Nat) ((s.passEntry (↑r : Nat)).instrAt (↑r : Nat)) = false ∧ ((s.passEntry (↑r : Nat)).region (↑r : Nat)).waited < fld ((s.passEntry (↑r : Nat)).instrAt (↑r : Nat)) 0 16 ∧ waitsTo (↑r : Nat) (fld ((s.passEntry (↑r : Nat)).instrAt (↑r : Nat)) 0 16 - ((s.passEntry (↑r : Nat)).region (↑r : Nat)).waited - 1) (s.passEntry (↑r : Nat)) u ∧ u.atWait (↑r : Nat) = true ∧ (u.region (↑r : Nat)).st ≠ SeqState.entry ∧ (u.borderTick (↑r : Nat)).waitHolds (↑r : Nat) (u.instrAt (↑r : Nat)) = false ∧ fld (u.instrAt (↑r : Nat)) 0 16 ≠ 0 ∧ fld (u.instrAt (↑r : Nat)) 0 16 ≤ (u.region (↑r : Nat)).waited + 1) :=
  ⟨(0 : Fin 64), (waSt (0x13 * 2 ^ 24 + 3) { st := .wait, waited := 1 } : State), (((waSt (0x13 * 2 ^ 24 + 3) { st := .wait, waited := 1 } : State).passEntry 0).waitGo 0), (by decide +kernel), (by decide +kernel), (by decide +kernel), (by decide +kernel), waitsOne (by decide +kernel) (by decide +kernel) (by decide +kernel), (by decide +kernel), (by decide +kernel), (by decide +kernel), (by decide +kernel), (by decide +kernel)⟩

theorem witness2 :
    (∃ (r : Fin 64) (s : State), s.dead = false ∧ (s.passEntry (↑r : Nat)).atWait (↑r : Nat) = false) :=
  ⟨(0 : Fin 64), (s0 : State), (by decide +kernel), (by decide +kernel)⟩

end WaitsEndAsTheBorderStands

/-! Witnesses of `Obligations.TakesShiftsAndSignalsRun`. -/
namespace TakesShiftsAndSignalsRun

def insW (op ctx lo : Nat) : BitVec 48 := BitVec.ofNat 48 (op * 2 ^ 44 + ctx * 2 ^ 40 + lo)
def tkSt (op lo : Nat) (x : Region) : State := { regs := [(0, 1#32), (0xC, 5#32)], regions := [(0, { x with a := { seq := [(7, insW op 0 lo)] }, pc := 7 })], sched := { given := [(16, some { task := some 5, arg := 77, cxl := true })] } }
def tkEv (op lo : Nat) (st : SeqState) : State := { regs := [(0, 1#32), (0xC, 0xFF#32), (0x10, 0xFF#32)], regions := [(0, { a := { seq := [(7, insW op 0 lo)], evtEn := 0xFF, vec := [(0, 9#8)] }, pc := 7, st := st })] }

theorem witness0 :
    (∃ (r : Fin 64) (s : State), s.dead = false ∧ iOp ((s.passEntry (↑r : Nat)).instrAt (↑r : Nat)) = 5 ∧ (((s.passEntry (↑r : Nat)).region (↑r : Nat)).st = SeqState.run ∨ ((s.passEntry (↑r : Nat)).region (↑r : Nat)).st = SeqState.take) ∧ ((bit (((s.passEntry (↑r : Nat)).idleCycle (↑r : Nat)).instrAt (↑r : Nat)) 39 && !(if decide (((s.passEntry (↑r : Nat)).region (↑r : Nat)).st = SeqState.run) = true then { (((s.passEntry (↑r : Nat)).idleCycle (↑r : Nat)).region (↑r : Nat)) with st := SeqState.take, withdrawing := false } else ((s.passEntry (↑r : Nat)).idleCycle (↑r : Nat)).region (↑r : Nat)).withdrawing && (if decide (((s.passEntry (↑r : Nat)).region (↑r : Nat)).st = SeqState.run) = true then { (((s.passEntry (↑r : Nat)).idleCycle (↑r : Nat)).region (↑r : Nat)) with st := SeqState.take, withdrawing := false } else ((s.passEntry (↑r : Nat)).idleCycle (↑r : Nat)).region (↑r : Nat)).eligible && (((s.passEntry (↑r : Nat)).idleCycle (↑r : Nat)).eventLine (↑r : Nat)).isSome) = false)) ∧
    (∃ (r : Fin 64) (s : State), s.dead = false ∧ iOp ((s.passEntry (↑r : Nat)).instrAt (↑r : Nat)) = 5 ∧ (((s.passEntry (↑r : Nat)).region (↑r : Nat)).st = SeqState.run ∨ ((s.passEntry (↑r : Nat)).region (↑r : Nat)).st = SeqState.take) ∧ ((bit (((s.passEntry (↑r : Nat)).idleCycle (↑r : Nat)).instrAt (↑r : Nat)) 39 && !(if decide (((s.passEntry (↑r : Nat)).region (↑r : Nat)).st = SeqState.run) = true then { (((s.passEntry (↑r : Nat)).idleCycle (↑r : Nat)).region (↑r : Nat)) with st := SeqState.take, withdrawing := false } else ((s.passEntry (↑r : Nat)).idleCycle (↑r : Nat)).region (↑r : Nat)).withdrawing && (if decide (((s.passEntry (↑r : Nat)).region (↑r : Nat)).st = SeqState.run) = true then { (((s.passEntry (↑r : Nat)).idleCycle (↑r : Nat)).region (↑r : Nat)) with st := SeqState.take, withdrawing := false } else ((s.passEntry (↑r : Nat)).idleCycle (↑r : Nat)).region (↑r : Nat)).eligible && (((s.passEntry (↑r : Nat)).idleCycle (↑r : Nat)).eventLine (↑r : Nat)).isSome) = true)) :=
  ⟨⟨(0 : Fin 64), (tkSt 5 0 { st := .run } : State), (by decide +kernel), (by decide +kernel), (by decide +kernel), (by decide +kernel)⟩,
   ⟨(0 : Fin 64), (tkEv 5 (2 ^ 39) .run : State), (by decide +kernel), (by decide +kernel), (by decide +kernel), (by decide +kernel)⟩⟩

theorem witness1 :
    (∃ (r : Fin 64) (s : State), s.dead = false ∧ (iOp ((s.passEntry (↑r : Nat)).instrAt (↑r : Nat)) ≠ 5 ∨ ((s.passEntry (↑r : Nat)).region (↑r : Nat)).st ≠ SeqState.run ∧ ((s.passEntry (↑r : Nat)).region (↑r : Nat)).st ≠ SeqState.take)) :=
  ⟨(0 : Fin 64), (s0 : State), (by decide +kernel), (by decide +kernel)⟩

theorem witness2 :
    (∃ (r : Fin 64) (k : Fin 80) (s : State) (g : Given), s.dead = false ∧ (↑k : Nat) = 16 + (↑r : Nat) ∧ mget none s.sched.given (↑k : Nat) = some g ∧ (s.region (↑r : Nat)).st = SeqState.take) ∧
    (∃ (r : Fin 64) (k : Fin 80) (s : State) (g : Given), s.dead = false ∧ (↑k : Nat) = 16 + (↑r : Nat) ∧ mget none s.sched.given (↑k : Nat) = some g ∧ (s.region (↑r : Nat)).st ≠ SeqState.take) :=
  ⟨⟨(0 : Fin 64), (16 : Fin 80), (tkSt 5 0 { st := .take } : State), _, (by decide +kernel), (by decide +kernel), someGet _ (by decide +kernel), (by decide +kernel)⟩,
   ⟨(0 : Fin 64), (16 : Fin 80), (tkSt 5 0 { st := .run } : State), _, (by decide +kernel), (by decide +kernel), someGet _ (by decide +kernel), (by decide +kernel)⟩⟩

theorem witness3 :
    (∃ (k : Fin 80) (s : State), mget none s.sched.given (↑k : Nat) = none) :=
  ⟨(0 : Fin 80), (s0 : State), (by decide +kernel)⟩

theorem witness4 :
    (∃ (r : Fin 64) (s : State) (u : State), s.dead = false ∧ (s.passEntry (↑r : Nat)).occupies (↑r : Nat) 6 = true ∧ (s.passEntry (↑r : Nat)).oneCycle (↑r : Nat) = (u, true) ∧ (u.region (↑r : Nat)).drl.st ≠ DrlState.armed) :=
  ⟨(0 : Fin 64), (tkSt 6 0 { st := .run } : State), _, (by decide +kernel), (by decide +kernel), pairFst _ (by decide +kernel), (by decide +kernel)⟩

theorem witness5 :
    (∃ (r : Fin 64) (s : State) (u : State), s.dead = false ∧ (s.passEntry (↑r : Nat)).occupies (↑r : Nat) 6 = true ∧ (s.passEntry (↑r : Nat)).oneCycle (↑r : Nat) = (u, true) ∧ (u.region (↑r : Nat)).drl.st = DrlState.armed) :=
  ⟨(0 : Fin 64), (tkSt 6 (9 * 2 ^ 24) { st := .stall, drl := { st := .armed }, inh := true } : State), _, (by decide +kernel), (by decide +kernel), pairFst _ (by decide +kernel), (by decide +kernel)⟩

theorem witness6 :
    (∃ (r : Fin 64) (s : State) (u : State), s.dead = false ∧ (s.passEntry (↑r : Nat)).occupies (↑r : Nat) 7 = true ∧ (s.passEntry (↑r : Nat)).oneCycle (↑r : Nat) = (u, true)) :=
  ⟨(0 : Fin 64), (tkSt 7 0x25 { st := .run } : State), _, (by decide +kernel), (by decide +kernel), pairFst _ (by decide +kernel)⟩

end TakesShiftsAndSignalsRun

/-! Witnesses of `Obligations.RegionsEnableStopAndStart`. -/
namespace RegionsEnableStopAndStart

def coreOwned (r : Nat) : Map Word32 := (List.range 32).map (fun c => (memctl r c, 1#32))

theorem witness0 :
    (∃ (r : Fin 64) (s : State), s.dead = false ∧ s.rb (regionBase (↑r : Nat)) 0 = true) ∧
    (∃ (r : Fin 64) (v : Word32) (s : State) (c : Nat), s.dead = false ∧ c ∈ (s.setRf (regionBase (↑r : Nat)) 8 8 (fld v 8 8)).regionCheck (↑r : Nat) ∧ s.rb (regionBase (↑r : Nat)) 0 = false ∧ (∀ (d : Nat), d ∈ (s.setRf (regionBase (↑r : Nat)) 8 8 (fld v 8 8)).regionCheck (↑r : Nat) → c ≤ d)) ∧
    (∃ (r : Fin 64) (v : Word32) (s : State), s.dead = false ∧ s.rb (regionBase (↑r : Nat)) 0 = false ∧ (s.setRf (regionBase (↑r : Nat)) 8 8 (fld v 8 8)).regionCheck (↑r : Nat) = []) :=
  ⟨⟨(0 : Fin 64), ({ sBooted with regs := (0, 1#32) :: sBooted.regs } : State), (by decide +kernel), (by decide +kernel)⟩,
   ⟨(0 : Fin 64), (0x00000001#32 : Word32), (s0 : State), (513 : Nat), (by decide +kernel), (by decide +kernel), (by decide +kernel), (by decide +kernel)⟩,
   ⟨(0 : Fin 64), (0x00000001#32 : Word32), ({ regs := coreOwned 0 ++ [(bootBase, 7#32)] } : State), (by decide +kernel), (by decide +kernel), (by decide +kernel)⟩⟩

theorem witness2 :
    (∃ (r : Fin 64) (s : State), s.dead = false ∧ s.regionEn (↑r : Nat) = false) ∧
    (∃ (r : Fin 64) (s : State), s.dead = false ∧ s.regionEn (↑r : Nat) = true) :=
  ⟨⟨(0 : Fin 64), (s0 : State), (by decide +kernel), (by decide +kernel)⟩,
   ⟨(0 : Fin 64), ({ sBooted with regs := (0, 1#32) :: sBooted.regs } : State), (by decide +kernel), (by decide +kernel)⟩⟩

theorem witness3 :
    (∃ (r : Fin 64) (s : State), s.dead = false ∧ (s.seqIdle (↑r : Nat) = true ∨ s.regionEn (↑r : Nat) = false)) ∧
    (∃ (r : Fin 64) (s : State), s.dead = false ∧ s.seqIdle (↑r : Nat) = false ∧ s.regionEn (↑r : Nat) = true ∧ (s.endCycle (↑r : Nat)).seqIdle (↑r : Nat) = true) ∧
    (∃ (r : Fin 64) (s : State), s.dead = false ∧ s.seqIdle (↑r : Nat) = false ∧ s.regionEn (↑r : Nat) = true ∧ (s.endCycle (↑r : Nat)).seqIdle (↑r : Nat) = false) :=
  ⟨⟨(0 : Fin 64), (s0 : State), (by decide +kernel), (by decide +kernel)⟩,
   ⟨(0 : Fin 64), ({ sBooted with regs := (0, 1#32) :: sBooted.regs, regions := [(0, { st := .run })] } : State), (by decide +kernel), (by decide +kernel), (by decide +kernel), (by decide +kernel)⟩,
   ⟨(0 : Fin 64), ({ sBooted with regs := (0, 1#32) :: sBooted.regs, regions := [(0, { st := .wait, pc := 9 })] } : State), (by decide +kernel), (by decide +kernel), (by decide +kernel), (by decide +kernel)⟩⟩

theorem witness4 :
    (∃ (r : Fin 64) (s : State), s.dead = false ∧ (s.region (↑r : Nat)).st = SeqState.halted ∧ s.regionEn (↑r : Nat) = true) ∧
    (∃ (r : Fin 64) (s : State), s.dead = false ∧ ((s.region (↑r : Nat)).st ≠ SeqState.halted ∨ s.regionEn (↑r : Nat) = false)) :=
  ⟨⟨(0 : Fin 64), ({ sBooted with regs := (0, 1#32) :: sBooted.regs, regions := [(0, { st := .halted, hcause := 4, haltPc := 9 })] } : State), (by decide +kernel), (by decide +kernel), (by decide +kernel)⟩,
   ⟨(0 : Fin 64), (s0 : State), (by decide +kernel), (by decide +kernel)⟩⟩

end RegionsEnableStopAndStart

/-! Witnesses of `Obligations.MemCellPortOneAccesses`. -/
namespace MemCellPortOneAccesses

def mc1 : State := { regs := [(0x20C, 2#32), (memctl 9 5, 0x1005#32), (memctl 9 0, 0x11009#32)] }
def mc3 : State := { regs := [(memctl 0 5, 0x2#32)], regions := [(0, { p1 := [{ cell := 5, word := 7, slots := 0, bytes := 0x305, data := 0x123456789ABCDEF0123456789ABCDEF, left := 3 }] }), (9, { p1 := [{ cell := 5, word := 7, slots := 0, bytes := 0x305, data := 0x123456789ABCDEF0123456789ABCDEF, left := 3 }] })] }

theorem witness0 :
    (∃ (r : Fin 64) (s : State), s.settled = true ∧ s.pstate (↑r : Nat) ≠ 0) :=
  ⟨(0 : Fin 64), (mc1 : State), (by decide +kernel), (by decide +kernel)⟩

theorem witness1 :
    (∃ (m : Master) (r : Fin 64) (c : Fin 32) (w : Fin 1024) (op : P1Op) (s : State), s.settled = true ∧ s.pstate (↑r : Nat) = 0 ∧ s.portOneAllows m (↑r : Nat) (↑c : Nat) (↑w : Nat) (decide (op ≠ P1Op.read)) = false) :=
  ⟨(Sys2Proof.Master.puppeteer : Master), (0 : Fin 64), (5 : Fin 32), (0 : Fin 1024), (Sys2Proof.P1Op.write 0xfff#12 0x0000000000000000000000000000000000000000000000000000000123456789#256 : P1Op), (mc3 : State), (by decide +kernel), (by decide +kernel), (by decide +kernel)⟩

theorem witness2 :
    (∃ (m : Master) (r : Fin 64) (c : Fin 32) (w : Fin 1024) (op : P1Op) (s : State), s.settled = true ∧ s.pstate (↑r : Nat) = 0 ∧ s.portOneAllows m (↑r : Nat) (↑c : Nat) (↑w : Nat) (decide (op ≠ P1Op.read)) = true ∧ (s.lent (↑r : Nat) (↑c : Nat) (↑w : Nat) = true ∨ ∃ (e : Master × Nat × Nat × Nat × P1Op), e ∈ s.p1Wait ∧ e.snd.fst = (↑r : Nat) ∧ e.snd.snd.fst = (↑c : Nat))) :=
  ⟨(Sys2Proof.Master.puppeteer : Master), (9 : Fin 64), (5 : Fin 32), (0 : Fin 1024), (Sys2Proof.P1Op.read : P1Op), (mc1 : State), (by decide +kernel), (by decide +kernel), (by decide +kernel), (by decide +kernel)⟩

theorem witness3 :
    (∃ (m : Master) (r : Fin 64) (c : Fin 32) (w : Fin 1024) (op : P1Op) (s : State), s.pstate (↑r : Nat) = 0 ∧ s.portOneAllows m (↑r : Nat) (↑c : Nat) (↑w : Nat) (decide (op ≠ P1Op.read)) = true ∧ s.lent (↑r : Nat) (↑c : Nat) (↑w : Nat) = false ∧ (∀ (e : Master × Nat × Nat × Nat × P1Op), e ∈ s.p1Wait → ¬(e.snd.fst = (↑r : Nat) ∧ e.snd.snd.fst = (↑c : Nat))) ∧ (s.region (↑r : Nat)).p1 = []) :=
  ⟨(Sys2Proof.Master.puppeteer : Master), (0 : Fin 64), (0 : Fin 32), (0 : Fin 1024), (Sys2Proof.P1Op.read : P1Op), (s0 : State), (by decide +kernel), (by decide +kernel), (by decide +kernel), (by decide +kernel), (by decide +kernel)⟩

theorem witness4 :
    (∃ (r : Fin 64) (s : State) (a : P1Write), s.dead = false ∧ s.resting (↑r : Nat) = true ∧ (s.region (↑r : Nat)).p1 = [a] ∧ 1 ≤ a.left ∧ (a.reads = true → 3 ≤ a.left) ∧ (s.region (↑r : Nat)).wrs = [] ∧ (s.region (↑r : Nat)).rds = [] ∧ (s.region (↑r : Nat)).fixes = []) :=
  ⟨(0 : Fin 64), (mc3 : State), ((((mc3 : State)).region (↑((0 : Fin 64)) : Nat)).p1).head (by all_goals decide +kernel), (by decide +kernel), (by decide +kernel), (by decide +kernel), (by decide +kernel), (by decide +kernel), (by decide +kernel), (by decide +kernel), (by decide +kernel)⟩

theorem witness5 :
    (∃ (r : Fin 64) (s : State), s.dead = false ∧ s.resting (↑r : Nat) = false) :=
  ⟨(0 : Fin 64), (mc1 : State), (by decide +kernel), (by decide +kernel)⟩

end MemCellPortOneAccesses

/-! Witnesses of `Obligations.OwnerWriteChecksAndHandback`. -/
namespace OwnerWriteChecksAndHandback

def ow1 : State := { regs := [(0, 1#32), (memctl 0 5, 0x1#32), (memctl 9 0, 0x2#32)], regions := [(9, { drl := { st := .armed }})] }
def ow3 : State := { regs := [(memctl 9 5, 0x21005#32)], p1Wait := [(.host, 9, 5, 0, .read)] }

theorem witness0 :
    (∃ (r : Fin 64) (c : Fin 32) (v : Word32) (s : State), s.settled = true ∧ s.dead = false ∧ s.owner (↑r : Nat) (↑c : Nat) = fld v 0 2) ∧
    (∃ (r : Fin 64) (c : Fin 32) (v : Word32) (s : State) (k : Nat), s.settled = true ∧ s.dead = false ∧ s.owner (↑r : Nat) (↑c : Nat) ≠ fld v 0 2 ∧ lowestCode (s.ownerCodes (↑r : Nat) (↑c : Nat) (s.owner (↑r : Nat) (↑c : Nat)) (fld v 0 2)) = some k) ∧
    (∃ (r : Fin 64) (c : Fin 32) (v : Word32) (s : State), s.settled = true ∧ s.dead = false ∧ s.owner (↑r : Nat) (↑c : Nat) ≠ fld v 0 2 ∧ lowestCode (s.ownerCodes (↑r : Nat) (↑c : Nat) (s.owner (↑r : Nat) (↑c : Nat)) (fld v 0 2)) = none) :=
  ⟨⟨(0 : Fin 64), (0 : Fin 32), (0x00000000#32 : Word32), (s0 : State), (by decide +kernel), (by decide +kernel), (by decide +kernel)⟩,
   ⟨(0 : Fin 64), (0 : Fin 32), (0x00000001#32 : Word32), (ow1 : State), _, (by decide +kernel), (by decide +kernel), (by decide +kernel), someGet _ (by decide +kernel)⟩,
   ⟨(0 : Fin 64), (0 : Fin 32), (0x00000001#32 : Word32), (s0 : State), (by decide +kernel), (by decide +kernel), (by decide +kernel), (by decide +kernel)⟩⟩

theorem witness1 :
    (∃ (s : State), s.dead = false) :=
  ⟨(s0 : State), (by decide +kernel)⟩

theorem witness2 :
    (∃ (p : Fin 4) (r : Fin 64) (c : Fin 32) (w : Fin 1024) (s : State) (m : Master), s.dead = false ∧ planeOf (↑r : Nat) = (↑p : Nat) ∧ s.p1Wait = [(m, (↑r : Nat), (↑c : Nat), (↑w : Nat), P1Op.read)] ∧ s.lent (↑r : Nat) (↑c : Nat) (↑w : Nat) = true ∧ s.portOneAllows m (↑r : Nat) (↑c : Nat) (↑w : Nat) false = true ∧ (∀ (b : P1Write), b ∈ (s.region (↑r : Nat)).p1 → ¬(b.cell = (↑c : Nat) ∧ b.word = (↑w : Nat)))) :=
  ⟨(0 : Fin 4), (9 : Fin 64), (5 : Fin 32), (0 : Fin 1024), (ow3 : State), ((((ow3 : State)).p1Wait).head (by all_goals decide +kernel)).1, (by decide +kernel), (by decide +kernel), (by decide +kernel), (by decide +kernel), (by decide +kernel), (by decide +kernel)⟩

end OwnerWriteChecksAndHandback

/-! Witnesses of `Obligations.QueuePushesAndPops`. -/
namespace QueuePushesAndPops

def qS (q : Nat) (c v : BitVec 32) (x : Queue) (e : State := {}) : State := { e with queues := mset {} e.queues q { x with ll := true, hl := false }, regs := (mset 0 (mset 0 e.regs (queueBase q) c) (queueBase q + 8) v) }
def sm (n : Nat) (e : Bool := false) : QSamp := QSamp.ofChan { v := BitVec.ofNat 20 n, e := e }
def hd : State := { held := [(0x2000, [{ v := 6, e := true }, {}])], noc := { ns := 5 } }
def lvl (q : Nat) (s : State) : State := { s with regs := mset 0 s.regs (queueBase q + 0x20) 999#32 }

theorem witness0 :
    (∃ (q : Fin 512) (s : State) (c : Chan) (rest : List Chan), s.dead = false ∧ (s.timersFirst (↑q : Nat) 0).portOf ((s.timersFirst (↑q : Nat) 0).prod (↑q : Nat)) = none ∧ (s.timersFirst (↑q : Nat) 0).heldBy ((s.timersFirst (↑q : Nat) 0).prod (↑q : Nat)) = c :: rest ∧ (((s.timersFirst (↑q : Nat) 0).queue (↑q : Nat)).on && decide (((s.timersFirst (↑q : Nat) 0).queue (↑q : Nat)).tail.length < 16) && (!c.e || decide (((s.timersFirst (↑q : Nat) 0).queue (↑q : Nat)).pkts < 65535))) = true ∧ (endpKind ((s.timersFirst (↑q : Nat) 0).prod (↑q : Nat)) != 5 || (s.timersFirst (↑q : Nat) 0).linkOpen (endpIndex ((s.timersFirst (↑q : Nat) 0).prod (↑q : Nat)) % 512) (↑q : Nat)) = true) ∧
    (∃ (q : Fin 512) (s : State) (c : Chan) (rest : List Chan), s.dead = false ∧ (s.timersFirst (↑q : Nat) 0).portOf ((s.timersFirst (↑q : Nat) 0).prod (↑q : Nat)) = none ∧ (s.timersFirst (↑q : Nat) 0).heldBy ((s.timersFirst (↑q : Nat) 0).prod (↑q : Nat)) = c :: rest ∧ ((((s.timersFirst (↑q : Nat) 0).queue (↑q : Nat)).on && decide (((s.timersFirst (↑q : Nat) 0).queue (↑q : Nat)).tail.length < 16) && (!c.e || decide (((s.timersFirst (↑q : Nat) 0).queue (↑q : Nat)).pkts < 65535))) = false ∨ (endpKind ((s.timersFirst (↑q : Nat) 0).prod (↑q : Nat)) != 5 || (s.timersFirst (↑q : Nat) 0).linkOpen (endpIndex ((s.timersFirst (↑q : Nat) 0).prod (↑q : Nat)) % 512) (↑q : Nat)) = false)) :=
  ⟨⟨(2 : Fin 512), (lvl 2 (qS 2 1#32 0x30002000#32 { on := true, tail := [sm 5], head := [sm 8 true, { (sm 9) with par := false }], pkts := 2 } hd) : State), ((((lvl 2 (qS 2 1#32 0x30002000#32 { on := true, tail := [sm 5], head := [sm 8 true, { (sm 9) with par := false }], pkts := 2 } hd) : State)).timersFirst (↑((2 : Fin 512)) : Nat) 0).heldBy ((((lvl 2 (qS 2 1#32 0x30002000#32 { on := true, tail := [sm 5], head := [sm 8 true, { (sm 9) with par := false }], pkts := 2 } hd) : State)).timersFirst (↑((2 : Fin 512)) : Nat) 0).prod (↑((2 : Fin 512)) : Nat))).head (by all_goals decide +kernel), ((((lvl 2 (qS 2 1#32 0x30002000#32 { on := true, tail := [sm 5], head := [sm 8 true, { (sm 9) with par := false }], pkts := 2 } hd) : State)).timersFirst (↑((2 : Fin 512)) : Nat) 0).heldBy ((((lvl 2 (qS 2 1#32 0x30002000#32 { on := true, tail := [sm 5], head := [sm 8 true, { (sm 9) with par := false }], pkts := 2 } hd) : State)).timersFirst (↑((2 : Fin 512)) : Nat) 0).prod (↑((2 : Fin 512)) : Nat))).tail, (by decide +kernel), (by decide +kernel), (by decide +kernel), (by decide +kernel), (by decide +kernel)⟩,
   ⟨(2 : Fin 512), (lvl 2 (qS 2 1#32 0x30002000#32 { on := true, tail := List.replicate 16 (sm 5), head := [{ c := { v := 3 }, par := true }, sm 9 true], pkts := 65535 } hd) : State), ((((lvl 2 (qS 2 1#32 0x30002000#32 { on := true, tail := List.replicate 16 (sm 5), head := [{ c := { v := 3 }, par := true }, sm 9 true], pkts := 65535 } hd) : State)).timersFirst (↑((2 : Fin 512)) : Nat) 0).heldBy ((((lvl 2 (qS 2 1#32 0x30002000#32 { on := true, tail := List.replicate 16 (sm 5), head := [{ c := { v := 3 }, par := true }, sm 9 true], pkts := 65535 } hd) : State)).timersFirst (↑((2 : Fin 512)) : Nat) 0).prod (↑((2 : Fin 512)) : Nat))).head (by all_goals decide +kernel), ((((lvl 2 (qS 2 1#32 0x30002000#32 { on := true, tail := List.replicate 16 (sm 5), head := [{ c := { v := 3 }, par := true }, sm 9 true], pkts := 65535 } hd) : State)).timersFirst (↑((2 : Fin 512)) : Nat) 0).heldBy ((((lvl 2 (qS 2 1#32 0x30002000#32 { on := true, tail := List.replicate 16 (sm 5), head := [{ c := { v := 3 }, par := true }, sm 9 true], pkts := 65535 } hd) : State)).timersFirst (↑((2 : Fin 512)) : Nat) 0).prod (↑((2 : Fin 512)) : Nat))).tail, (by decide +kernel), (by decide +kernel), (by decide +kernel), (by decide +kernel)⟩⟩

theorem witness1 :
    (∃ (q : Fin 512) (s : State) (r : Nat) (i : Nat) (n : Nat) (c : Chan) (rest : List (Nat × Chan)), s.dead = false ∧ (s.timersFirst (↑q : Nat) 0).portOf ((s.timersFirst (↑q : Nat) 0).prod (↑q : Nat)) = some (r, i) ∧ mget [] ((s.timersFirst (↑q : Nat) 0).region r).portWay i = (n, c) :: rest ∧ (((s.timersFirst (↑q : Nat) 0).queue (↑q : Nat)).on && decide (((s.timersFirst (↑q : Nat) 0).queue (↑q : Nat)).tail.length < 16) && (!c.e || decide (((s.timersFirst (↑q : Nat) 0).queue (↑q : Nat)).pkts < 65535))) = true ∧ n + 1 ≤ (s.timersFirst (↑q : Nat) 0).noc.ns) ∧
    (∃ (q : Fin 512) (s : State) (r : Nat) (i : Nat) (n : Nat) (c : Chan) (rest : List (Nat × Chan)), s.dead = false ∧ (s.timersFirst (↑q : Nat) 0).portOf ((s.timersFirst (↑q : Nat) 0).prod (↑q : Nat)) = some (r, i) ∧ mget [] ((s.timersFirst (↑q : Nat) 0).region r).portWay i = (n, c) :: rest ∧ ((((s.timersFirst (↑q : Nat) 0).queue (↑q : Nat)).on && decide (((s.timersFirst (↑q : Nat) 0).queue (↑q : Nat)).tail.length < 16) && (!c.e || decide (((s.timersFirst (↑q : Nat) 0).queue (↑q : Nat)).pkts < 65535))) = false ∨ (s.timersFirst (↑q : Nat) 0).noc.ns < n + 1)) :=
  ⟨⟨(2 : Fin 512), (lvl 2 (qS 2 1#32 0x10031003#32 { on := true, tail := [sm 5], head := [sm 8 true, sm 9 true], pkts := 2 } { regions := [(0, { portWay := [(3, [(0, { v := 4, e := true })])], popWay := [(3, [0])] })], noc := { ns := 5 } }) : State), _, _, ((mget [] ((((lvl 2 (qS 2 1#32 0x10031003#32 { on := true, tail := [sm 5], head := [sm 8 true, sm 9 true], pkts := 2 } { regions := [(0, { portWay := [(3, [(0, { v := 4, e := true })])], popWay := [(3, [0])] })], noc := { ns := 5 } }) : State)).timersFirst (↑((2 : Fin 512)) : Nat) 0).region ((((((lvl 2 (qS 2 1#32 0x10031003#32 { on := true, tail := [sm 5], head := [sm 8 true, sm 9 true], pkts := 2 } { regions := [(0, { portWay := [(3, [(0, { v := 4, e := true })])], popWay := [(3, [0])] })], noc := { ns := 5 } }) : State)).timersFirst (↑((2 : Fin 512)) : Nat) 0).portOf ((((lvl 2 (qS 2 1#32 0x10031003#32 { on := true, tail := [sm 5], head := [sm 8 true, sm 9 true], pkts := 2 } { regions := [(0, { portWay := [(3, [(0, { v := 4, e := true })])], popWay := [(3, [0])] })], noc := { ns := 5 } }) : State)).timersFirst (↑((2 : Fin 512)) : Nat) 0).prod (↑((2 : Fin 512)) : Nat))).get (by all_goals decide +kernel)).1)).portWay ((((((lvl 2 (qS 2 1#32 0x10031003#32 { on := true, tail := [sm 5], head := [sm 8 true, sm 9 true], pkts := 2 } { regions := [(0, { portWay := [(3, [(0, { v := 4, e := true })])], popWay := [(3, [0])] })], noc := { ns := 5 } }) : State)).timersFirst (↑((2 : Fin 512)) : Nat) 0).portOf ((((lvl 2 (qS 2 1#32 0x10031003#32 { on := true, tail := [sm 5], head := [sm 8 true, sm 9 true], pkts := 2 } { regions := [(0, { portWay := [(3, [(0, { v := 4, e := true })])], popWay := [(3, [0])] })], noc := { ns := 5 } }) : State)).timersFirst (↑((2 : Fin 512)) : Nat) 0).prod (↑((2 : Fin 512)) : Nat))).get (by all_goals decide +kernel)).2)).head (by all_goals decide +kernel)).1, ((mget [] ((((lvl 2 (qS 2 1#32 0x10031003#32 { on := true, tail := [sm 5], head := [sm 8 true, sm 9 true], pkts := 2 } { regions := [(0, { portWay := [(3, [(0, { v := 4, e := true })])], popWay := [(3, [0])] })], noc := { ns := 5 } }) : State)).timersFirst (↑((2 : Fin 512)) : Nat) 0).region ((((((lvl 2 (qS 2 1#32 0x10031003#32 { on := true, tail := [sm 5], head := [sm 8 true, sm 9 true], pkts := 2 } { regions := [(0, { portWay := [(3, [(0, { v := 4, e := true })])], popWay := [(3, [0])] })], noc := { ns := 5 } }) : State)).timersFirst (↑((2 : Fin 512)) : Nat) 0).portOf ((((lvl 2 (qS 2 1#32 0x10031003#32 { on := true, tail := [sm 5], head := [sm 8 true, sm 9 true], pkts := 2 } { regions := [(0, { portWay := [(3, [(0, { v := 4, e := true })])], popWay := [(3, [0])] })], noc := { ns := 5 } }) : State)).timersFirst (↑((2 : Fin 512)) : Nat) 0).prod (↑((2 : Fin 512)) : Nat))).get (by all_goals decide +kernel)).1)).portWay ((((((lvl 2 (qS 2 1#32 0x10031003#32 { on := true, tail := [sm 5], head := [sm 8 true, sm 9 true], pkts := 2 } { regions := [(0, { portWay := [(3, [(0, { v := 4, e := true })])], popWay := [(3, [0])] })], noc := { ns := 5 } }) : State)).timersFirst (↑((2 : Fin 512)) : Nat) 0).portOf ((((lvl 2 (qS 2 1#32 0x10031003#32 { on := true, tail := [sm 5], head := [sm 8 true, sm 9 true], pkts := 2 } { regions := [(0, { portWay := [(3, [(0, { v := 4, e := true })])], popWay := [(3, [0])] })], noc := { ns := 5 } }) : State)).timersFirst (↑((2 : Fin 512)) : Nat) 0).prod (↑((2 : Fin 512)) : Nat))).get (by all_goals decide +kernel)).2)).head (by all_goals decide +kernel)).2, (mget [] ((((lvl 2 (qS 2 1#32 0x10031003#32 { on := true, tail := [sm 5], head := [sm 8 true, sm 9 true], pkts := 2 } { regions := [(0, { portWay := [(3, [(0, { v := 4, e := true })])], popWay := [(3, [0])] })], noc := { ns := 5 } }) : State)).timersFirst (↑((2 : Fin 512)) : Nat) 0).region ((((((lvl 2 (qS 2 1#32 0x10031003#32 { on := true, tail := [sm 5], head := [sm 8 true, sm 9 true], pkts := 2 } { regions := [(0, { portWay := [(3, [(0, { v := 4, e := true })])], popWay := [(3, [0])] })], noc := { ns := 5 } }) : State)).timersFirst (↑((2 : Fin 512)) : Nat) 0).portOf ((((lvl 2 (qS 2 1#32 0x10031003#32 { on := true, tail := [sm 5], head := [sm 8 true, sm 9 true], pkts := 2 } { regions := [(0, { portWay := [(3, [(0, { v := 4, e := true })])], popWay := [(3, [0])] })], noc := { ns := 5 } }) : State)).timersFirst (↑((2 : Fin 512)) : Nat) 0).prod (↑((2 : Fin 512)) : Nat))).get (by all_goals decide +kernel)).1)).portWay ((((((lvl 2 (qS 2 1#32 0x10031003#32 { on := true, tail := [sm 5], head := [sm 8 true, sm 9 true], pkts := 2 } { regions := [(0, { portWay := [(3, [(0, { v := 4, e := true })])], popWay := [(3, [0])] })], noc := { ns := 5 } }) : State)).timersFirst (↑((2 : Fin 512)) : Nat) 0).portOf ((((lvl 2 (qS 2 1#32 0x10031003#32 { on := true, tail := [sm 5], head := [sm 8 true, sm 9 true], pkts := 2 } { regions := [(0, { portWay := [(3, [(0, { v := 4, e := true })])], popWay := [(3, [0])] })], noc := { ns := 5 } }) : State)).timersFirst (↑((2 : Fin 512)) : Nat) 0).prod (↑((2 : Fin 512)) : Nat))).get (by all_goals decide +kernel)).2)).tail, (by decide +kernel), someGet2 _ (by decide +kernel), (by decide +kernel), (by decide +kernel), (by decide +kernel)⟩,
   ⟨(2 : Fin 512), (lvl 2 (qS 2 1#32 0x10031003#32 { on := true, tail := [sm 5], head := [sm 8 true, sm 9 true], pkts := 2 } { regions := [(0, { portWay := [(3, [(9, { v := 4, e := true })])], popWay := [(3, [9])] })], noc := { ns := 5 } }) : State), _, _, ((mget [] ((((lvl 2 (qS 2 1#32 0x10031003#32 { on := true, tail := [sm 5], head := [sm 8 true, sm 9 true], pkts := 2 } { regions := [(0, { portWay := [(3, [(9, { v := 4, e := true })])], popWay := [(3, [9])] })], noc := { ns := 5 } }) : State)).timersFirst (↑((2 : Fin 512)) : Nat) 0).region ((((((lvl 2 (qS 2 1#32 0x10031003#32 { on := true, tail := [sm 5], head := [sm 8 true, sm 9 true], pkts := 2 } { regions := [(0, { portWay := [(3, [(9, { v := 4, e := true })])], popWay := [(3, [9])] })], noc := { ns := 5 } }) : State)).timersFirst (↑((2 : Fin 512)) : Nat) 0).portOf ((((lvl 2 (qS 2 1#32 0x10031003#32 { on := true, tail := [sm 5], head := [sm 8 true, sm 9 true], pkts := 2 } { regions := [(0, { portWay := [(3, [(9, { v := 4, e := true })])], popWay := [(3, [9])] })], noc := { ns := 5 } }) : State)).timersFirst (↑((2 : Fin 512)) : Nat) 0).prod (↑((2 : Fin 512)) : Nat))).get (by all_goals decide +kernel)).1)).portWay ((((((lvl 2 (qS 2 1#32 0x10031003#32 { on := true, tail := [sm 5], head := [sm 8 true, sm 9 true], pkts := 2 } { regions := [(0, { portWay := [(3, [(9, { v := 4, e := true })])], popWay := [(3, [9])] })], noc := { ns := 5 } }) : State)).timersFirst (↑((2 : Fin 512)) : Nat) 0).portOf ((((lvl 2 (qS 2 1#32 0x10031003#32 { on := true, tail := [sm 5], head := [sm 8 true, sm 9 true], pkts := 2 } { regions := [(0, { portWay := [(3, [(9, { v := 4, e := true })])], popWay := [(3, [9])] })], noc := { ns := 5 } }) : State)).timersFirst (↑((2 : Fin 512)) : Nat) 0).prod (↑((2 : Fin 512)) : Nat))).get (by all_goals decide +kernel)).2)).head (by all_goals decide +kernel)).1, ((mget [] ((((lvl 2 (qS 2 1#32 0x10031003#32 { on := true, tail := [sm 5], head := [sm 8 true, sm 9 true], pkts := 2 } { regions := [(0, { portWay := [(3, [(9, { v := 4, e := true })])], popWay := [(3, [9])] })], noc := { ns := 5 } }) : State)).timersFirst (↑((2 : Fin 512)) : Nat) 0).region ((((((lvl 2 (qS 2 1#32 0x10031003#32 { on := true, tail := [sm 5], head := [sm 8 true, sm 9 true], pkts := 2 } { regions := [(0, { portWay := [(3, [(9, { v := 4, e := true })])], popWay := [(3, [9])] })], noc := { ns := 5 } }) : State)).timersFirst (↑((2 : Fin 512)) : Nat) 0).portOf ((((lvl 2 (qS 2 1#32 0x10031003#32 { on := true, tail := [sm 5], head := [sm 8 true, sm 9 true], pkts := 2 } { regions := [(0, { portWay := [(3, [(9, { v := 4, e := true })])], popWay := [(3, [9])] })], noc := { ns := 5 } }) : State)).timersFirst (↑((2 : Fin 512)) : Nat) 0).prod (↑((2 : Fin 512)) : Nat))).get (by all_goals decide +kernel)).1)).portWay ((((((lvl 2 (qS 2 1#32 0x10031003#32 { on := true, tail := [sm 5], head := [sm 8 true, sm 9 true], pkts := 2 } { regions := [(0, { portWay := [(3, [(9, { v := 4, e := true })])], popWay := [(3, [9])] })], noc := { ns := 5 } }) : State)).timersFirst (↑((2 : Fin 512)) : Nat) 0).portOf ((((lvl 2 (qS 2 1#32 0x10031003#32 { on := true, tail := [sm 5], head := [sm 8 true, sm 9 true], pkts := 2 } { regions := [(0, { portWay := [(3, [(9, { v := 4, e := true })])], popWay := [(3, [9])] })], noc := { ns := 5 } }) : State)).timersFirst (↑((2 : Fin 512)) : Nat) 0).prod (↑((2 : Fin 512)) : Nat))).get (by all_goals decide +kernel)).2)).head (by all_goals decide +kernel)).2, (mget [] ((((lvl 2 (qS 2 1#32 0x10031003#32 { on := true, tail := [sm 5], head := [sm 8 true, sm 9 true], pkts := 2 } { regions := [(0, { portWay := [(3, [(9, { v := 4, e := true })])], popWay := [(3, [9])] })], noc := { ns := 5 } }) : State)).timersFirst (↑((2 : Fin 512)) : Nat) 0).region ((((((lvl 2 (qS 2 1#32 0x10031003#32 { on := true, tail := [sm 5], head := [sm 8 true, sm 9 true], pkts := 2 } { regions := [(0, { portWay := [(3, [(9, { v := 4, e := true })])], popWay := [(3, [9])] })], noc := { ns := 5 } }) : State)).timersFirst (↑((2 : Fin 512)) : Nat) 0).portOf ((((lvl 2 (qS 2 1#32 0x10031003#32 { on := true, tail := [sm 5], head := [sm 8 true, sm 9 true], pkts := 2 } { regions := [(0, { portWay := [(3, [(9, { v := 4, e := true })])], popWay := [(3, [9])] })], noc := { ns := 5 } }) : State)).timersFirst (↑((2 : Fin 512)) : Nat) 0).prod (↑((2 : Fin 512)) : Nat))).get (by all_goals decide +kernel)).1)).portWay ((((((lvl 2 (qS 2 1#32 0x10031003#32 { on := true, tail := [sm 5], head := [sm 8 true, sm 9 true], pkts := 2 } { regions := [(0, { portWay := [(3, [(9, { v := 4, e := true })])], popWay := [(3, [9])] })], noc := { ns := 5 } }) : State)).timersFirst (↑((2 : Fin 512)) : Nat) 0).portOf ((((lvl 2 (qS 2 1#32 0x10031003#32 { on := true, tail := [sm 5], head := [sm 8 true, sm 9 true], pkts := 2 } { regions := [(0, { portWay := [(3, [(9, { v := 4, e := true })])], popWay := [(3, [9])] })], noc := { ns := 5 } }) : State)).timersFirst (↑((2 : Fin 512)) : Nat) 0).prod (↑((2 : Fin 512)) : Nat))).get (by all_goals decide +kernel)).2)).tail, (by decide +kernel), someGet2 _ (by decide +kernel), (by decide +kernel), (by decide +kernel)⟩⟩

theorem witness2 :
    (∃ (q : Fin 512) (s : State), s.dead = false ∧ (∀ (r i : Nat), (s.timersFirst (↑q : Nat) 0).portOf ((s.timersFirst (↑q : Nat) 0).prod (↑q : Nat)) = some (r, i) → mget [] ((s.timersFirst (↑q : Nat) 0).region r).portWay i = []) ∧ ((s.timersFirst (↑q : Nat) 0).portOf ((s.timersFirst (↑q : Nat) 0).prod (↑q : Nat)) = none → (s.timersFirst (↑q : Nat) 0).heldBy ((s.timersFirst (↑q : Nat) 0).prod (↑q : Nat)) = [])) :=
  ⟨(2 : Fin 512), (s0 : State), (by decide +kernel), (by nofun), (by decide +kernel)⟩

theorem witness3 :
    (∃ (q : Fin 512) (s : State) (h : QSamp) (rest : List QSamp), (s.queue (↑q : Nat)).head = h :: rest) :=
  ⟨(2 : Fin 512), (lvl 2 (qS 2 1#32 0x30002000#32 { on := true, tail := [sm 5], head := [sm 8 true, { (sm 9) with par := false }], pkts := 2 } hd) : State), ((((lvl 2 (qS 2 1#32 0x30002000#32 { on := true, tail := [sm 5], head := [sm 8 true, { (sm 9) with par := false }], pkts := 2 } hd) : State)).queue (↑((2 : Fin 512)) : Nat)).head).head (by all_goals decide +kernel), ((((lvl 2 (qS 2 1#32 0x30002000#32 { on := true, tail := [sm 5], head := [sm 8 true, { (sm 9) with par := false }], pkts := 2 } hd) : State)).queue (↑((2 : Fin 512)) : Nat)).head).tail, (by decide +kernel)⟩

theorem witness4 :
    (∃ (q : Fin 512) (s : State) (c : Chan) (z : State), s.dead = false ∧ (s.queue (↑q : Nat)).on = true ∧ (s.timersFirst (↑q : Nat) 1).popHead (↑q : Nat) = some (z, c) ∧ (s.timersFirst (↑q : Nat) 1).portOf ((s.timersFirst (↑q : Nat) 1).cons (↑q : Nat)) = none ∧ endpKind ((s.timersFirst (↑q : Nat) 1).cons (↑q : Nat)) ≠ 0 ∧ endpKind ((s.timersFirst (↑q : Nat) 1).cons (↑q : Nat)) ≠ 5 ∧ (s.timersFirst (↑q : Nat) 1).wants ((s.timersFirst (↑q : Nat) 1).cons (↑q : Nat)) = true) ∧
    (∃ (q : Fin 512) (s : State) (c : Chan) (z : State), s.dead = false ∧ (s.queue (↑q : Nat)).on = true ∧ (s.timersFirst (↑q : Nat) 1).popHead (↑q : Nat) = some (z, c) ∧ (s.timersFirst (↑q : Nat) 1).portOf ((s.timersFirst (↑q : Nat) 1).cons (↑q : Nat)) = none ∧ endpKind ((s.timersFirst (↑q : Nat) 1).cons (↑q : Nat)) = 5 ∧ ((s.timersFirst (↑q : Nat) 1).queue (endpIndex ((s.timersFirst (↑q : Nat) 1).cons (↑q : Nat)) % 512)).tail.length + ((s.timersFirst (↑q : Nat) 1).heldBy (20480 + (↑q : Nat))).length < 16) ∧
    (∃ (q : Fin 512) (s : State) (c : Chan) (z : State), s.dead = false ∧ (s.queue (↑q : Nat)).on = true ∧ (s.timersFirst (↑q : Nat) 1).popHead (↑q : Nat) = some (z, c) ∧ (s.timersFirst (↑q : Nat) 1).portOf ((s.timersFirst (↑q : Nat) 1).cons (↑q : Nat)) = none ∧ (endpKind ((s.timersFirst (↑q : Nat) 1).cons (↑q : Nat)) = 0 ∨ endpKind ((s.timersFirst (↑q : Nat) 1).cons (↑q : Nat)) ≠ 5 ∧ (s.timersFirst (↑q : Nat) 1).wants ((s.timersFirst (↑q : Nat) 1).cons (↑q : Nat)) = false ∨ endpKind ((s.timersFirst (↑q : Nat) 1).cons (↑q : Nat)) = 5 ∧ 16 ≤ ((s.timersFirst (↑q : Nat) 1).queue (endpIndex ((s.timersFirst (↑q : Nat) 1).cons (↑q : Nat)) % 512)).tail.length + ((s.timersFirst (↑q : Nat) 1).heldBy (20480 + (↑q : Nat))).length)) :=
  ⟨⟨(2 : Fin 512), (lvl 2 (qS 2 1#32 0x30002000#32 { on := true, tail := [sm 5], head := [sm 8 true, { (sm 9) with par := false }], pkts := 2 } hd) : State), _, _, (by decide +kernel), (by decide +kernel), someGet2 _ (by decide +kernel), (by decide +kernel), (by decide +kernel), (by decide +kernel), (by decide +kernel)⟩,
   ⟨(2 : Fin 512), (lvl 2 (qS 300 1#32 0x00005002#32 {} (qS 2 1#32 0x512C0000#32 { on := true, tail := [sm 5], head := [sm 8 true, sm 9 true], pkts := 2 })) : State), _, _, (by decide +kernel), (by decide +kernel), someGet2 _ (by decide +kernel), (by decide +kernel), (by decide +kernel), (by decide +kernel)⟩,
   ⟨(2 : Fin 512), (lvl 2 (qS 2 1#32 0x00002000#32 { on := true, head := [sm 8 true] }) : State), _, _, (by decide +kernel), (by decide +kernel), someGet2 _ (by decide +kernel), (by decide +kernel), (by decide +kernel)⟩⟩

theorem witness5 :
    (∃ (q : Fin 512) (s : State) (r : Nat) (i : Nat) (n : Nat) (rest : List Nat) (c : Chan) (z : State), s.dead = false ∧ (s.queue (↑q : Nat)).on = true ∧ (s.timersFirst (↑q : Nat) 1).popHead (↑q : Nat) = some (z, c) ∧ (s.timersFirst (↑q : Nat) 1).portOf ((s.timersFirst (↑q : Nat) 1).cons (↑q : Nat)) = some (r, i) ∧ mget [] ((s.timersFirst (↑q : Nat) 1).region r).popWay i = n :: rest ∧ n + 1 ≤ (s.timersFirst (↑q : Nat) 1).noc.ns) ∧
    (∃ (q : Fin 512) (s : State) (r : Nat) (i : Nat) (n : Nat) (rest : List Nat) (c : Chan) (z : State), s.dead = false ∧ (s.queue (↑q : Nat)).on = true ∧ (s.timersFirst (↑q : Nat) 1).popHead (↑q : Nat) = some (z, c) ∧ (s.timersFirst (↑q : Nat) 1).portOf ((s.timersFirst (↑q : Nat) 1).cons (↑q : Nat)) = some (r, i) ∧ mget [] ((s.timersFirst (↑q : Nat) 1).region r).popWay i = n :: rest ∧ (s.timersFirst (↑q : Nat) 1).noc.ns < n + 1) :=
  ⟨⟨(2 : Fin 512), (lvl 2 (qS 2 1#32 0x10031003#32 { on := true, tail := [sm 5], head := [sm 8 true, sm 9 true], pkts := 2 } { regions := [(0, { portWay := [(3, [(0, { v := 4, e := true })])], popWay := [(3, [0])] })], noc := { ns := 5 } }) : State), _, _, (mget [] ((((lvl 2 (qS 2 1#32 0x10031003#32 { on := true, tail := [sm 5], head := [sm 8 true, sm 9 true], pkts := 2 } { regions := [(0, { portWay := [(3, [(0, { v := 4, e := true })])], popWay := [(3, [0])] })], noc := { ns := 5 } }) : State)).timersFirst (↑((2 : Fin 512)) : Nat) 1).region ((((((lvl 2 (qS 2 1#32 0x10031003#32 { on := true, tail := [sm 5], head := [sm 8 true, sm 9 true], pkts := 2 } { regions := [(0, { portWay := [(3, [(0, { v := 4, e := true })])], popWay := [(3, [0])] })], noc := { ns := 5 } }) : State)).timersFirst (↑((2 : Fin 512)) : Nat) 1).portOf ((((lvl 2 (qS 2 1#32 0x10031003#32 { on := true, tail := [sm 5], head := [sm 8 true, sm 9 true], pkts := 2 } { regions := [(0, { portWay := [(3, [(0, { v := 4, e := true })])], popWay := [(3, [0])] })], noc := { ns := 5 } }) : State)).timersFirst (↑((2 : Fin 512)) : Nat) 1).cons (↑((2 : Fin 512)) : Nat))).get (by all_goals decide +kernel)).1)).popWay ((((((lvl 2 (qS 2 1#32 0x10031003#32 { on := true, tail := [sm 5], head := [sm 8 true, sm 9 true], pkts := 2 } { regions := [(0, { portWay := [(3, [(0, { v := 4, e := true })])], popWay := [(3, [0])] })], noc := { ns := 5 } }) : State)).timersFirst (↑((2 : Fin 512)) : Nat) 1).portOf ((((lvl 2 (qS 2 1#32 0x10031003#32 { on := true, tail := [sm 5], head := [sm 8 true, sm 9 true], pkts := 2 } { regions := [(0, { portWay := [(3, [(0, { v := 4, e := true })])], popWay := [(3, [0])] })], noc := { ns := 5 } }) : State)).timersFirst (↑((2 : Fin 512)) : Nat) 1).cons (↑((2 : Fin 512)) : Nat))).get (by all_goals decide +kernel)).2)).head (by all_goals decide +kernel), (mget [] ((((lvl 2 (qS 2 1#32 0x10031003#32 { on := true, tail := [sm 5], head := [sm 8 true, sm 9 true], pkts := 2 } { regions := [(0, { portWay := [(3, [(0, { v := 4, e := true })])], popWay := [(3, [0])] })], noc := { ns := 5 } }) : State)).timersFirst (↑((2 : Fin 512)) : Nat) 1).region ((((((lvl 2 (qS 2 1#32 0x10031003#32 { on := true, tail := [sm 5], head := [sm 8 true, sm 9 true], pkts := 2 } { regions := [(0, { portWay := [(3, [(0, { v := 4, e := true })])], popWay := [(3, [0])] })], noc := { ns := 5 } }) : State)).timersFirst (↑((2 : Fin 512)) : Nat) 1).portOf ((((lvl 2 (qS 2 1#32 0x10031003#32 { on := true, tail := [sm 5], head := [sm 8 true, sm 9 true], pkts := 2 } { regions := [(0, { portWay := [(3, [(0, { v := 4, e := true })])], popWay := [(3, [0])] })], noc := { ns := 5 } }) : State)).timersFirst (↑((2 : Fin 512)) : Nat) 1).cons (↑((2 : Fin 512)) : Nat))).get (by all_goals decide +kernel)).1)).popWay ((((((lvl 2 (qS 2 1#32 0x10031003#32 { on := true, tail := [sm 5], head := [sm 8 true, sm 9 true], pkts := 2 } { regions := [(0, { portWay := [(3, [(0, { v := 4, e := true })])], popWay := [(3, [0])] })], noc := { ns := 5 } }) : State)).timersFirst (↑((2 : Fin 512)) : Nat) 1).portOf ((((lvl 2 (qS 2 1#32 0x10031003#32 { on := true, tail := [sm 5], head := [sm 8 true, sm 9 true], pkts := 2 } { regions := [(0, { portWay := [(3, [(0, { v := 4, e := true })])], popWay := [(3, [0])] })], noc := { ns := 5 } }) : State)).timersFirst (↑((2 : Fin 512)) : Nat) 1).cons (↑((2 : Fin 512)) : Nat))).get (by all_goals decide +kernel)).2)).tail, _, _, (by decide +kernel), (by decide +kernel), someGet2 _ (by decide +kernel), someGet2 _ (by decide +kernel), (by decide +kernel), (by decide +kernel)⟩,
   ⟨(2 : Fin 512), (lvl 2 (qS 2 1#32 0x10031003#32 { on := true, tail := [sm 5], head := [sm 8 true, sm 9 true], pkts := 2 } { regions := [(0, { portWay := [(3, [(9, { v := 4, e := true })])], popWay := [(3, [9])] })], noc := { ns := 5 } }) : State), _, _, (mget [] ((((lvl 2 (qS 2 1#32 0x10031003#32 { on := true, tail := [sm 5], head := [sm 8 true, sm 9 true], pkts := 2 } { regions := [(0, { portWay := [(3, [(9, { v := 4, e := true })])], popWay := [(3, [9])] })], noc := { ns := 5 } }) : State)).timersFirst (↑((2 : Fin 512)) : Nat) 1).region ((((((lvl 2 (qS 2 1#32 0x10031003#32 { on := true, tail := [sm 5], head := [sm 8 true, sm 9 true], pkts := 2 } { regions := [(0, { portWay := [(3, [(9, { v := 4, e := true })])], popWay := [(3, [9])] })], noc := { ns := 5 } }) : State)).timersFirst (↑((2 : Fin 512)) : Nat) 1).portOf ((((lvl 2 (qS 2 1#32 0x10031003#32 { on := true, tail := [sm 5], head := [sm 8 true, sm 9 true], pkts := 2 } { regions := [(0, { portWay := [(3, [(9, { v := 4, e := true })])], popWay := [(3, [9])] })], noc := { ns := 5 } }) : State)).timersFirst (↑((2 : Fin 512)) : Nat) 1).cons (↑((2 : Fin 512)) : Nat))).get (by all_goals decide +kernel)).1)).popWay ((((((lvl 2 (qS 2 1#32 0x10031003#32 { on := true, tail := [sm 5], head := [sm 8 true, sm 9 true], pkts := 2 } { regions := [(0, { portWay := [(3, [(9, { v := 4, e := true })])], popWay := [(3, [9])] })], noc := { ns := 5 } }) : State)).timersFirst (↑((2 : Fin 512)) : Nat) 1).portOf ((((lvl 2 (qS 2 1#32 0x10031003#32 { on := true, tail := [sm 5], head := [sm 8 true, sm 9 true], pkts := 2 } { regions := [(0, { portWay := [(3, [(9, { v := 4, e := true })])], popWay := [(3, [9])] })], noc := { ns := 5 } }) : State)).timersFirst (↑((2 : Fin 512)) : Nat) 1).cons (↑((2 : Fin 512)) : Nat))).get (by all_goals decide +kernel)).2)).head (by all_goals decide +kernel), (mget [] ((((lvl 2 (qS 2 1#32 0x10031003#32 { on := true, tail := [sm 5], head := [sm 8 true, sm 9 true], pkts := 2 } { regions := [(0, { portWay := [(3, [(9, { v := 4, e := true })])], popWay := [(3, [9])] })], noc := { ns := 5 } }) : State)).timersFirst (↑((2 : Fin 512)) : Nat) 1).region ((((((lvl 2 (qS 2 1#32 0x10031003#32 { on := true, tail := [sm 5], head := [sm 8 true, sm 9 true], pkts := 2 } { regions := [(0, { portWay := [(3, [(9, { v := 4, e := true })])], popWay := [(3, [9])] })], noc := { ns := 5 } }) : State)).timersFirst (↑((2 : Fin 512)) : Nat) 1).portOf ((((lvl 2 (qS 2 1#32 0x10031003#32 { on := true, tail := [sm 5], head := [sm 8 true, sm 9 true], pkts := 2 } { regions := [(0, { portWay := [(3, [(9, { v := 4, e := true })])], popWay := [(3, [9])] })], noc := { ns := 5 } }) : State)).timersFirst (↑((2 : Fin 512)) : Nat) 1).cons (↑((2 : Fin 512)) : Nat))).get (by all_goals decide +kernel)).1)).popWay ((((((lvl 2 (qS 2 1#32 0x10031003#32 { on := true, tail := [sm 5], head := [sm 8 true, sm 9 true], pkts := 2 } { regions := [(0, { portWay := [(3, [(9, { v := 4, e := true })])], popWay := [(3, [9])] })], noc := { ns := 5 } }) : State)).timersFirst (↑((2 : Fin 512)) : Nat) 1).portOf ((((lvl 2 (qS 2 1#32 0x10031003#32 { on := true, tail := [sm 5], head := [sm 8 true, sm 9 true], pkts := 2 } { regions := [(0, { portWay := [(3, [(9, { v := 4, e := true })])], popWay := [(3, [9])] })], noc := { ns := 5 } }) : State)).timersFirst (↑((2 : Fin 512)) : Nat) 1).cons (↑((2 : Fin 512)) : Nat))).get (by all_goals decide +kernel)).2)).tail, _, _, (by decide +kernel), (by decide +kernel), someGet2 _ (by decide +kernel), someGet2 _ (by decide +kernel), (by decide +kernel), (by decide +kernel)⟩⟩

theorem witness6 :
    (∃ (q : Fin 512) (s : State), s.dead = false ∧ (s.queue (↑q : Nat)).on = false) ∧
    (∃ (q : Fin 512) (s : State), s.dead = false ∧ (s.queue (↑q : Nat)).on = true ∧ ((s.timersFirst (↑q : Nat) 1).queue (↑q : Nat)).head = []) :=
  ⟨⟨(2 : Fin 512), (s0 : State), (by decide +kernel), (by decide +kernel)⟩,
   ⟨(2 : Fin 512), (lvl 2 (qS 2 1#32 0x30002000#32 { on := true }) : State), (by decide +kernel), (by decide +kernel), (by decide +kernel)⟩⟩

end QueuePushesAndPops

/-! Witnesses of `Obligations.QueueDataRegisterReadsAndWrites`. -/
namespace QueueDataRegisterReadsAndWrites

def qS (q : Nat) (c v : BitVec 32) (x : Queue) (e : State := {}) : State := { e with queues := mset {} e.queues q { x with ll := true, hl := false }, regs := (mset 0 (mset 0 e.regs (queueBase q) c) (queueBase q + 8) v) }
def lvl (q : Nat) (s : State) : State := { s with regs := mset 0 s.regs (queueBase q + 0x20) 999#32 }
def sm (n : Nat) (e : Bool := false) : QSamp := QSamp.ofChan { v := BitVec.ofNat 20 n, e := e }

theorem witness0 :
    (∃ (q : Fin 512) (s : State), (s.timersFirst (↑q : Nat) 1).cons (↑q : Nat) ≠ 0) ∧
    (∃ (q : Fin 512) (s : State), (s.timersFirst (↑q : Nat) 1).cons (↑q : Nat) = 0 ∧ (((s.timersFirst (↑q : Nat) 1).queue (↑q : Nat)).on = false ∨ ((s.timersFirst (↑q : Nat) 1).queue (↑q : Nat)).head = [])) ∧
    (∃ (q : Fin 512) (s : State) (z : State) (c : Chan), (s.timersFirst (↑q : Nat) 1).cons (↑q : Nat) = 0 ∧ ((s.timersFirst (↑q : Nat) 1).queue (↑q : Nat)).on = true ∧ (s.timersFirst (↑q : Nat) 1).popHead (↑q : Nat) = some (z, c)) :=
  ⟨⟨(2 : Fin 512), (lvl 2 (qS 2 1#32 0x30002000#32 { on := true, tail := [sm 5], head := [sm 8 true, sm 9 true], pkts := 2 }) : State), (by decide +kernel)⟩,
   ⟨(2 : Fin 512), (s0 : State), (by decide +kernel), (by decide +kernel)⟩,
   ⟨(2 : Fin 512), (lvl 2 (qS 2 1#32 0#32 { on := true, tail := [sm 5], head := [sm 8 true, sm 9 true], pkts := 2 }) : State), _, _, (by decide +kernel), (by decide +kernel), someGet2 _ (by decide +kernel)⟩⟩

theorem witness1 :
    (∃ (q : Fin 512) (v : Word32) (s : State), (s.timersFirst (↑q : Nat) 0).prod (↑q : Nat) = 0 ∧ (((s.timersFirst (↑q : Nat) 0).queue (↑q : Nat)).on && decide (((s.timersFirst (↑q : Nat) 0).queue (↑q : Nat)).tail.length < 16) && (!{ v := BitVec.ofNat 20 (fld v 0 20), e := BitVec.getLsbD v 20, p := BitVec.getLsbD v 21 : Chan }.e || decide (((s.timersFirst (↑q : Nat) 0).queue (↑q : Nat)).pkts < 65535))) = true) ∧
    (∃ (q : Fin 512) (v : Word32) (s : State), ((s.timersFirst (↑q : Nat) 0).prod (↑q : Nat) ≠ 0 ∨ (((s.timersFirst (↑q : Nat) 0).queue (↑q : Nat)).on && decide (((s.timersFirst (↑q : Nat) 0).queue (↑q : Nat)).tail.length < 16) && (!{ v := BitVec.ofNat 20 (fld v 0 20), e := BitVec.getLsbD v 20, p := BitVec.getLsbD v 21 : Chan }.e || decide (((s.timersFirst (↑q : Nat) 0).queue (↑q : Nat)).pkts < 65535))) = false)) :=
  ⟨⟨(2 : Fin 512), (0x00000005#32 : Word32), (lvl 2 (qS 2 1#32 0#32 { on := true, tail := [sm 5], head := [sm 8 true, sm 9 true], pkts := 2 }) : State), (by decide +kernel), (by decide +kernel)⟩,
   ⟨(2 : Fin 512), (0x00000005#32 : Word32), (s0 : State), (by decide +kernel)⟩⟩

end QueueDataRegisterReadsAndWrites

/-! Witnesses of `Obligations.QueueSamplesMoveInOrder`. -/
namespace QueueSamplesMoveInOrder

def qR (q : Nat) (c v : BitVec 32) (x : Queue) (k : Nat := 0) : State := { queues := [(q, { x with ll := true })], regs := [(queueBase q, c), (queueBase q + 8, v), (queueBase q + 0xC, BitVec.ofNat 32 (cellAddr 0 5 16)), (queueBase q + 0x10, BitVec.ofNat 32 (cellAddr 0 5 16 / 2^32)), (queueBase q + 0x14, 3#32), (queueBase q + 0x18, BitVec.ofNat 32 k), (queueBase q + 0x20, 999#32)] ++ [(memctl 0 5, 2#32)] }
def sm (n : Nat) (e : Bool := false) : QSamp := QSamp.ofChan { v := BitVec.ofNat 20 n, e := e }
def sms (l : List Nat) : List QSamp := l.map (fun n => sm n)

theorem witness0 :
    (∃ (q : Fin 512) (n : Nat) (s : State) (c : Instr), s.dead = false ∧ ((s.timersFirst (↑q : Nat) 0).queue (↑q : Nat)).on = true ∧ (c = Instr.ship q ∧ n = (s.timersFirst (↑q : Nat) 0).shipDue (↑q : Nat) ∨ c = Instr.flush q ∧ n = if ((s.timersFirst (↑q : Nat) 0).simple (↑q : Nat) || ((s.timersFirst (↑q : Nat) 0).queue (↑q : Nat)).merr) = true then 0 else max (min ((s.timersFirst (↑q : Nat) 0).queue (↑q : Nat)).tail.length ((s.timersFirst (↑q : Nat) 0).ringFree (↑q : Nat))) ((s.timersFirst (↑q : Nat) 0).shipDue (↑q : Nat))) ∧ n = 0) ∧
    (∃ (q : Fin 512) (n : Nat) (s : State) (ok : Bool) (c : Instr) (u : State), s.dead = false ∧ ((s.timersFirst (↑q : Nat) 0).queue (↑q : Nat)).on = true ∧ (c = Instr.ship q ∧ n = (s.timersFirst (↑q : Nat) 0).shipDue (↑q : Nat) ∨ c = Instr.flush q ∧ n = if ((s.timersFirst (↑q : Nat) 0).simple (↑q : Nat) || ((s.timersFirst (↑q : Nat) 0).queue (↑q : Nat)).merr) = true then 0 else max (min ((s.timersFirst (↑q : Nat) 0).queue (↑q : Nat)).tail.length ((s.timersFirst (↑q : Nat) 0).ringFree (↑q : Nat))) ((s.timersFirst (↑q : Nat) 0).shipDue (↑q : Nat))) ∧ 0 < n ∧ (List.foldl (State.shipOne (↑q : Nat)) (List.foldl (fun (s : State) (t : QSamp) => if t.bad = true then s.parityError (↑q : Nat) false else s) (s.timersFirst (↑q : Nat) 0) (List.take n ((s.timersFirst (↑q : Nat) 0).queue (↑q : Nat)).tail), true) (shipWords ((s.timersFirst (↑q : Nat) 0).mbase (↑q : Nat)) ((s.timersFirst (↑q : Nat) 0).ringCap (↑q : Nat)) ((s.timersFirst (↑q : Nat) 0).queue (↑q : Nat)).wr (List.map QSamp.out (List.take n ((s.timersFirst (↑q : Nat) 0).queue (↑q : Nat)).tail))) = (u, ok))) :=
  ⟨⟨(2 : Fin 512), _, (qR 2 0x5#32 0#32 { on := true, tail := [sm 3, sm 4 true, sm 5], unread := 3, wr := 3, stage := [[{ v := 1 }, { v := 2 }]], rd := 2, head := [sm 9] } : State), (Sys2Proof.Instr.ship 2 : Instr), (by decide +kernel), (by decide +kernel), (by decide +kernel), rfl⟩,
   ⟨(2 : Fin 512), (2 : Nat), (qR 2 0xD#32 0#32 { on := true, tail := [sm 3, { (sm 4 true) with par := false}, sm 5], unread := 3, wr := 3, rd := 2, head := [sm 9] } : State), _, (Sys2Proof.Instr.ship 2 : Instr), _, (by decide +kernel), (by decide +kernel), (by decide +kernel), (by decide +kernel), pairEta2 _⟩⟩

theorem witness1 :
    (∃ (q : Fin 512) (w : Nat × List (Nat × Chan)) (s : State) (st : Nat) (u : State), s.midWrite (queuePlane (↑q : Nat)) w.fst (shipMask w.snd) (shipLine w.snd) = (u, st) ∧ st ≠ 0) ∧
    (∃ (q : Fin 512) (w : Nat × List (Nat × Chan)) (s : State) (st : Nat) (u : State), s.midWrite (queuePlane (↑q : Nat)) w.fst (shipMask w.snd) (shipLine w.snd) = (u, st) ∧ st = 0) :=
  ⟨⟨(2 : Fin 512), ((0, []) : Nat × List (Nat × Chan)), (s0 : State), _, _, pairEta2 _, (by decide +kernel)⟩,
   ⟨(2 : Fin 512), ((274878071296, [(0, { v := 0x00003#20, e := false, p := false }), (1, { v := 0x00004#20, e := true, p := false })]) : Nat × List (Nat × Chan)), (qR 2 0xD#32 0#32 { on := true, tail := sms (List.range 14), wr := 30, rd := 30 } : State), _, _, pairEta2 _, (by decide +kernel)⟩⟩

theorem witness2 :
    (∃ (q : Fin 512) (s : State), s.dead = false ∧ ((s.timersFirst (↑q : Nat) 0).queue (↑q : Nat)).on = false) :=
  ⟨(2 : Fin 512), (s0 : State), (by decide +kernel), (by decide +kernel)⟩

theorem witness3 :
    (∃ (q : Fin 512) (s : State) (a : MemAns) (u : State), s.dead = false ∧ (s.timersFirst (↑q : Nat) 0).midRead (queuePlane (↑q : Nat)) ((s.timersFirst (↑q : Nat) 0).ringAddr (↑q : Nat) ((s.timersFirst (↑q : Nat) 0).queue (↑q : Nat)).rd) = (u, a) ∧ (((s.timersFirst (↑q : Nat) 0).queue (↑q : Nat)).on && !(s.timersFirst (↑q : Nat) 0).simple (↑q : Nat) && !((s.timersFirst (↑q : Nat) 0).queue (↑q : Nat)).merr && decide (((s.timersFirst (↑q : Nat) 0).queue (↑q : Nat)).staged < ((s.timersFirst (↑q : Nat) 0).queue (↑q : Nat)).unread) && decide (((s.timersFirst (↑q : Nat) 0).queue (↑q : Nat)).stage.length < 8)) = true ∧ a.status = 0) ∧
    (∃ (q : Fin 512) (s : State) (a : MemAns) (u : State), s.dead = false ∧ (s.timersFirst (↑q : Nat) 0).midRead (queuePlane (↑q : Nat)) ((s.timersFirst (↑q : Nat) 0).ringAddr (↑q : Nat) ((s.timersFirst (↑q : Nat) 0).queue (↑q : Nat)).rd) = (u, a) ∧ (((s.timersFirst (↑q : Nat) 0).queue (↑q : Nat)).on && !(s.timersFirst (↑q : Nat) 0).simple (↑q : Nat) && !((s.timersFirst (↑q : Nat) 0).queue (↑q : Nat)).merr && decide (((s.timersFirst (↑q : Nat) 0).queue (↑q : Nat)).staged < ((s.timersFirst (↑q : Nat) 0).queue (↑q : Nat)).unread) && decide (((s.timersFirst (↑q : Nat) 0).queue (↑q : Nat)).stage.length < 8)) = true ∧ a.status ≠ 0) ∧
    (∃ (q : Fin 512) (s : State) (a : MemAns) (u : State), s.dead = false ∧ (s.timersFirst (↑q : Nat) 0).midRead (queuePlane (↑q : Nat)) ((s.timersFirst (↑q : Nat) 0).ringAddr (↑q : Nat) ((s.timersFirst (↑q : Nat) 0).queue (↑q : Nat)).rd) = (u, a) ∧ (((s.timersFirst (↑q : Nat) 0).queue (↑q : Nat)).on && !(s.timersFirst (↑q : Nat) 0).simple (↑q : Nat) && !((s.timersFirst (↑q : Nat) 0).queue (↑q : Nat)).merr && decide (((s.timersFirst (↑q : Nat) 0).queue (↑q : Nat)).staged < ((s.timersFirst (↑q : Nat) 0).queue (↑q : Nat)).unread) && decide (((s.timersFirst (↑q : Nat) 0).queue (↑q : Nat)).stage.length < 8)) = false) :=
  ⟨⟨(2 : Fin 512), (qR 2 0x5#32 0#32 { on := true, tail := [sm 3, sm 4 true, sm 5], unread := 3, wr := 3, stage := [[{ v := 1 }, { v := 2 }]], rd := 2, head := [sm 9] } : State), _, _, (by decide +kernel), pairEta2 _, (by decide +kernel), (by decide +kernel)⟩,
   ⟨(2 : Fin 512), ({ qR 2 5#32 0#32 { on := true, unread := 3, wr := 3 } with regs := [(queueBase 2, 5#32)] } : State), _, _, (by decide +kernel), pairEta2 _, (by decide +kernel), (by decide +kernel)⟩,
   ⟨(2 : Fin 512), (s0 : State), _, _, (by decide +kernel), pairEta2 _, (by decide +kernel)⟩⟩

theorem witness4 :
    (∃ (q : Fin 512) (s : State), s.dead = false ∧ ((s.timersFirst (↑q : Nat) 0).queue (↑q : Nat)).on = true ∧ (s.timersFirst (↑q : Nat) 0).simple (↑q : Nat) = false ∧ ((s.timersFirst (↑q : Nat) 0).queue (↑q : Nat)).merr = false) ∧
    (∃ (q : Fin 512) (s : State), s.dead = false ∧ ((s.timersFirst (↑q : Nat) 0).simple (↑q : Nat) = true ∨ ((s.timersFirst (↑q : Nat) 0).queue (↑q : Nat)).merr = true)) :=
  ⟨⟨(2 : Fin 512), (qR 2 0xD#32 0#32 { on := true, tail := sms (List.range 14), wr := 30, rd := 30 } : State), (by decide +kernel), (by decide +kernel), (by decide +kernel), (by decide +kernel)⟩,
   ⟨(2 : Fin 512), (qR 2 3#32 0#32 { on := true, tail := [sm 3, sm 4 true], wp := 5, rp := 5, head := [sm 9] } 0x40010 : State), (by decide +kernel), (by decide +kernel)⟩⟩

theorem witness5 :
    (∃ (q : Fin 512) (s : State), s.dead = false ∧ ((s.timersFirst (↑q : Nat) 0).queue (↑q : Nat)).on = true ∧ (s.timersFirst (↑q : Nat) 0).simple (↑q : Nat) = true) ∧
    (∃ (q : Fin 512) (s : State), s.dead = false ∧ (s.timersFirst (↑q : Nat) 0).simple (↑q : Nat) = false) :=
  ⟨⟨(2 : Fin 512), (qR 2 3#32 0#32 { on := true, tail := [sm 3, sm 4 true], wp := 5, rp := 5, head := [sm 9] } 0x40010 : State), (by decide +kernel), (by decide +kernel), (by decide +kernel)⟩,
   ⟨(2 : Fin 512), (s0 : State), (by decide +kernel), (by decide +kernel)⟩⟩

theorem witness6 :
    (∃ (q : Fin 512) (s : State) (a : MemAns) (u : State), s.midRead (queuePlane (↑q : Nat)) (s.simpleAt (↑q : Nat) (s.queue (↑q : Nat)).rp).fst = (u, a) ∧ (!(s.queue (↑q : Nat)).merr && decide ((s.queue (↑q : Nat)).wp ≠ (s.queue (↑q : Nat)).rp) && decide ((s.queue (↑q : Nat)).head.length < 16)) = false) ∧
    (∃ (q : Fin 512) (s : State) (a : MemAns) (u : State), s.midRead (queuePlane (↑q : Nat)) (s.simpleAt (↑q : Nat) (s.queue (↑q : Nat)).rp).fst = (u, a) ∧ (!(s.queue (↑q : Nat)).merr && decide ((s.queue (↑q : Nat)).wp ≠ (s.queue (↑q : Nat)).rp) && decide ((s.queue (↑q : Nat)).head.length < 16)) = true ∧ a.status ≠ 0) ∧
    (∃ (q : Fin 512) (s : State) (a : MemAns) (u : State), s.midRead (queuePlane (↑q : Nat)) (s.simpleAt (↑q : Nat) (s.queue (↑q : Nat)).rp).fst = (u, a) ∧ (!(s.queue (↑q : Nat)).merr && decide ((s.queue (↑q : Nat)).wp ≠ (s.queue (↑q : Nat)).rp) && decide ((s.queue (↑q : Nat)).head.length < 16)) = true ∧ a.status = 0) :=
  ⟨⟨(2 : Fin 512), (s0 : State), _, _, pairEta2 _, (by decide +kernel)⟩,
   ⟨(2 : Fin 512), ((let s := qR 2 3#32 0#32 { on := true, tail := [sm 3, sm 4 true], wp := 5, rp := 3 } 0x40010; { s with regs := s.regs.filter (fun e => e.1 != memctl 0 5) }) : State), _, _, pairEta2 _, (by decide +kernel), (by decide +kernel)⟩,
   ⟨(2 : Fin 512), (qR 2 3#32 0#32 { on := true, tail := [], wp := 5, rp := 3, head := [sm 9] } 0x40010 : State), _, _, pairEta2 _, (by decide +kernel), (by decide +kernel)⟩⟩

theorem witness7 :
    (∃ (q : Fin 512) (s : State) (h : QSamp) (rest : List QSamp) (u : State) (st : Nat), (s.queue (↑q : Nat)).tail = h :: rest ∧ ((if h.bad = true then s.parityError (↑q : Nat) false else s).midWrite (queuePlane (↑q : Nat)) ((if h.bad = true then s.parityError (↑q : Nat) false else s).simpleAt (↑q : Nat) (s.queue (↑q : Nat)).wp).fst (setBit 0 ((if h.bad = true then s.parityError (↑q : Nat) false else s).simpleAt (↑q : Nat) (s.queue (↑q : Nat)).wp).snd true) (shipLine [(((if h.bad = true then s.parityError (↑q : Nat) false else s).simpleAt (↑q : Nat) (s.queue (↑q : Nat)).wp).snd, h.out)]) = (u, st)) ∧ (!(s.queue (↑q : Nat)).merr && decide ((s.queue (↑q : Nat)).wp - (s.queue (↑q : Nat)).rp < 2 ^ s.rf (queueBase (↑q : Nat) + 24) 16 4)) = false) ∧
    (∃ (q : Fin 512) (s : State) (h : QSamp) (rest : List QSamp) (u : State) (st : Nat), (s.queue (↑q : Nat)).tail = h :: rest ∧ ((if h.bad = true then s.parityError (↑q : Nat) false else s).midWrite (queuePlane (↑q : Nat)) ((if h.bad = true then s.parityError (↑q : Nat) false else s).simpleAt (↑q : Nat) (s.queue (↑q : Nat)).wp).fst (setBit 0 ((if h.bad = true then s.parityError (↑q : Nat) false else s).simpleAt (↑q : Nat) (s.queue (↑q : Nat)).wp).snd true) (shipLine [(((if h.bad = true then s.parityError (↑q : Nat) false else s).simpleAt (↑q : Nat) (s.queue (↑q : Nat)).wp).snd, h.out)]) = (u, st)) ∧ (!(s.queue (↑q : Nat)).merr && decide ((s.queue (↑q : Nat)).wp - (s.queue (↑q : Nat)).rp < 2 ^ s.rf (queueBase (↑q : Nat) + 24) 16 4)) = true ∧ st ≠ 0) ∧
    (∃ (q : Fin 512) (s : State) (st : Nat) (h : QSamp) (rest : List QSamp) (u : State), (s.queue (↑q : Nat)).tail = h :: rest ∧ ((if h.bad = true then s.parityError (↑q : Nat) false else s).midWrite (queuePlane (↑q : Nat)) ((if h.bad = true then s.parityError (↑q : Nat) false else s).simpleAt (↑q : Nat) (s.queue (↑q : Nat)).wp).fst (setBit 0 ((if h.bad = true then s.parityError (↑q : Nat) false else s).simpleAt (↑q : Nat) (s.queue (↑q : Nat)).wp).snd true) (shipLine [(((if h.bad = true then s.parityError (↑q : Nat) false else s).simpleAt (↑q : Nat) (s.queue (↑q : Nat)).wp).snd, h.out)]) = (u, st)) ∧ (!(s.queue (↑q : Nat)).merr && decide ((s.queue (↑q : Nat)).wp - (s.queue (↑q : Nat)).rp < 2 ^ s.rf (queueBase (↑q : Nat) + 24) 16 4)) = true ∧ st = 0) :=
  ⟨⟨(2 : Fin 512), (qR 2 3#32 0#32 { on := true, tail := [sm 3], wp := 25, rp := 5 } 0x40010 : State), ((((qR 2 3#32 0#32 { on := true, tail := [sm 3], wp := 25, rp := 5 } 0x40010 : State)).queue (↑((2 : Fin 512)) : Nat)).tail).head (by all_goals decide +kernel), ((((qR 2 3#32 0#32 { on := true, tail := [sm 3], wp := 25, rp := 5 } 0x40010 : State)).queue (↑((2 : Fin 512)) : Nat)).tail).tail, _, _, (by decide +kernel), pairEta2 _, (by decide +kernel)⟩,
   ⟨(2 : Fin 512), ((let s := qR 2 3#32 0#32 { on := true, tail := [sm 3, sm 4 true], wp := 5, rp := 3 } 0x40010; { s with regs := s.regs.filter (fun e => e.1 != memctl 0 5) }) : State), (((((let s := qR 2 3#32 0#32 { on := true, tail := [sm 3, sm 4 true], wp := 5, rp := 3 } 0x40010; { s with regs := s.regs.filter (fun e => e.1 != memctl 0 5) }) : State)).queue (↑((2 : Fin 512)) : Nat)).tail).head (by all_goals decide +kernel), (((((let s := qR 2 3#32 0#32 { on := true, tail := [sm 3, sm 4 true], wp := 5, rp := 3 } 0x40010; { s with regs := s.regs.filter (fun e => e.1 != memctl 0 5) }) : State)).queue (↑((2 : Fin 512)) : Nat)).tail).tail, _, _, (by decide +kernel), pairEta2 _, (by decide +kernel), (by decide +kernel)⟩,
   ⟨(2 : Fin 512), (qR 2 0xD#32 0#32 { on := true, tail := sms (List.range 14), wr := 30, rd := 30 } : State), _, ((((qR 2 0xD#32 0#32 { on := true, tail := sms (List.range 14), wr := 30, rd := 30 } : State)).queue (↑((2 : Fin 512)) : Nat)).tail).head (by all_goals decide +kernel), ((((qR 2 0xD#32 0#32 { on := true, tail := sms (List.range 14), wr := 30, rd := 30 } : State)).queue (↑((2 : Fin 512)) : Nat)).tail).tail, _, (by decide +kernel), pairEta2 _, (by decide +kernel), (by decide +kernel)⟩⟩

theorem witness8 :
    (∃ (q : Fin 512) (s : State), (s.queue (↑q : Nat)).tail = []) :=
  ⟨(2 : Fin 512), (s0 : State), (by decide +kernel)⟩

end QueueSamplesMoveInOrder

/-! Witnesses of `Obligations.QueueMarksAndRewinds`. -/
namespace QueueMarksAndRewinds

def sm (n : Nat) (e : Bool := false) : QSamp := QSamp.ofChan { v := BitVec.ofNat 20 n, e := e }
def qM (c v : BitVec 32) (x : Queue) : State := { queues := [(2, { x with ll := true })], regs := [(queueBase 2, c), (queueBase 2 + 8, v), (queueBase 2 + 0x14, 3#32), (queueBase 2 + 0x20, 999#32), (queueBase 2 + 0x24, 0x10000#32)], now := 1000000000 }

theorem witness0 :
    (∃ (q : Fin 512) (s : State) (c : Instr), s.dead = false ∧ (c = Instr.setmark q ∨ c = Instr.rewind q ∨ c = Instr.release q) ∧ ((s.timersFirst (↑q : Nat) 0).queue (↑q : Nat)).on = false) ∧
    (∃ (q : Fin 512) (s : State) (c : Instr), s.dead = false ∧ (c = Instr.setmark q ∨ c = Instr.rewind q ∨ c = Instr.release q) ∧ ((s.timersFirst (↑q : Nat) 0).queue (↑q : Nat)).on = true ∧ (s.timersFirst (↑q : Nat) 0).simple (↑q : Nat) = true) :=
  ⟨⟨(2 : Fin 512), (s0 : State), (Sys2Proof.Instr.setmark 2 : Instr), (by decide +kernel), (by decide +kernel), (by decide +kernel)⟩,
   ⟨(2 : Fin 512), (qM 3#32 0#32 { on := true } : State), (Sys2Proof.Instr.setmark 2 : Instr), (by decide +kernel), (by decide +kernel), (by decide +kernel), (by decide +kernel)⟩⟩

theorem witness1 :
    (∃ (q : Fin 512) (s : State), s.dead = false ∧ ((s.timersFirst (↑q : Nat) 0).queue (↑q : Nat)).on = true ∧ (s.timersFirst (↑q : Nat) 0).simple (↑q : Nat) = false ∧ ((s.timersFirst (↑q : Nat) 0).queue (↑q : Nat)).atBound = true) ∧
    (∃ (q : Fin 512) (s : State), s.dead = false ∧ ((s.timersFirst (↑q : Nat) 0).queue (↑q : Nat)).on = true ∧ (s.timersFirst (↑q : Nat) 0).simple (↑q : Nat) = false ∧ ((s.timersFirst (↑q : Nat) 0).queue (↑q : Nat)).atBound = false) ∧
    (∃ (q : Fin 512) (s : State), s.dead = false ∧ ((s.timersFirst (↑q : Nat) 0).queue (↑q : Nat)).on = true ∧ (s.timersFirst (↑q : Nat) 0).simple (↑q : Nat) = false ∧ (((s.timersFirst (↑q : Nat) 0).queue (↑q : Nat)).mark.isSome = true ∨ ((s.timersFirst (↑q : Nat) 0).queue (↑q : Nat)).mpend = true)) ∧
    (∃ (q : Fin 512) (s : State), s.dead = false ∧ ((s.timersFirst (↑q : Nat) 0).queue (↑q : Nat)).on = true ∧ (s.timersFirst (↑q : Nat) 0).simple (↑q : Nat) = false ∧ ((s.timersFirst (↑q : Nat) 0).queue (↑q : Nat)).mark = none ∧ ((s.timersFirst (↑q : Nat) 0).queue (↑q : Nat)).mpend = false) ∧
    (∃ (q : Fin 512) (s : State), s.dead = false ∧ ((s.timersFirst (↑q : Nat) 0).queue (↑q : Nat)).on = true ∧ (s.timersFirst (↑q : Nat) 0).simple (↑q : Nat) = false ∧ ((s.timersFirst (↑q : Nat) 0).queue (↑q : Nat)).mark.isSome = true ∧ (s.timersFirst (↑q : Nat) 0).consumerActive (↑q : Nat) = true) ∧
    (∃ (q : Fin 512) (s : State), s.dead = false ∧ ((s.timersFirst (↑q : Nat) 0).queue (↑q : Nat)).on = true ∧ (s.timersFirst (↑q : Nat) 0).simple (↑q : Nat) = false ∧ ((s.timersFirst (↑q : Nat) 0).queue (↑q : Nat)).mark.isSome = true ∧ (s.timersFirst (↑q : Nat) 0).consumerActive (↑q : Nat) = false ∧ (s.timersFirst (↑q : Nat) 0).portOf ((s.timersFirst (↑q : Nat) 0).cons (↑q : Nat)) = none) ∧
    (∃ (q : Fin 512) (s : State), s.dead = false ∧ ((s.timersFirst (↑q : Nat) 0).queue (↑q : Nat)).on = true ∧ (s.timersFirst (↑q : Nat) 0).simple (↑q : Nat) = false ∧ ((s.timersFirst (↑q : Nat) 0).queue (↑q : Nat)).mark.isSome = true ∧ (s.timersFirst (↑q : Nat) 0).consumerActive (↑q : Nat) = false ∧ ((s.timersFirst (↑q : Nat) 0).queue (↑q : Nat)).mpend = false) :=
  ⟨⟨(2 : Fin 512), (qM 1#32 0#32 { on := true, head := [sm 5], rd := 4 } : State), (by decide +kernel), (by decide +kernel), (by decide +kernel), (by decide +kernel)⟩,
   ⟨(2 : Fin 512), (qM 1#32 0#32 { on := true, head := [sm 5], rd := 4, atBound := false, mark := some 2, marked := 1, stage := [[{v := 4}]], unread := 5, pkts := 3, markPkts := 1 } : State), (by decide +kernel), (by decide +kernel), (by decide +kernel), (by decide +kernel)⟩,
   ⟨(2 : Fin 512), (qM 1#32 0x10030000#32 { on := true, mpend := true, atBound := false, mlostf := true } : State), (by decide +kernel), (by decide +kernel), (by decide +kernel), (by decide +kernel)⟩,
   ⟨(2 : Fin 512), (qM 1#32 0#32 { on := true, head := [sm 5], rd := 4 } : State), (by decide +kernel), (by decide +kernel), (by decide +kernel), (by decide +kernel), (by decide +kernel)⟩,
   ⟨(2 : Fin 512), ({ (qM 1#32 0x10030000#32 { on := true, head := [sm 5 true, sm 6], rd := 4, mark := some 2, marked := 1 }) with regions := [(0, { st := .run })], regs := [(queueBase 2, 1#32), (queueBase 2 + 8, 0x10030000#32), (0, 1#32)] } : State), (by decide +kernel), (by decide +kernel), (by decide +kernel), (by decide +kernel), (by decide +kernel)⟩,
   ⟨(2 : Fin 512), (qM 1#32 0x40070000#32 { on := true, head := [sm 5 true, sm 6], rd := 4, mark := some 2, marked := 1, mtmr := 1000000000 } : State), (by decide +kernel), (by decide +kernel), (by decide +kernel), (by decide +kernel), (by decide +kernel), (by decide +kernel)⟩,
   ⟨(2 : Fin 512), (qM 1#32 0x40070000#32 { on := true, head := [sm 5 true, sm 6], rd := 4, mark := some 2, marked := 1, mtmr := 1000000000 } : State), (by decide +kernel), (by decide +kernel), (by decide +kernel), (by decide +kernel), (by decide +kernel), (by decide +kernel)⟩⟩

theorem witness2 :
    (∃ (q : Fin 512) (s : State), s.dead = false ∧ (s.queue (↑q : Nat)).on = true ∧ (s.queue (↑q : Nat)).mark.isSome = true ∧ s.rf (queueBase (↑q : Nat) + 36) 16 14 ≠ 0 ∧ decide (tickAt (s.queue (↑q : Nat)).mtmr (s.rf (queueBase (↑q : Nat) + 36) 16 14) (tickUnit (s.rf (queueBase (↑q : Nat) + 36) 30 2)) ≤ s.now) = true) ∧
    (∃ (q : Fin 512) (s : State), s.dead = false ∧ ((s.queue (↑q : Nat)).on = false ∨ (s.queue (↑q : Nat)).mark = none ∨ s.rf (queueBase (↑q : Nat) + 36) 16 14 = 0 ∨ decide (tickAt (s.queue (↑q : Nat)).mtmr (s.rf (queueBase (↑q : Nat) + 36) 16 14) (tickUnit (s.rf (queueBase (↑q : Nat) + 36) 30 2)) ≤ s.now) = false)) :=
  ⟨⟨(2 : Fin 512), (qM 1#32 0#32 { on := true, head := [sm 5], rd := 4, atBound := false, mark := some 2, marked := 1, stage := [[{v := 4}]], unread := 5, pkts := 3, markPkts := 1 } : State), (by decide +kernel), (by decide +kernel), (by decide +kernel), (by decide +kernel), (by decide +kernel)⟩,
   ⟨(2 : Fin 512), (s0 : State), (by decide +kernel), (by decide +kernel)⟩⟩

end QueueMarksAndRewinds

/-! Witnesses of `Obligations.QueuesStartStopAndTimeOut`. -/
namespace QueuesStartStopAndTimeOut

def sm (n : Nat) (e : Bool := false) : QSamp := QSamp.ofChan { v := BitVec.ofNat 20 n, e := e }
def qM (c v : BitVec 32) (x : Queue) (cy : Word32 := 0x20#32) : State := { queues := [(2, { x with ll := true, notice := 5, hcnt := 3 })], regs := [(queueBase 2, c), (queueBase 2 + 8, v), (queueBase 2 + 0xC, BitVec.ofNat 32 (cellAddr 0 5 0)), (queueBase 2 + 0x10, BitVec.ofNat 32 (cellAddr 0 5 0 / 2^32)), (queueBase 2 + 0x14, 3#32), (queueBase 2 + 0x20, 999#32), (queueBase 2 + 0x24, 0x1#32), (memctl 0 5, 2#32)], now := 1000000000 }

theorem witness0 :
    (∃ (q : Fin 512) (s : State), s.dead = false ∧ s.rb (queueBase (↑q : Nat)) 0 = true) ∧
    (∃ (q : Fin 512) (v : Word32) (s : State) (c : Nat), s.dead = false ∧ s.rb (queueBase (↑q : Nat)) 0 = false ∧ lowestCode ((s.writeFields (queueBase (↑q : Nat)) (qCtrlSpec (↑q : Nat)) v).queueCheck (↑q : Nat)) = some c) ∧
    (∃ (q : Fin 512) (v : Word32) (s : State), s.dead = false ∧ s.rb (queueBase (↑q : Nat)) 0 = false ∧ lowestCode ((s.writeFields (queueBase (↑q : Nat)) (qCtrlSpec (↑q : Nat)) v).queueCheck (↑q : Nat)) = none) :=
  ⟨⟨(2 : Fin 512), (qM 5#32 0#32 { on := true, tail := [sm 5], mark := some 4 } : State), (by decide +kernel), (by decide +kernel)⟩,
   ⟨(2 : Fin 512), (0x00000000#32 : Word32), (s0 : State), _, (by decide +kernel), (by decide +kernel), someGet _ (by decide +kernel)⟩,
   ⟨(2 : Fin 512), (0x00000005#32 : Word32), (qM 4#32 0#32 {} : State), (by decide +kernel), (by decide +kernel), (by decide +kernel)⟩⟩

theorem witness1 :
    (∃ (q : Fin 512) (s : State), s.portOf (s.cons (↑q : Nat)) = none) ∧
    (∃ (q : Fin 512) (s : State), s.portOf (s.prod (↑q : Nat)) = none) ∧
    (∃ (q : Fin 512) (s : State) (r : Nat) (i : Nat), s.portOf (s.cons (↑q : Nat)) = some (r, i)) ∧
    (∃ (q : Fin 512) (s : State) (r : Nat) (i : Nat), s.portOf (s.prod (↑q : Nat)) = some (r, i)) :=
  ⟨⟨(2 : Fin 512), (s0 : State), (by decide +kernel)⟩,
   ⟨(2 : Fin 512), (s0 : State), (by decide +kernel)⟩,
   ⟨(2 : Fin 512), (qM 0#32 0x10031004#32 {} : State), _, _, someGet2 _ (by decide +kernel)⟩,
   ⟨(2 : Fin 512), (qM 0#32 0x10031004#32 {} : State), _, _, someGet2 _ (by decide +kernel)⟩⟩

theorem witness2 :
    (∃ (s : State), s.dead = false) :=
  ⟨(s0 : State), (by decide +kernel)⟩

theorem witness3 :
    (∃ (q : Fin 512) (s : State), s.dead = false ∧ ((s.queue (↑q : Nat)).on && decide ((s.queue (↑q : Nat)).occ (s.simple (↑q : Nat)) ≠ 0) && decide (s.rf (queueBase (↑q : Nat) + 36) 0 14 ≠ 0) && decide (tickAt (s.queue (↑q : Nat)).tmr (s.rf (queueBase (↑q : Nat) + 36) 0 14) (tickUnit (s.rf (queueBase (↑q : Nat) + 36) 14 2)) ≤ s.now)) = true) ∧
    (∃ (q : Fin 512) (s : State), s.dead = false ∧ ((s.queue (↑q : Nat)).on && decide ((s.queue (↑q : Nat)).occ (s.simple (↑q : Nat)) ≠ 0) && decide (s.rf (queueBase (↑q : Nat) + 36) 0 14 ≠ 0) && decide (tickAt (s.queue (↑q : Nat)).tmr (s.rf (queueBase (↑q : Nat) + 36) 0 14) (tickUnit (s.rf (queueBase (↑q : Nat) + 36) 14 2)) ≤ s.now)) = false) :=
  ⟨⟨(2 : Fin 512), (qM 5#32 0#32 { on := true, tail := [sm 5], mark := some 4 } : State), (by decide +kernel), (by decide +kernel)⟩,
   ⟨(2 : Fin 512), (s0 : State), (by decide +kernel), (by decide +kernel)⟩⟩

theorem witness4 :
    (∃ (q : Fin 512) (s : State), s.dead = false ∧ (s.queue (↑q : Nat)).on = true) ∧
    (∃ (q : Fin 512) (s : State), s.dead = false ∧ (s.queue (↑q : Nat)).on = false) :=
  ⟨⟨(2 : Fin 512), (qM 5#32 0#32 { on := true, tail := [sm 5], mark := some 4 } : State), (by decide +kernel), (by decide +kernel)⟩,
   ⟨(2 : Fin 512), (s0 : State), (by decide +kernel), (by decide +kernel)⟩⟩

theorem witness5 :
    (∃ (q : Fin 512) (n : Nat) (s : State), { s with now := s.now - n }.queueDue (↑q : Nat) = false) ∧
    (∃ (q : Fin 512) (n : Nat) (s : State), { s with now := s.now - n }.queueDue (↑q : Nat) = true) :=
  ⟨⟨(2 : Fin 512), (0 : Nat), (s0 : State), (by decide +kernel)⟩,
   ⟨(2 : Fin 512), (0 : Nat), (qM 5#32 0#32 { on := true, tail := [sm 5], mark := some 4 } : State), (by decide +kernel)⟩⟩

end QueuesStartStopAndTimeOut

/-! Witnesses of `Obligations.DerailleursPreloadArmAndSwap`. -/
namespace DerailleursPreloadArmAndSwap

def coreOwned (r : Nat) : Map Word32 := (List.range 32).map (fun c => (memctl r c, 1#32))
def dl (d : Derailleur) (e : State := {}) : State := { e with regions := [(0, { drl := d, b := { startPc := 4, evtEn := 3, taskMask := 7, slotRec := [(3, 0)] }, a := { startPc := 9 } })], regs := [(0x10,5#32), (0x20, 9#32)] ++ e.regs, now := 777 }

theorem witness0 :
    (∃ (r : Fin 64) (s : State), s.dead = false ∧ ((s.region (↑r : Nat)).drl.st = DrlState.empty ∨ (s.region (↑r : Nat)).drl.st = DrlState.loaded)) ∧
    (∃ (r : Fin 64) (s : State), s.dead = false ∧ (s.region (↑r : Nat)).drl.st ≠ DrlState.empty ∧ (s.region (↑r : Nat)).drl.st ≠ DrlState.loaded) :=
  ⟨⟨(0 : Fin 64), (s0 : State), (by decide +kernel), (by decide +kernel)⟩,
   ⟨(0 : Fin 64), (dl { st := .armed, recInact := 5, recAct := 3 } : State), (by decide +kernel), (by decide +kernel), (by decide +kernel)⟩⟩

theorem witness1 :
    (∃ (r : Fin 64) (n : Nat) (s : State) (u : State) (y : Half) (code : Option Nat) (c : Nat), s.dead = false ∧ (s.region (↑r : Nat)).drl.job = DrlJob.preload n ∧ s.preloadRead r n = (u, y, code) ∧ code = some c) :=
  ⟨(0 : Fin 64), (5 : Nat), (dl { st := .busy, job := .preload 5 } : State), _, _, _, _, (by decide +kernel), (by decide +kernel), pairEta3 _, someGet _ (by decide +kernel)⟩

namespace C2
def libA (n : Nat) : Nat := ({} : State).dirAddr n
def pre (e : Code) (m : List Host.Cell) : State := { regions := [(0, { drl := { st := .busy, job := .preload 5 } })], regs := regsOf [(dramBase 0, 1#32)] (rt [(0, 64)]), drams := [(0, { st := .run, filled := true })], mem := m, codes := [(libA 5 / 32, { wf := 3 }), ((libA 5 + 0x1000) / 32, e)] }

theorem witness2 :
    (∃ (r : Fin 64) (n : Nat) (s : State) (dir : Option (List Line)) (dg : Option (List Line)) (sec : Option (List Line)) (u1 : State) (u2 : State) (u3 : State), s.rawRange r (s.dirAddr n) 1 = (u1, dir) ∧ u1.rawRange r (u1.dirAddr n + 4096 + 64 * (↑r : Nat)) 2 = (u2, dg) ∧ u2.rawRange r (u2.sectionAddr n (↑r : Nat)) 2048 = (u3, sec) ∧ dir = none) ∧
    (∃ (r : Fin 64) (n : Nat) (s : State) (dir : Option (List Line)) (dg : Option (List Line)) (sec : Option (List Line)) (l : List Line) (u1 : State) (u2 : State) (u3 : State), s.rawRange r (s.dirAddr n) 1 = (u1, dir) ∧ u1.rawRange r (u1.dirAddr n + 4096 + 64 * (↑r : Nat)) 2 = (u2, dg) ∧ u2.rawRange r (u2.sectionAddr n (↑r : Nat)) 2048 = (u3, sec) ∧ dir = some l ∧ (rawField l.toArray 0 1 % 2 = 0 ∨ (rawField l.toArray 8 8).testBit (↑r : Nat) = false)) ∧
    (∃ (r : Fin 64) (n : Nat) (s : State) (dir : Option (List Line)) (dg : Option (List Line)) (sec : Option (List Line)) (l : List Line) (u1 : State) (u2 : State) (u3 : State), s.rawRange r (s.dirAddr n) 1 = (u1, dir) ∧ u1.rawRange r (u1.dirAddr n + 4096 + 64 * (↑r : Nat)) 2 = (u2, dg) ∧ u2.rawRange r (u2.sectionAddr n (↑r : Nat)) 2048 = (u3, sec) ∧ dir = some l ∧ rawField l.toArray 0 1 % 2 = 1 ∧ (rawField l.toArray 8 8).testBit (↑r : Nat) = true ∧ dg = none) :=
  ⟨⟨(0 : Fin 64), (5 : Nat), (s0 : State), _, _, _, _, _, _, pairEta2 _, pairEta2 _, pairEta2 _, (by decide +kernel)⟩,
   ⟨(0 : Fin 64), (5 : Nat), (pre {} [] : State), _, _, _, _, _, _, _, pairEta2 _, pairEta2 _, pairEta2 _, someGet _ (by decide +kernel), (by decide +kernel)⟩,
   ⟨(0 : Fin 64), (5 : Nat), (pre { wf := 3, err := 7 } [⟨libA 5, 1⟩, ⟨libA 5 + 8, 1⟩] : State), _, _, _, _, _, _, _, pairEta2 _, pairEta2 _, pairEta2 _, someGet _ (by decide +kernel), (by decide +kernel), (by decide +kernel), (by decide +kernel)⟩⟩

end C2

theorem witness3 :
    (∃ (r : Fin 64) (k : Fin 64) (s : State), s.dead = false ∧ (decide ((s.region (↑r : Nat)).drl.st = DrlState.armed ∧ (s.region (↑r : Nat)).drl.recInact = (↑k : Nat)) = true)) ∧
    (∃ (r : Fin 64) (k : Fin 64) (s : State), s.dead = false ∧ (decide ((s.region (↑r : Nat)).drl.st = DrlState.armed ∧ (s.region (↑r : Nat)).drl.recInact = (↑k : Nat)) = false) ∧ (s.setRf (regionBase (↑r : Nat) + 256) 16 6 (↑k : Nat)).armCodes (↑r : Nat) (↑k : Nat) = []) ∧
    (∃ (r : Fin 64) (k : Fin 64) (s : State) (c : Nat), s.dead = false ∧ (decide ((s.region (↑r : Nat)).drl.st = DrlState.armed ∧ (s.region (↑r : Nat)).drl.recInact = (↑k : Nat)) = false) ∧ c ∈ (s.setRf (regionBase (↑r : Nat) + 256) 16 6 (↑k : Nat)).armCodes (↑r : Nat) (↑k : Nat) ∧ (∀ (d : Nat), d ∈ (s.setRf (regionBase (↑r : Nat) + 256) 16 6 (↑k : Nat)).armCodes (↑r : Nat) (↑k : Nat) → c ≤ d)) :=
  ⟨⟨(0 : Fin 64), (5 : Fin 64), (dl { st := .armed, recInact := 5, recAct := 3 } : State), (by decide +kernel), (by decide +kernel)⟩,
   ⟨(0 : Fin 64), (5 : Fin 64), ({ dl { st := .loaded, recInact := 5 } { regs := (0, 1#32) :: coreOwned 0 } with regions := [(0, { drl := { st := .loaded, recInact := 5 } })] } : State), (by decide +kernel), (by decide +kernel), (by decide +kernel)⟩,
   ⟨(0 : Fin 64), (0 : Fin 64), (s0 : State), (305 : Nat), (by decide +kernel), (by decide +kernel), (by decide +kernel), (by decide +kernel)⟩⟩

theorem witness4 :
    (∃ (r : Fin 64) (k : Fin 64) (s : State), s.dead = false ∧ ((s.region (↑r : Nat)).drl.st = DrlState.loaded ∨ (s.region (↑r : Nat)).drl.st = DrlState.armed) ∧ (s.region (↑r : Nat)).drl.recInact = (↑k : Nat) ∧ s.seqIdle (↑r : Nat) = true) ∧
    (∃ (r : Fin 64) (k : Fin 64) (s : State), s.dead = false ∧ (¬(((s.region (↑r : Nat)).drl.st = DrlState.loaded ∨ (s.region (↑r : Nat)).drl.st = DrlState.armed) ∧ (s.region (↑r : Nat)).drl.recInact = (↑k : Nat) ∧ s.seqIdle (↑r : Nat) = true))) :=
  ⟨⟨(0 : Fin 64), (0 : Fin 64), ({ dl { st := .loaded, marked := [3, 7], marks := true } with queues := [(3, { on := true, ll := true, mark := some 4, marked := 2 })] } : State), (by decide +kernel), (by decide +kernel), (by decide +kernel), (by decide +kernel)⟩,
   ⟨(0 : Fin 64), (0 : Fin 64), (s0 : State), (by decide +kernel), (by decide +kernel)⟩⟩

theorem witness5 :
    (∃ (s : State), s.dead = false) :=
  ⟨(s0 : State), (by decide +kernel)⟩

theorem witness6 :
    (∃ (r : Fin 64) (s : State), s.dead = false ∧ (s.region (↑r : Nat)).drl.job = DrlJob.postShift ∧ s.stepFive (↑r : Nat) = []) ∧
    (∃ (r : Fin 64) (s : State) (c : Nat), s.dead = false ∧ c ∈ s.stepFive (↑r : Nat) ∧ (s.region (↑r : Nat)).drl.job = DrlJob.postShift ∧ (∀ (d : Nat), d ∈ s.stepFive (↑r : Nat) → c ≤ d)) ∧
    (∃ (r : Fin 64) (s : State), s.dead = false ∧ (s.region (↑r : Nat)).drl.job ≠ DrlJob.postShift) ∧
    (∃ (r : Fin 64) (s : State), s.dead = false ∧ (∀ (n : Nat), (s.region (↑r : Nat)).drl.job ≠ DrlJob.preload n)) :=
  ⟨⟨(0 : Fin 64), ({ dl { st := .busy, job := .postShift } { regs := coreOwned 0 } with regions := [(0, { drl := { st := .busy, job := .postShift } })] } : State), (by decide +kernel), (by decide +kernel), (by decide +kernel)⟩,
   ⟨(0 : Fin 64), (dl { st := .busy, job := .postShift } : State), (312 : Nat), (by decide +kernel), (by decide +kernel), (by decide +kernel), (by decide +kernel)⟩,
   ⟨(0 : Fin 64), (s0 : State), (by decide +kernel), (by decide +kernel)⟩,
   ⟨(0 : Fin 64), (s0 : State), (by decide +kernel), (by nofun)⟩⟩

end DerailleursPreloadArmAndSwap

/-! Witnesses of `Obligations.RegionsMigrateAndCadencesFire`. -/
namespace RegionsMigrateAndCadencesFire

def mg (d : Derailleur) (d5 : Derailleur := {}) (e : State := {}) : State := { e with regions := [(0, { drl := d, a := { startPc := 4 }, agu := [(3, { len := 5 })], fx := [(4, { acc0 := { v := 9 } })] }), (5, { drl := d5 })], regs := [(0, 0x401#32), (0x20, 9#32)] ++ e.regs }
def cd (w : Word32) (en : Word32) (d : Derailleur := {}) : State := { regions := [(0, { drl := d }), (5, { drl := d })], regs := [(evBase + 0x8000, 5#32), (evBase + 0x8008, w), (evBase + 0x8010, 0x21#32), (evBase + 0x8014, 0#32), (evBase + 0x9000, en)], cadLate := [0], now := 9 }
def pp : State := { regs := [(queueBase 2, 1#32), (queueBase 2 + 8, 0x1003#32)], queues := [(2, { on := true, ll := true })], regions := [(0, { ports := [(3, { pushed := true, parkWait := true })], a := { portRec := [(3, 0x80155555#32)] }, credUsed := [(67, 2)], portWay := [(3, [(0, {})])] })] }

theorem witness0 :
    (∃ (r : Fin 64) (k : Fin 64) (s : State), s.dead = false ∧ (s.setRf (regionBase (↑r : Nat) + 256) 24 6 (↑k : Nat)).migCodes (↑r : Nat) (↑k : Nat) = []) ∧
    (∃ (r : Fin 64) (k : Fin 64) (s : State) (c : Nat), s.dead = false ∧ c ∈ (s.setRf (regionBase (↑r : Nat) + 256) 24 6 (↑k : Nat)).migCodes (↑r : Nat) (↑k : Nat) ∧ (∀ (d : Nat), d ∈ (s.setRf (regionBase (↑r : Nat) + 256) 24 6 (↑k : Nat)).migCodes (↑r : Nat) (↑k : Nat) → c ≤ d)) :=
  ⟨⟨(0 : Fin 64), (9 : Fin 64), ({ regs := [(bootBase + 0x1008, 0x89#32)], regions := [(0, { drl := { st := .loaded } })] } : State), (by decide +kernel), (by decide +kernel)⟩,
   ⟨(0 : Fin 64), (0 : Fin 64), (s0 : State), (320 : Nat), (by decide +kernel), (by decide +kernel), (by decide +kernel)⟩⟩

theorem witness1 :
    (∃ (r : Fin 64) (k : Fin 64) (s : State), s.dead = false ∧ r ≠ k ∧ (s.region (↑r : Nat)).drl.migTo = some (↑k : Nat) ∧ s.testedBank (↑r : Nat) = false ∧ s.testedBank (↑k : Nat) = false) :=
  ⟨(0 : Fin 64), (5 : Fin 64), (mg { st := .migrating, wasSt := .loaded, migTo := some 5 } { st := .migrating, migFrom := some 0, wasSt := .empty } { mem := [⟨cellAddr 0 3 4, 5⟩, ⟨cellAddr 5 3 4, 6⟩], codes := [(cellAddr 0 3 4, { wf := 3 }), (cellAddr 5 3 5, { wf := 3 })] } : State), (by decide +kernel), (by decide +kernel), (by decide +kernel), (by decide +kernel), (by decide +kernel)⟩

theorem witness2 :
    (∃ (r : Fin 64) (k : Fin 64) (s : State), s.dead = false ∧ (s.region (↑r : Nat)).drl.migTo = some (↑k : Nat) ∧ (s.testedBank (↑r : Nat) = true ∨ s.testedBank (↑k : Nat) = true)) :=
  ⟨(0 : Fin 64), (5 : Fin 64), (mg { st := .migrating, wasSt := .loaded, migTo := some 5 } { st := .migrating, migFrom := some 0 } { regs := [(memctl 0 3, 0x13003#32)] } : State), (by decide +kernel), (by decide +kernel), (by decide +kernel)⟩

theorem witness3 :
    (∃ (r : Fin 64) (s : State), s.dead = false ∧ (s.region (↑r : Nat)).drl.migTo = none) :=
  ⟨(0 : Fin 64), (s0 : State), (by decide +kernel), (by decide +kernel)⟩

theorem witness4 :
    (∃ (r : Fin 64) (i : Fin 8) (s : State), s.dead = false ∧ ((s.outQueue (↑r : Nat) (↑i : Nat)).isSome && (mget { pushed := false, lastE := false, parkWait := false : PortOut } (s.region (↑r : Nat)).ports (↑i : Nat)).parkWait && decide (mget 0 (s.region (↑r : Nat)).credUsed (64 + (↑i : Nat)) < 16)) = true) ∧
    (∃ (r : Fin 64) (i : Fin 8) (s : State), s.dead = false ∧ ((s.outQueue (↑r : Nat) (↑i : Nat)).isSome && (mget { pushed := false, lastE := false, parkWait := false : PortOut } (s.region (↑r : Nat)).ports (↑i : Nat)).parkWait && decide (mget 0 (s.region (↑r : Nat)).credUsed (64 + (↑i : Nat)) < 16)) = false) :=
  ⟨⟨(0 : Fin 64), (3 : Fin 8), (pp : State), (by decide +kernel), (by decide +kernel)⟩,
   ⟨(0 : Fin 64), (0 : Fin 8), (s0 : State), (by decide +kernel), (by decide +kernel)⟩⟩

theorem witness5 :
    (∃ (n : Fin 128) (s : State), s.dead = false ∧ s.cadDue (↑n : Nat) = true) ∧
    (∃ (n : Fin 128) (s : State), s.dead = false ∧ s.cadDue (↑n : Nat) = false) :=
  ⟨⟨(0 : Fin 128), (cd 0x84000003#32 1#32 : State), (by decide +kernel), (by decide +kernel)⟩,
   ⟨(0 : Fin 128), (s0 : State), (by decide +kernel), (by decide +kernel)⟩⟩

theorem witness6 :
    (∃ (n : Fin 128) (s : State), s.rf (evBase + 32768 + 32 * (↑n : Nat) + 8) 24 4 = 4) ∧
    (∃ (n : Fin 128) (s : State), s.rf (evBase + 32768 + 32 * (↑n : Nat) + 8) 24 4 = 1) ∧
    (∃ (n : Fin 128) (s : State), s.rf (evBase + 32768 + 32 * (↑n : Nat) + 8) 24 4 = 2) ∧
    (∃ (n : Fin 128) (s : State), s.rf (evBase + 32768 + 32 * (↑n : Nat) + 8) 24 4 = 3) :=
  ⟨⟨(0 : Fin 128), (cd 0x84000003#32 1#32 : State), (by decide +kernel)⟩,
   ⟨(0 : Fin 128), (cd 0x81070003#32 1#32 : State), (by decide +kernel)⟩,
   ⟨(0 : Fin 128), (cd 0x82070003#32 1#32 : State), (by decide +kernel)⟩,
   ⟨(0 : Fin 128), (cd 0x83070003#32 1#32 { st := .armed } : State), (by decide +kernel)⟩⟩

end RegionsMigrateAndCadencesFire

/-! Witnesses of `Obligations.FreewheelClockCommandsRun`. -/
namespace FreewheelClockCommandsRun

theorem witness0 :
    (∃ (r : Fin 64) (s : State), s.dead = false ∧ s.rb (rclk (↑r : Nat)) 0 = true ∧ s.pstate (↑r : Nat) ≠ 2) ∧
    (∃ (r : Fin 64) (s : State), s.dead = false ∧ (s.rb (rclk (↑r : Nat)) 0 = false ∨ s.pstate (↑r : Nat) = 2)) :=
  ⟨⟨(0 : Fin 64), ({ regs := [(0x200, 0x20401001#32), (0x204, 0x110#32), (govBase + 0x10C, 40#32)] } : State), (by decide +kernel), (by decide +kernel), (by decide +kernel)⟩,
   ⟨(0 : Fin 64), (s0 : State), (by decide +kernel), (by decide +kernel)⟩⟩

theorem witness1 :
    (∃ (s : State), s.dead = false ∧ s.mtime.droopAt = some s.noc.ns) ∧
    (∃ (s : State), s.dead = false ∧ s.mtime.droopAt ≠ some s.noc.ns) :=
  ⟨⟨({ noc := { ns := 7 }, mtime := { droopAt := some 7 } } : State), (by decide +kernel), (by decide +kernel)⟩,
   ⟨(s0 : State), (by decide +kernel), (by decide +kernel)⟩⟩

theorem witness2 :
    (∃ (r : Fin 64) (m : Fin 64) (s : State), s.dead = false ∧ s.rb (rclk (↑r : Nat)) 0 = false ∧ (↑m : Nat) < s.rf (govBase + 268) 0 6) ∧
    (∃ (r : Fin 64) (m : Fin 64) (s : State), s.dead = false ∧ (s.rb (rclk (↑r : Nat)) 0 = true ∨ ¬(↑m : Nat) < s.rf (govBase + 268) 0 6)) :=
  ⟨⟨(5 : Fin 64), (0 : Fin 64), ({ regs := [(0x200, 0x20401001#32), (0x204, 0x110#32), (govBase + 0x10C, 40#32)] } : State), (by decide +kernel), (by decide +kernel), (by decide +kernel)⟩,
   ⟨(0 : Fin 64), (0 : Fin 64), (s0 : State), (by decide +kernel), (by decide +kernel)⟩⟩

end FreewheelClockCommandsRun

/-! Witnesses of `Obligations.MachineTimeEnableAndDisable`. -/
namespace MachineTimeEnableAndDisable

theorem witness0 :
    (∃ (s : State) (x : Nat), s.mtState = x) ∧
    (∃ (x : Nat) (s : State), s.mtState ≠ x) :=
  ⟨⟨(s0 : State), _, rfl⟩,
   ⟨(0 : Nat), (s0 : State), (by decide +kernel)⟩⟩

theorem witness1 :
    (∃ (v : Word32) (s : State), s.rb govBase 0 = false ∧ (fld v 1 2 = 3 ∨ fld v 1 2 = 2 ∧ (s.rf (8454144 + 16384 * fld v 4 2) 5 2 = 0 ∨ s.rf (8454144 + 16384 * fld v 4 2) 5 2 = 3))) ∧
    (∃ (v : Word32) (s : State), s.rb govBase 0 = false ∧ (¬(fld v 1 2 = 3 ∨ fld v 1 2 = 2 ∧ (s.rf (8454144 + 16384 * fld v 4 2) 5 2 = 0 ∨ s.rf (8454144 + 16384 * fld v 4 2) 5 2 = 3))) ∧ fld v 1 2 = 0) ∧
    (∃ (v : Word32) (s : State), s.rb govBase 0 = false ∧ (¬(fld v 1 2 = 3 ∨ fld v 1 2 = 2 ∧ (s.rf (8454144 + 16384 * fld v 4 2) 5 2 = 0 ∨ s.rf (8454144 + 16384 * fld v 4 2) 5 2 = 3))) ∧ fld v 1 2 ≠ 0) :=
  ⟨⟨(0x00000004#32 : Word32), (s0 : State), (by decide +kernel), (by decide +kernel)⟩,
   ⟨(0x00000000#32 : Word32), (s0 : State), (by decide +kernel), (by decide +kernel), (by decide +kernel)⟩,
   ⟨(0x00000002#32 : Word32), (s0 : State), (by decide +kernel), (by decide +kernel), (by decide +kernel)⟩⟩

theorem witness2 :
    (∃ (s : State), s.rb govBase 0 = true) :=
  ⟨({ regs := [(0, 1#32), (govBase, 3#32), (govBase + 8, 3#32)] } : State), (by decide +kernel)⟩

theorem witness3 :
    (∃ (s : State), s.rb govBase 0 = true ∧ (∃ (r : Nat), r < 64 ∧ s.regionEn r = true ∧ s.freewheel r = false)) ∧
    (∃ (s : State), s.rb govBase 0 = true ∧ (∀ (r : Nat), r < 64 → s.regionEn r = true → s.freewheel r = true)) ∧
    (∃ (s : State), s.rb govBase 0 = false) :=
  ⟨⟨({ regs := [(0, 1#32), (govBase, 3#32), (govBase + 8, 3#32)] } : State), (by decide +kernel), (by decide +kernel)⟩,
   ⟨({ regs := [(0, 1#32), (0x200, 1#32), (govBase, 3#32), (govBase + 8, 3#32)], mtime := { good := 3 } } : State), (by decide +kernel), (by decide +kernel)⟩,
   ⟨(s0 : State), (by decide +kernel)⟩⟩

end MachineTimeEnableAndDisable

/-! Witnesses of `Obligations.SyncOffsetSteersMachineTime`. -/
namespace SyncOffsetSteersMachineTime

def mts (c st : Nat) (x : MTime := {}) : State := { regs := [(govBase, BitVec.ofNat 32 c), (govBase + 8, BitVec.ofNat 32 st), (govBase + 0x24, 1000#32), (evBase + 0x8008, 0x84000003#32)], mtime := x, now := 500000 }

theorem witness0 :
    (∃ (s : State), s.mtOn = true ∧ s.mtSrc = 2) ∧
    (∃ (s : State), (s.mtOn = false ∨ s.mtSrc ≠ 2)) :=
  ⟨⟨(mts 0x105 2 : State), (by decide +kernel), (by decide +kernel)⟩,
   ⟨(s0 : State), (by decide +kernel)⟩⟩

theorem witness1 :
    (∃ (v : State), v.mtState = 2) ∧
    (∃ (v : State), v.mtState = 3) ∧
    (∃ (v : State), v.mtState ≠ 2 ∧ v.mtState ≠ 3) :=
  ⟨⟨(mts 0x105 2 : State), (by decide +kernel)⟩,
   ⟨(mts 0x105 3 : State), (by decide +kernel)⟩,
   ⟨(s0 : State), (by decide +kernel), (by decide +kernel)⟩⟩

theorem witness3 :
    (∃ (v : State), (∀ (e : Nat × Int), e ∈ v.mtime.hist → e.snd.natAbs ≤ 250000) ∧ (∀ (a : Int), a ∈ v.fadjLately → ∀ (b : Int), b ∈ v.fadjLately → a - b ≤ (↑(v.rf govBase 16 8) : Int))) :=
  ⟨(s0 : State), (by decide +kernel), (by decide +kernel)⟩

end SyncOffsetSteersMachineTime

/-! Witnesses of `Obligations.MachineTimeInputsComeAndGo`. -/
namespace MachineTimeInputsComeAndGo

def mts (c st : Nat) (x : MTime := {}) (n : Nat) : State := { regs := [(govBase, BitVec.ofNat 32 c), (govBase + 8, BitVec.ofNat 32 st), (govBase + 0x24, 1000#32), (govBase + 0x20, 2#32), (evBase + 0x8008, 0x84000003#32)], mtime := x, now := n }

theorem witness1 :
    (∃ (s : State), s.mtOn = true ∧ s.mtSrc = 1 ∧ ((if s.mtState = 4 ∧ s.mtime.refLost = false then ((s.setRg64 (govBase + 40) s.now).setRb (govBase + 8) 4 true).mtGo 2 else (s.setRg64 (govBase + 40) s.now).setRb (govBase + 8) 4 true).mtState = 3) ∧ 4 < (ppsOffset s.now).natAbs) ∧
    (∃ (s : State), s.mtOn = true ∧ s.mtSrc = 1 ∧ ((if s.mtState = 4 ∧ s.mtime.refLost = false then ((s.setRg64 (govBase + 40) s.now).setRb (govBase + 8) 4 true).mtGo 2 else (s.setRg64 (govBase + 40) s.now).setRb (govBase + 8) 4 true).mtState ≠ 3 ∨ (ppsOffset s.now).natAbs ≤ 4)) ∧
    (∃ (s : State), (s.mtOn = false ∨ s.mtSrc ≠ 1)) :=
  ⟨⟨(mts 0x103 3 {} 999999000 : State), (by decide +kernel), (by decide +kernel), (by decide +kernel), (by decide +kernel)⟩,
   ⟨(mts 0x103 2 {} 3000000500 : State), (by decide +kernel), (by decide +kernel), (by decide +kernel)⟩,
   ⟨(s0 : State), (by decide +kernel)⟩⟩

theorem witness2 :
    (∃ (k : Fin 3) (s : State), (s.mtOn = false ∨ ¬(s.mtSrc = 2 ↔ k = 0))) ∧
    (∃ (k : Fin 3) (s : State), s.mtOn = true ∧ s.mtSrc ≠ 2 ∧ k ≠ 0) ∧
    (∃ (k : Fin 3) (s : State), s.mtOn = true ∧ s.mtSrc = 2 ∧ k = 0) :=
  ⟨⟨(0 : Fin 3), (s0 : State), (by decide +kernel)⟩,
   ⟨(1 : Fin 3), (mts 0x103 3 {} 999999000 : State), (by decide +kernel), (by decide +kernel), (by decide +kernel)⟩,
   ⟨_, (mts 0x105 4 { refLost := true } 99 : State), (by decide +kernel), (by decide +kernel), rfl⟩⟩

theorem witness3 :
    (∃ (f : Int) (v : State), (∀ (e : Nat × Int), e ∈ v.mtime.hist → e.snd = f) ∧ (∃ (e : Nat × Int), e ∈ v.mtime.hist ∧ e.fst < v.noc.ns)) ∧
    (∃ (f : Int) (v : State), (∀ (e : Nat × Int), e ∈ v.mtime.hist → e.snd = f) ∧ v.mtime.hist = []) :=
  ⟨⟨(7 : Int), ({ mts 5 3 { hist := [(5, 7)] } 9 with noc := { ns := 8 } } : State), (by decide +kernel), (by decide +kernel)⟩,
   ⟨(7 : Int), (s0 : State), (by decide +kernel), (by decide +kernel)⟩⟩

theorem witness4 :
    (∃ (v : State) (t1 : Nat) (t2 : Nat) (f1 : Int) (f2 : Int), v.noc.ns = t2 + 8000000000 ∧ t1 + 8000000000 = t2 ∧ v.mtime.hist = [(t2, f2), (t1, f1)]) :=
  ⟨({ mtime := { hist := [(9000000000, 7), (1000000000, -4)] }, noc := { ns := 17000000000 } } : State), 1000000000, 9000000000, (-4), 7, (by decide +kernel), (by decide +kernel), (by decide +kernel)⟩

theorem witness6 :
    (∃ (s : State), (s.mtState = 4 ∧ s.mtime.holdTold = false ∧ s.mtime.holdFrom + 1000000000 * s.rf (govBase + 32) 0 16 < s.now)) ∧
    (∃ (s : State), (¬(s.mtState = 4 ∧ s.mtime.holdTold = false ∧ s.mtime.holdFrom + 1000000000 * s.rf (govBase + 32) 0 16 < s.now))) :=
  ⟨⟨(mts 0x103 4 { holdFrom := 5 } 3000000000 : State), (by decide +kernel)⟩,
   ⟨(s0 : State), (by decide +kernel)⟩⟩

end MachineTimeInputsComeAndGo

/-! Witnesses of `Obligations.SensorsAndCoreVoltage`. -/
namespace SensorsAndCoreVoltage

def av (x : Avs) : State := { regs := [(bootBase, 7#32), (govBase + 0x104, 700#32), (govBase + 0x108, BitVec.ofNat 32 (800 * 2^16 + 660)), (govBase + 0x110, 0x6450#32)], avs := x, now := 50000 }
def avg (x : Avs) : State := { av x with regs := [(0, 1#32), (bootBase, 7#32), (govBase + 0x104, 700#32), (govBase + 0x108, BitVec.ofNat 32 (800 * 2^16 + 660)), (govBase + 0x10C, 5#32)] }

theorem witness1 :
    (∃ (vals : List (BitVec 12)) (s : State), (s.dead = true ∨ ∀ (t : Int), t ∈ List.map (fun (n : Nat) => (BitVec.ofNat 12 ((List.foldl (fun (v : State) (e : BitVec 12 × Nat) => v.setTemp e.snd e.fst) s (List.take 69 vals).zipIdx).rf (govBase + 512 + 4 * n) 0 12)).toInt) (List.range 69) → t < 500)) ∧
    (∃ (vals : List (BitVec 12)) (s : State) (n : Nat) (t : Int), s.dead = false ∧ ((List.map (fun (n : Nat) => (BitVec.ofNat 12 ((List.foldl (fun (v : State) (e : BitVec 12 × Nat) => v.setTemp e.snd e.fst) s (List.take 69 vals).zipIdx).rf (govBase + 512 + 4 * n) 0 12)).toInt) (List.range 69))[n]? = some t) ∧ 500 ≤ t ∧ (∀ (k : Nat), k < n → (List.map (fun (n : Nat) => (BitVec.ofNat 12 ((List.foldl (fun (v : State) (e : BitVec 12 × Nat) => v.setTemp e.snd e.fst) s (List.take 69 vals).zipIdx).rf (govBase + 512 + 4 * n) 0 12)).toInt) (List.range 69)).getD k 0 < 500)) :=
  ⟨⟨([] : List (BitVec 12)), (s0 : State), (by decide +kernel)⟩,
   ⟨([0x005#12, 0x006#12, 0x007#12, 0x1f5#12] : List (BitVec 12)), (s0 : State), (3 : Nat), _, (by decide +kernel), someGet _ (by decide +kernel), (by decide +kernel), (by decide +kernel)⟩⟩

theorem witness2 :
    (∃ (v : Word32) (s : State), (fld v 0 10 < max 650 (s.rf (govBase + 264) 0 10) ∨ min 850 (s.rf (govBase + 264) 16 10) < fld v 0 10 ∨ fld v 0 10 % 5 ≠ 0)) ∧
    (∃ (v : Word32) (s : State), (¬(fld v 0 10 < max 650 (s.rf (govBase + 264) 0 10) ∨ min 850 (s.rf (govBase + 264) 16 10) < fld v 0 10 ∨ fld v 0 10 % 5 ≠ 0)) ∧ (fld v 0 10 < s.rf (govBase + 260) 0 10 ∧ s.marginGuard = true)) ∧
    (∃ (v : Word32) (s : State), (¬(fld v 0 10 < max 650 (s.rf (govBase + 264) 0 10) ∨ min 850 (s.rf (govBase + 264) 16 10) < fld v 0 10 ∨ fld v 0 10 % 5 ≠ 0)) ∧ (¬(fld v 0 10 < s.rf (govBase + 260) 0 10 ∧ s.marginGuard = true)) ∧ fld v 0 10 = s.rf (govBase + 260) 0 10) ∧
    (∃ (v : Word32) (s : State), (¬(fld v 0 10 < max 650 (s.rf (govBase + 264) 0 10) ∨ min 850 (s.rf (govBase + 264) 16 10) < fld v 0 10 ∨ fld v 0 10 % 5 ≠ 0)) ∧ (¬(fld v 0 10 < s.rf (govBase + 260) 0 10 ∧ s.marginGuard = true)) ∧ fld v 0 10 ≠ s.rf (govBase + 260) 0 10) :=
  ⟨⟨(0x00000000#32 : Word32), (s0 : State), (by decide +kernel)⟩,
   ⟨(0x00000294#32 : Word32), (avg { goal := some 660, at_ := 700 } : State), (by decide +kernel), (by decide +kernel)⟩,
   ⟨(0x000002bc#32 : Word32), (avg { goal := some 660, at_ := 700 } : State), (by decide +kernel), (by decide +kernel), (by decide +kernel)⟩,
   ⟨(0x00000294#32 : Word32), (av {} : State), (by decide +kernel), (by decide +kernel), (by decide +kernel)⟩⟩

theorem witness4 :
    (∃ (s : State), s.booted = true) ∧
    (∃ (s : State), s.booted = false) :=
  ⟨⟨(avg { goal := some 660, at_ := 700 } : State), (by decide +kernel)⟩,
   ⟨(s0 : State), (by decide +kernel)⟩⟩

theorem witness6 :
    (∃ (s : State), s.avs.goal = none) ∧
    (∃ (s : State) (g : Nat), s.avs.goal = some g ∧ (¬(s.avs.goal = some g ∧ s.avs.sent = none ∧ s.booted = true ∧ (s.avs.acked = 0 ∨ s.avs.acked + 10000 ≤ s.now)))) ∧
    (∃ (s : State) (g : Nat), (s.avs.goal = some g ∧ s.avs.sent = none ∧ s.booted = true ∧ (s.avs.acked = 0 ∨ s.avs.acked + 10000 ≤ s.now)) ∧ g = s.avs.at_) ∧
    (∃ (s : State) (g : Nat), (s.avs.goal = some g ∧ s.avs.sent = none ∧ s.booted = true ∧ (s.avs.acked = 0 ∨ s.avs.acked + 10000 ≤ s.now)) ∧ g < s.avs.at_ ∧ s.marginGuard = true) ∧
    (∃ (s : State) (g : Nat), (s.avs.goal = some g ∧ s.avs.sent = none ∧ s.booted = true ∧ (s.avs.acked = 0 ∨ s.avs.acked + 10000 ≤ s.now)) ∧ (s.avs.at_ < g ∨ g < s.avs.at_ ∧ s.marginGuard = false) ∧ s.avs.at_ < g) ∧
    (∃ (s : State) (g : Nat), (s.avs.goal = some g ∧ s.avs.sent = none ∧ s.booted = true ∧ (s.avs.acked = 0 ∨ s.avs.acked + 10000 ≤ s.now)) ∧ (s.avs.at_ < g ∨ g < s.avs.at_ ∧ s.marginGuard = false) ∧ g < s.avs.at_) :=
  ⟨⟨(s0 : State), (by decide +kernel)⟩,
   ⟨(av { goal := some 660, at_ := 700, sent := some 650 } : State), _, someGet _ (by decide +kernel), (by decide +kernel)⟩,
   ⟨(av { goal := some 700, at_ := 700 } : State), _, (by decide +kernel), rfl⟩,
   ⟨(avg { goal := some 660, at_ := 700 } : State), (660 : Nat), (by decide +kernel), (by decide +kernel), (by decide +kernel)⟩,
   ⟨(av { goal := some 800, at_ := 700, acked := 40000 } : State), (800 : Nat), (by decide +kernel), (by decide +kernel), (by decide +kernel)⟩,
   ⟨(av { goal := some 660, at_ := 670 } : State), (660 : Nat), (by decide +kernel), (by decide +kernel), (by decide +kernel)⟩⟩

theorem witness7 :
    (∃ (s : State) (v : Nat), s.avs.sent = some v) ∧
    (∃ (s : State), s.avs.sent = none) :=
  ⟨⟨(av { goal := some 660, at_ := 700, sent := some 650 } : State), _, someGet _ (by decide +kernel)⟩,
   ⟨(s0 : State), (by decide +kernel)⟩⟩

end SensorsAndCoreVoltage

/-! Witnesses of `Obligations.PowerGatingRunsAndRefuses`. -/
namespace PowerGatingRunsAndRefuses

theorem witness0 :
    (∃ (m : Master) (r : Fin 64) (s : State), s.dead = false ∧ (¬(s.pstate (↑r : Nat) = 0 ∧ (m ≠ Master.puppeteer ∨ s.rb (regionBase (↑r : Nat) + 520) 2 = true)))) ∧
    (∃ (m : Master) (r : Fin 64) (s : State), s.dead = false ∧ (s.pstate (↑r : Nat) = 0 ∧ (m ≠ Master.puppeteer ∨ s.rb (regionBase (↑r : Nat) + 520) 2 = true)) ∧ s.gateCodes (↑r : Nat) = []) ∧
    (∃ (m : Master) (r : Fin 64) (s : State) (c : Nat), s.dead = false ∧ c ∈ s.gateCodes (↑r : Nat) ∧ (s.pstate (↑r : Nat) = 0 ∧ (m ≠ Master.puppeteer ∨ s.rb (regionBase (↑r : Nat) + 520) 2 = true)) ∧ (∀ (d : Nat), d ∈ s.gateCodes (↑r : Nat) → c ≤ d)) :=
  ⟨⟨(Sys2Proof.Master.puppeteer : Master), (0 : Fin 64), (s0 : State), (by decide +kernel), (by decide +kernel)⟩,
   ⟨(Sys2Proof.Master.host : Master), (0 : Fin 64), (s0 : State), (by decide +kernel), (by decide +kernel), (by decide +kernel)⟩,
   ⟨(Sys2Proof.Master.host : Master), (0 : Fin 64), ({ regs := [(0, 1#32), (0xC, 0xFF#32)] } : State), (336 : Nat), (by decide +kernel), (by decide +kernel), (by decide +kernel), (by decide +kernel)⟩⟩

theorem witness2 :
    (∃ (p : Nat) (s : State), s.rb (scrReg p) 0 = false) ∧
    (∃ (p : Nat) (s : State), s.rb (scrReg p) 0 = true) :=
  ⟨⟨(0 : Nat), (s0 : State), (by decide +kernel)⟩,
   ⟨(0 : Nat), ({ regs := [(scrReg 0, 1#32)] } : State), (by decide +kernel)⟩⟩

theorem witness3 :
    (∃ (r : Fin 64) (s : State), s.dead = false ∧ s.pstate (↑r : Nat) = 1 ∧ s.portBusy (↑r : Nat) = false) ∧
    (∃ (r : Fin 64) (s : State), s.dead = false ∧ (s.pstate (↑r : Nat) ≠ 1 ∨ s.portBusy (↑r : Nat) = true)) ∧
    (∃ (r : Fin 64) (s : State) (p : Nat), s.dead = false ∧ p ≠ (↑r : Nat)) ∧
    (∃ (r : Fin 64) (s : State) (i : Nat) (p : Nat) (o : Nat), s.dead = false ∧ i < 64 ∧ s.farSide (↑r : Nat) i = some (p, o)) ∧
    (∃ (r : Fin 64) (s : State) (k : Nat) (v : BitVec 64), s.dead = false ∧ ((List.map (fun (e : Nat × BitVec 64) => e.fst) (s.region (↑r : Nat)).active.slotRec).Nodup) ∧ mget 0 (s.region (↑r : Nat)).active.slotRec k = v ∧ isOutputFunc (slotFunc v) = true) :=
  ⟨⟨(0 : Fin 64), ({ regs := [(0xC, 0xFF#32), (0x20C, 1#32), (0x208, 1#32)], regions := [(0, { drl := { st := .loaded } })] } : State), (by decide +kernel), (by decide +kernel), (by decide +kernel)⟩,
   ⟨(0 : Fin 64), (s0 : State), (by decide +kernel), (by decide +kernel)⟩,
   ⟨(0 : Fin 64), (s0 : State), (16 : Nat), (by decide +kernel), (by decide +kernel)⟩,
   ⟨(0 : Fin 64), (s0 : State), (16 : Nat), _, _, (by decide +kernel), (by decide +kernel), someGet2 _ (by decide +kernel)⟩,
   ⟨(0 : Fin 64), ({ regs := [(0x20C, 1#32), (0x208, 1#32)], regions := [(0, { a := { slotRec := [(5, 0x200000042#64)] } })] } : State), (5 : Nat), _, (by decide +kernel), (by decide +kernel), rfl, (by decide +kernel)⟩⟩

theorem witness4 :
    (∃ (m : Master) (r : Fin 64) (s : State), s.dead = false ∧ (s.pstate (↑r : Nat) = 2 ∧ (m ≠ Master.puppeteer ∨ s.rb (regionBase (↑r : Nat) + 520) 2 = true))) ∧
    (∃ (m : Master) (r : Fin 64) (s : State), s.dead = false ∧ (¬(s.pstate (↑r : Nat) = 2 ∧ (m ≠ Master.puppeteer ∨ s.rb (regionBase (↑r : Nat) + 520) 2 = true)))) ∧
    (∃ (r : Fin 64) (s : State) (p : Nat), s.dead = false ∧ p ≠ (↑r : Nat)) ∧
    (∃ (r : Fin 64) (s : State) (i : Nat) (p : Nat) (o : Nat), s.dead = false ∧ i < 64 ∧ s.farSide (↑r : Nat) i = some (p, o)) :=
  ⟨⟨(Sys2Proof.Master.host : Master), (0 : Fin 64), ({ regs := [(0x20C, 2#32)], mem := [⟨cellAddr 0 0 0, 5⟩, ⟨cellAddr 1 0 0 - 1, 6⟩, ⟨cellAddr 1 0 0, 6⟩], codes := [(cellAddr 0 0 0, { wf := 3 })] } : State), (by decide +kernel), (by decide +kernel)⟩,
   ⟨(Sys2Proof.Master.puppeteer : Master), (0 : Fin 64), (s0 : State), (by decide +kernel), (by decide +kernel)⟩,
   ⟨(0 : Fin 64), (s0 : State), (16 : Nat), (by decide +kernel), (by decide +kernel)⟩,
   ⟨(0 : Fin 64), (s0 : State), (16 : Nat), _, _, (by decide +kernel), (by decide +kernel), someGet2 _ (by decide +kernel)⟩⟩

theorem witness5 :
    (∃ (r : Fin 64) (s : State), s.dead = false ∧ s.pstate (↑r : Nat) = 3) ∧
    (∃ (r : Fin 64) (s : State), s.dead = false ∧ s.pstate (↑r : Nat) ≠ 3) :=
  ⟨⟨(0 : Fin 64), ({ regs := [(0x20C, 3#32), (0x208, 2#32)] } : State), (by decide +kernel), (by decide +kernel)⟩,
   ⟨(0 : Fin 64), (s0 : State), (by decide +kernel), (by decide +kernel)⟩⟩

theorem witness6 :
    (∃ (v : Word32), fld v 0 6 < 52) ∧
    (∃ (v : Word32), 52 ≤ fld v 0 6) :=
  ⟨⟨(0x00000000#32 : Word32), (by decide +kernel)⟩,
   ⟨(0x00000034#32 : Word32), (by decide +kernel)⟩⟩

end PowerGatingRunsAndRefuses

/-! Witnesses of `Obligations.SchedulerCommandsChangeTheirTask`. -/
namespace SchedulerCommandsChangeTheirTask

def sc (t : Option Task) (c : Sched := {}) : State := { regs := [(schBase, 1#32)], sched := { c with tasks := [(5, t), (8, some { st := .idle, prio := 2 })] } }
def full4096 : State := { regs := [(schBase, 1#32)], sched := { tasks := (List.range 4096).map (fun i => (100 + i, some { st := .idle, prio := 2, pin := true })) } }
def spl2 (c : Sched) : State := { regs := regsOf [(schBase, 5#32), (dramBase 0, 1#32)] [], sched := c, drams := [(0, { st := .run, filled := true })] }
def spl (c : Sched) : State := { regs := regsOf [(schBase, 5#32), (dramBase 0, 1#32)] (rt [(73, 64)]), sched := c, drams := [(0, { st := .run, filled := true })] }

namespace C0
def inD0 : State := spl { tasks := (List.range 4096).map (fun i => (100 + i, some { st := .idle, prio := 2, pin := true })) }
def inDram : State := { inD0 with mem := putBytes [] (inD0.recAddr 5) (({ st := .idle, prio := 9 } : Machine.Task).line.toNat) 32, codes := [(inD0.recAddr 5 / 32, { wf := 3 })] }

theorem witness0 :
    (∃ (id : Fin 65536) (prio : Fin 64) (cls : Fin 16) (pin : Bool) (arg : Word32) (s : State) (c : Instr), s.dead = false ∧ s.schOn = false ∧ (c = Instr.define id prio cls pin arg ∨ c = Instr.delay id arg ∨ c = Instr.setarg id arg)) ∧
    (∃ (id : Fin 65536) (s : State) (c : Instr), s.dead = false ∧ s.schOn = false ∧ (c = Instr.undefine id ∨ c = Instr.ready id ∨ c = Instr.cancel id)) ∧
    (∃ (id : Fin 65536) (arg : Word32) (s : State) (u : State) (k : Machine.Task), s.dead = false ∧ s.schOn = true ∧ (s.setRg (schBase + 16) arg).taskGet (↑id : Nat) = (u, k) ∧ (k.st = TaskState.ready ∨ k.st = TaskState.running ∨ k.dly = true ∧ k.st ≠ TaskState.quar)) ∧
    (∃ (id : Fin 65536) (pin : Bool) (arg : Word32) (s : State) (u : State) (k : Machine.Task), s.dead = false ∧ s.schOn = true ∧ (s.setRg (schBase + 16) arg).taskGet (↑id : Nat) = (u, k) ∧ (¬(k.st = TaskState.ready ∨ k.st = TaskState.running ∨ k.dly = true ∧ k.st ≠ TaskState.quar)) ∧ (pin = true ∧ k.pin = false ∧ 2048 ≤ (List.filter (fun (e : Nat × Machine.Task) => e.snd.pin) u.sched.onChip).length)) ∧
    (∃ (id : Fin 65536) (pin : Bool) (arg : Word32) (s : State) (u : State) (k : Machine.Task), s.dead = false ∧ s.schOn = true ∧ (s.setRg (schBase + 16) arg).taskGet (↑id : Nat) = (u, k) ∧ (¬(k.st = TaskState.ready ∨ k.st = TaskState.running ∨ k.dly = true ∧ k.st ≠ TaskState.quar)) ∧ (¬(pin = true ∧ k.pin = false ∧ 2048 ≤ (List.filter (fun (e : Nat × Machine.Task) => e.snd.pin) u.sched.onChip).length))) ∧
    (∃ (id : Fin 65536) (arg : Word32) (s : State) (u : State) (k : Machine.Task), s.dead = false ∧ s.schOn = true ∧ (s.setRg (schBase + 16) arg).taskGet (↑id : Nat) = (u, k) ∧ k.st = TaskState.free) ∧
    (∃ (id : Fin 65536) (arg : Word32) (s : State) (u : State) (k : Machine.Task), s.dead = false ∧ s.schOn = true ∧ (s.setRg (schBase + 16) arg).taskGet (↑id : Nat) = (u, k) ∧ k.st = TaskState.quar) ∧
    (∃ (id : Fin 65536) (arg : Word32) (s : State) (u : State) (k : Machine.Task), s.dead = false ∧ s.schOn = true ∧ (s.setRg (schBase + 16) arg).taskGet (↑id : Nat) = (u, k) ∧ k.st ≠ TaskState.free ∧ k.st ≠ TaskState.quar) ∧
    (∃ (id : Fin 65536) (s : State) (u : State) (k : Machine.Task), s.dead = false ∧ s.schOn = true ∧ s.taskGet (↑id : Nat) = (u, k) ∧ (k.st = TaskState.idle ∧ k.dly = false ∨ k.st = TaskState.quar)) ∧
    (∃ (id : Fin 65536) (s : State) (u : State) (k : Machine.Task), s.dead = false ∧ s.schOn = true ∧ s.taskGet (↑id : Nat) = (u, k) ∧ (¬(k.st = TaskState.idle ∧ k.dly = false ∨ k.st = TaskState.quar))) ∧
    (∃ (id : Fin 65536) (s : State) (u : State) (k : Machine.Task), s.dead = false ∧ s.schOn = true ∧ s.taskGet (↑id : Nat) = (u, k) ∧ k.st = TaskState.free) ∧
    (∃ (id : Fin 65536) (s : State) (u : State) (k : Machine.Task), s.dead = false ∧ s.schOn = true ∧ s.taskGet (↑id : Nat) = (u, k) ∧ k.st = TaskState.quar) ∧
    (∃ (id : Fin 65536) (s : State) (u : State) (k : Machine.Task), s.dead = false ∧ s.schOn = true ∧ s.taskGet (↑id : Nat) = (u, k) ∧ k.st = TaskState.ready) ∧
    (∃ (id : Fin 65536) (s : State) (u : State) (k : Machine.Task), s.dead = false ∧ s.schOn = true ∧ s.taskGet (↑id : Nat) = (u, k) ∧ k.st = TaskState.running) ∧
    (∃ (id : Fin 65536) (s : State) (u : State) (k : Machine.Task), s.dead = false ∧ s.schOn = true ∧ s.taskGet (↑id : Nat) = (u, k) ∧ k.st = TaskState.idle ∧ (u.putTask (↑id : Nat) { k with st := TaskState.ready }).snd = false) ∧
    (∃ (id : Fin 65536) (s : State) (u : State) (k : Machine.Task), s.dead = false ∧ s.schOn = true ∧ s.taskGet (↑id : Nat) = (u, k) ∧ k.st = TaskState.idle ∧ (u.putTask (↑id : Nat) { k with st := TaskState.ready }).snd = true ∧ ((u.putTask (↑id : Nat) { k with st := TaskState.ready }).fst.pushReady (↑id : Nat) k.prio).snd = true) ∧
    (∃ (id : Fin 65536) (s : State) (u : State) (k : Machine.Task), s.dead = false ∧ s.schOn = true ∧ s.taskGet (↑id : Nat) = (u, k) ∧ k.st = TaskState.idle ∧ (u.putTask (↑id : Nat) { k with st := TaskState.ready }).snd = true ∧ ((u.putTask (↑id : Nat) { k with st := TaskState.ready }).fst.pushReady (↑id : Nat) k.prio).snd = false) ∧
    (∃ (id : Fin 65536) (s : State) (u : State) (k : Machine.Task), s.dead = false ∧ s.schOn = true ∧ s.taskGet (↑id : Nat) = (u, k) ∧ k.st ≠ TaskState.free ∧ k.st ≠ TaskState.quar) ∧
    (∃ (id : Fin 65536) (arg : Word32) (wake : BitVec 64) (s : State) (abs : Bool) (u : State) (k : Machine.Task), s.dead = false ∧ s.schOn = true ∧ ((if abs = true then s.setRg64 (schBase + 32) wake.toNat else s.setRg (schBase + 16) arg).taskGet (↑id : Nat) = (u, k)) ∧ k.st = TaskState.free) ∧
    (∃ (id : Fin 65536) (arg : Word32) (wake : BitVec 64) (s : State) (abs : Bool) (u : State) (k : Machine.Task), s.dead = false ∧ s.schOn = true ∧ ((if abs = true then s.setRg64 (schBase + 32) wake.toNat else s.setRg (schBase + 16) arg).taskGet (↑id : Nat) = (u, k)) ∧ k.st = TaskState.quar) ∧
    (∃ (id : Fin 65536) (arg : Word32) (wake : BitVec 64) (s : State) (abs : Bool) (u : State) (k : Machine.Task), s.dead = false ∧ s.schOn = true ∧ ((if abs = true then s.setRg64 (schBase + 32) wake.toNat else s.setRg (schBase + 16) arg).taskGet (↑id : Nat) = (u, k)) ∧ k.st ≠ TaskState.free ∧ k.st ≠ TaskState.quar ∧ ((u.putTask (↑id : Nat) { k with wake := if abs = true then wake.toNat else s.now + BitVec.toNat arg, dly := true }).snd = false)) ∧
    (∃ (id : Fin 65536) (arg : Word32) (wake : BitVec 64) (s : State) (abs : Bool) (u : State) (k : Machine.Task), s.dead = false ∧ s.schOn = true ∧ ((if abs = true then s.setRg64 (schBase + 32) wake.toNat else s.setRg (schBase + 16) arg).taskGet (↑id : Nat) = (u, k)) ∧ k.st ≠ TaskState.free ∧ k.st ≠ TaskState.quar ∧ ((u.putTask (↑id : Nat) { k with wake := if abs = true then wake.toNat else s.now + BitVec.toNat arg, dly := true }).snd = true) ∧ ((((u.putTask (↑id : Nat) { k with wake := if abs = true then wake.toNat else s.now + BitVec.toNat arg, dly := true }).fst.dropDelay (↑id : Nat)).pushDelay (↑id : Nat) (if abs = true then wake.toNat else s.now + BitVec.toNat arg)).snd = true)) ∧
    (∃ (id : Fin 65536) (arg : Word32) (wake : BitVec 64) (s : State) (abs : Bool) (u : State) (k : Machine.Task), s.dead = false ∧ s.schOn = true ∧ ((if abs = true then s.setRg64 (schBase + 32) wake.toNat else s.setRg (schBase + 16) arg).taskGet (↑id : Nat) = (u, k)) ∧ k.st ≠ TaskState.free ∧ k.st ≠ TaskState.quar ∧ ((u.putTask (↑id : Nat) { k with wake := if abs = true then wake.toNat else s.now + BitVec.toNat arg, dly := true }).snd = true) ∧ ((((u.putTask (↑id : Nat) { k with wake := if abs = true then wake.toNat else s.now + BitVec.toNat arg, dly := true }).fst.dropDelay (↑id : Nat)).pushDelay (↑id : Nat) (if abs = true then wake.toNat else s.now + BitVec.toNat arg)).snd = false)) :=
  ⟨⟨(5 : Fin 65536), (0 : Fin 64), (3 : Fin 16), (false : Bool), (0x12345678#32 : Word32), (s0 : State), (Sys2Proof.Instr.delay 5 0x12345678#32 : Instr), (by decide +kernel), (by decide +kernel), (by decide +kernel)⟩,
   ⟨(5 : Fin 65536), (s0 : State), (Sys2Proof.Instr.ready 5 : Instr), (by decide +kernel), (by decide +kernel), (by decide +kernel)⟩,
   ⟨(5 : Fin 65536), (0x00000000#32 : Word32), (sc (some { st := .idle, prio := 9, cls := 4, arg := 5, dly := true, wake := 9 }) { dly := [{ id := 5, wake := 9, seq := 3 }, { id := 8, wake := 9, seq := 5 }], dlyOn := 2 } : State), _, _, (by decide +kernel), (by decide +kernel), pairEta2 _, (by decide +kernel)⟩,
   ⟨(5 : Fin 65536), (true : Bool), (0x00000000#32 : Word32), ({ full4096 with regs := [(schBase, 1#32)], sched := { full4096.sched with tasks := (5, some { st := .idle, prio := 9 }) :: full4096.sched.tasks } } : State), _, _, (by decide +kernel), (by decide +kernel), pairEta2 _, (by decide +kernel), (by decide +kernel)⟩,
   ⟨(5 : Fin 65536), (false : Bool), (0x00000000#32 : Word32), (spl2 { tasks := [(5, some { st := .idle, prio := 9 })], lvls := [(9, { ids := [8, 7], on := 1, slots := [0], tl := 1 })], dlyOn := 0, dly := [{ id := 8, wake := 9, seq := 5 }] } : State), _, _, (by decide +kernel), (by decide +kernel), pairEta2 _, (by decide +kernel), (by decide +kernel)⟩,
   ⟨(5 : Fin 65536), (0x00000000#32 : Word32), (spl2 { tasks := (List.range 4096).map (fun i => (100 + i, some { st := .idle, prio := 2 })) } : State), _, _, (by decide +kernel), (by decide +kernel), pairEta2 _, (by decide +kernel)⟩,
   ⟨(5 : Fin 65536), (0x00000000#32 : Word32), (sc (some { st := .quar, prio := 9 }) : State), _, _, (by decide +kernel), (by decide +kernel), pairEta2 _, (by decide +kernel)⟩,
   ⟨(5 : Fin 65536), (0x00000000#32 : Word32), (spl2 { tasks := [(5, some { st := .idle, prio := 9 })], lvls := [(9, { ids := [8, 7], on := 1, slots := [0], tl := 1 })], dlyOn := 0, dly := [{ id := 8, wake := 9, seq := 5 }] } : State), _, _, (by decide +kernel), (by decide +kernel), pairEta2 _, (by decide +kernel), (by decide +kernel)⟩,
   ⟨(5 : Fin 65536), (spl2 { tasks := [(5, some { st := .idle, prio := 9 })], lvls := [(9, { ids := [8, 7], on := 1, slots := [0], tl := 1 })], dlyOn := 0, dly := [{ id := 8, wake := 9, seq := 5 }] } : State), _, _, (by decide +kernel), (by decide +kernel), pairEta2 _, (by decide +kernel)⟩,
   ⟨(5 : Fin 65536), (spl2 { tasks := (List.range 4096).map (fun i => (100 + i, some { st := .idle, prio := 2 })) } : State), _, _, (by decide +kernel), (by decide +kernel), pairEta2 _, (by decide +kernel)⟩,
   ⟨(5 : Fin 65536), (spl2 { tasks := (List.range 4096).map (fun i => (100 + i, some { st := .idle, prio := 2 })) } : State), _, _, (by decide +kernel), (by decide +kernel), pairEta2 _, (by decide +kernel)⟩,
   ⟨(5 : Fin 65536), (sc (some { st := .quar, prio := 9 }) : State), _, _, (by decide +kernel), (by decide +kernel), pairEta2 _, (by decide +kernel)⟩,
   ⟨(5 : Fin 65536), (sc (some { st := .ready, prio := 9, cls := 4, arg := 5 }) { lvls := [(9, { ids := [8, 5], on := 2 })] } : State), _, _, (by decide +kernel), (by decide +kernel), pairEta2 _, (by decide +kernel)⟩,
   ⟨(5 : Fin 65536), (sc (some { st := .running, prio := 9, taker := 17, pin := true }) { holds := [(17, some 5)] } : State), _, _, (by decide +kernel), (by decide +kernel), pairEta2 _, (by decide +kernel)⟩,
   ⟨(5 : Fin 65536), (inDram : State), _, _, (by decide +kernel), (by decide +kernel), pairEta2 _, (by decide +kernel), (by decide +kernel)⟩,
   ⟨(5 : Fin 65536), ({ full4096 with regs := [(schBase, 1#32)], sched := { full4096.sched with tasks := (5, some { st := .idle, prio := 9 }) :: full4096.sched.tasks } } : State), _, _, (by decide +kernel), (by decide +kernel), pairEta2 _, (by decide +kernel), (by decide +kernel), (by decide +kernel)⟩,
   ⟨(5 : Fin 65536), (spl2 { tasks := [(5, some { st := .idle, prio := 9 })], lvls := [(9, { ids := [8, 7], on := 1, slots := [0], tl := 1 })], dlyOn := 0, dly := [{ id := 8, wake := 9, seq := 5 }] } : State), _, _, (by decide +kernel), (by decide +kernel), pairEta2 _, (by decide +kernel), (by decide +kernel), (by decide +kernel)⟩,
   ⟨(5 : Fin 65536), (spl2 { tasks := [(5, some { st := .idle, prio := 9 })], lvls := [(9, { ids := [8, 7], on := 1, slots := [0], tl := 1 })], dlyOn := 0, dly := [{ id := 8, wake := 9, seq := 5 }] } : State), _, _, (by decide +kernel), (by decide +kernel), pairEta2 _, (by decide +kernel), (by decide +kernel)⟩,
   ⟨(5 : Fin 65536), (0x00000000#32 : Word32), (0x0000000000012fd1#64 : BitVec 64), (spl2 { tasks := (List.range 4096).map (fun i => (100 + i, some { st := .idle, prio := 2 })) } : State), (false : Bool), _, _, (by decide +kernel), (by decide +kernel), pairEta2 _, (by decide +kernel)⟩,
   ⟨(5 : Fin 65536), (0x00000000#32 : Word32), (0x0000000000012fd1#64 : BitVec 64), (sc (some { st := .quar, prio := 9 }) : State), (false : Bool), _, _, (by decide +kernel), (by decide +kernel), pairEta2 _, (by decide +kernel)⟩,
   ⟨(5 : Fin 65536), (0x00000000#32 : Word32), (0x0000000000012fd1#64 : BitVec 64), (inDram : State), (false : Bool), _, _, (by decide +kernel), (by decide +kernel), pairEta2 _, (by decide +kernel), (by decide +kernel), (by decide +kernel)⟩,
   ⟨(5 : Fin 65536), (0x00000000#32 : Word32), (0x0000000000012fd1#64 : BitVec 64), (spl2 { tasks := [(5, some { st := .idle, prio := 9 })], lvls := [(9, { ids := [8, 7], on := 1, slots := [0], tl := 1 })], dlyOn := 0, dly := [{ id := 8, wake := 9, seq := 5 }] } : State), (false : Bool), _, _, (by decide +kernel), (by decide +kernel), pairEta2 _, (by decide +kernel), (by decide +kernel), (by decide +kernel), (by decide +kernel)⟩,
   ⟨(5 : Fin 65536), (0x00000000#32 : Word32), (0x0000000000012fd1#64 : BitVec 64), (spl2 { tasks := [(5, some { st := .idle, prio := 9 })], lvls := [(9, { ids := [8, 7], on := 1, slots := [0], tl := 1 })], dlyOn := 0, dly := [{ id := 8, wake := 9, seq := 5 }] } : State), (true : Bool), _, _, (by decide +kernel), (by decide +kernel), pairEta2 _, (by decide +kernel), (by decide +kernel), (by decide +kernel), (by decide +kernel)⟩⟩

end C0

theorem witness1 :
    (∃ (id : Nat) (s : State), s.hasPlace id) ∧
    (∃ (id : Nat) (s : State), (¬s.hasPlace id) ∧ s.victims = []) ∧
    (∃ (id : Nat) (s : State) (e : Nat × Machine.Task) (w : State) (ok : Bool), (¬s.hasPlace id) ∧ s.victims[Config.cacheVictim s.fresh s.victims.length % s.victims.length]? = some e ∧ ((if s.sched.spillErr = true then (s, true) else s.spillWrite (s.recAddr e.fst) (4294967295#32) e.snd.line) = (w, ok))) :=
  ⟨⟨(0 : Nat), (s0 : State), (by unfold State.hasPlace; decide +kernel)⟩,
   ⟨(0 : Nat), ({ full4096 with regs := [(schBase, 1#32)], sched := { full4096.sched with tasks := (5, some { st := .idle, prio := 9 }) :: full4096.sched.tasks } } : State), (by unfold State.hasPlace; decide +kernel), (by decide +kernel)⟩,
   ⟨(0 : Nat), (spl2 { tasks := (List.range 4096).map (fun i => (100 + i, some { st := .idle, prio := 2 })) } : State), _, _, _, (by unfold State.hasPlace; decide +kernel), someGet _ (isSomeMod _ _ (by decide +kernel)), pairEta2 _⟩⟩

theorem witness2 :
    (∃ (lvl : Nat) (s : State), ((mget { ids := [], on := 0, slots := [], tl := 0 : Level } s.sched.lvls lvl).on = (mget { ids := [], on := 0, slots := [], tl := 0 : Level } s.sched.lvls lvl).ids.length ∧ ((mget { ids := [], on := 0, slots := [], tl := 0 : Level } s.sched.lvls lvl).on < 8 ∨ s.sched.shared < 1536))) ∧
    (∃ (lvl : Nat) (s : State), (¬((mget { ids := [], on := 0, slots := [], tl := 0 : Level } s.sched.lvls lvl).on = (mget { ids := [], on := 0, slots := [], tl := 0 : Level } s.sched.lvls lvl).ids.length ∧ ((mget { ids := [], on := 0, slots := [], tl := 0 : Level } s.sched.lvls lvl).on < 8 ∨ s.sched.shared < 1536))) ∧ s.spillOk = false) ∧
    (∃ (lvl : Nat) (s : State), (mget { ids := [], on := 0, slots := [], tl := 0 : Level } s.sched.lvls lvl).slots.length < 65536) ∧
    (∃ (id : Nat) (lvl : Nat) (s : State) (w : State) (ok : Bool), (¬((mget { ids := [], on := 0, slots := [], tl := 0 : Level } s.sched.lvls lvl).on = (mget { ids := [], on := 0, slots := [], tl := 0 : Level } s.sched.lvls lvl).ids.length ∧ ((mget { ids := [], on := 0, slots := [], tl := 0 : Level } s.sched.lvls lvl).on < 8 ∨ s.sched.shared < 1536))) ∧ s.spillOk = true ∧ s.ringWrite lvl (freePlace (mget { ids := [], on := 0, slots := [], tl := 0 : Level } s.sched.lvls lvl).slots ((mget { ids := [], on := 0, slots := [], tl := 0 : Level } s.sched.lvls lvl).slots.length + 1) (mget { ids := [], on := 0, slots := [], tl := 0 : Level } s.sched.lvls lvl).tl) id = (w, ok)) :=
  ⟨⟨(0 : Nat), (s0 : State), (by decide +kernel)⟩,
   ⟨(9 : Nat), (sc (some { st := .idle, prio := 9 }) { lvls := [(9, { ids := [8, 7], on := 1 })] } : State), (by decide +kernel), (by decide +kernel)⟩,
   ⟨(0 : Nat), (s0 : State), (by decide +kernel)⟩,
   ⟨(0 : Nat), (9 : Nat), (spl2 { tasks := [(5, some { st := .idle, prio := 9 })], lvls := [(9, { ids := [8, 7], on := 1, slots := [0], tl := 1 })], dlyOn := 0, dly := [{ id := 8, wake := 9, seq := 5 }] } : State), _, _, (by decide +kernel), (by decide +kernel), pairEta2 _⟩⟩

theorem witness3 :
    (∃ (wake : Nat) (s : State), (List.Pairwise (fun (a b : DelayEnt) => a.wake ≤ b.wake) s.sched.dly)) ∧
    (∃ (id : Nat) (wake : Nat) (s : State), ((List.findIdx? (fun (d : DelayEnt) => d == { wake := wake, id := id, seq := s.fresh, past := decide (wake < s.now) : DelayEnt }) (insertDelay { wake := wake, id := id, seq := s.fresh, past := decide (wake < s.now) : DelayEnt } s.sched.dly)).getD 0 ≤ s.sched.dlyOn) ∧ s.sched.dlyOn < 4096) ∧
    (∃ (id : Nat) (wake : Nat) (s : State), (¬((List.findIdx? (fun (d : DelayEnt) => d == { wake := wake, id := id, seq := s.fresh, past := decide (wake < s.now) : DelayEnt }) (insertDelay { wake := wake, id := id, seq := s.fresh, past := decide (wake < s.now) : DelayEnt } s.sched.dly)).getD 0 ≤ s.sched.dlyOn ∧ s.sched.dlyOn < 4096)) ∧ s.spillOk = false) ∧
    (∃ (id : Nat) (wake : Nat) (s : State), (¬((List.findIdx? (fun (d : DelayEnt) => d == { wake := wake, id := id, seq := s.fresh, past := decide (wake < s.now) : DelayEnt }) (insertDelay { wake := wake, id := id, seq := s.fresh, past := decide (wake < s.now) : DelayEnt } s.sched.dly)).getD 0 ≤ s.sched.dlyOn ∧ s.sched.dlyOn < 4096)) ∧ s.spillOk = true) :=
  ⟨⟨(0 : Nat), (s0 : State), (by decide +kernel)⟩,
   ⟨(0 : Nat), (0 : Nat), (s0 : State), (by decide +kernel), (by decide +kernel)⟩,
   ⟨(0 : Nat), (9 : Nat), (sc (some { st := .idle, prio := 9 }) { dly := [{ id := 8, wake := 9, seq := 5 }] } : State), (by decide +kernel), (by decide +kernel)⟩,
   ⟨(0 : Nat), (9 : Nat), (spl2 { tasks := [(5, some { st := .idle, prio := 9 })], lvls := [(9, { ids := [8, 7], on := 1, slots := [0], tl := 1 })], dlyOn := 0, dly := [{ id := 8, wake := 9, seq := 5 }] } : State), (by decide +kernel), (by decide +kernel)⟩⟩

theorem witness4 :
    (∃ (id : Nat) (s : State), (∀ (e : DelayEnt), e ∈ s.sched.dly → e.id ≠ id)) ∧
    (∃ (s : State) (i : Nat) (e : DelayEnt) (id : Nat), s.sched.dly[i]? = some e ∧ e.id = id ∧ (∀ (j : Nat) (d : DelayEnt), j < i → s.sched.dly[j]? = some d → d.id ≠ id) ∧ i < s.sched.dlyOn) :=
  ⟨⟨(0 : Nat), (s0 : State), (by decide +kernel)⟩,
   ⟨(sc (some { st := .idle, prio := 9, cls := 4, arg := 5, dly := true, wake := 9 }) { dly := [{ id := 5, wake := 9, seq := 3 }, { id := 8, wake := 9, seq := 5 }], dlyOn := 2 } : State), (0 : Nat), _, _, someGet _ (by decide +kernel), rfl, (by intro j d h; omega), (by decide +kernel)⟩⟩

end SchedulerCommandsChangeTheirTask

/-! Witnesses of `Obligations.TakersWaitAndTasksAreDispatched`. -/
namespace TakersWaitAndTasksAreDispatched

def td (c : Sched) : State := { regs := [(0x10000 + 0x20, 0x10#32), (schBase, 1#32), (schBase + 0x10C, 0xFF#32), (schBase + 0x68, 4#32)], sched := c }

theorem witness0 :
    (∃ (k : Fin 80) (s : State), s.dead = false ∧ s.sched.way.contains ((↑k : Nat), false) = false) ∧
    (∃ (k : Fin 80) (s : State), s.dead = false ∧ s.sched.way.contains ((↑k : Nat), false) = true ∧ s.schOn = false) ∧
    (∃ (k : Fin 80) (s : State), s.dead = false ∧ s.sched.way.contains ((↑k : Nat), false) = true ∧ s.schOn = true ∧ ((↑k : Nat) < 16 ∧ ({ s with sched := { s.sched with way := s.sched.way.erase ((↑k : Nat), false) } }.schComplete (↑k : Nat)).rb (schBase + 320) (↑k : Nat) = true)) ∧
    (∃ (k : Fin 80) (s : State), s.dead = false ∧ s.sched.way.contains ((↑k : Nat), false) = true ∧ s.schOn = true ∧ (¬((↑k : Nat) < 16 ∧ ({ s with sched := { s.sched with way := s.sched.way.erase ((↑k : Nat), false) } }.schComplete (↑k : Nat)).rb (schBase + 320) (↑k : Nat) = true))) :=
  ⟨⟨(0 : Fin 80), (s0 : State), (by decide +kernel), (by decide +kernel)⟩,
   ⟨(3 : Fin 80), ({ td { way := [(3, false), (17, false)] } with regs := [] } : State), (by decide +kernel), (by decide +kernel), (by decide +kernel)⟩,
   ⟨(3 : Fin 80), ({ td { way := [(3, false)] } with regs := [(schBase, 1#32), (schBase + 0x140, 8#32)] } : State), (by decide +kernel), (by decide +kernel), (by decide +kernel), (by decide +kernel)⟩,
   ⟨(0 : Fin 80), (td { way := [(0, false), (17, false), (3, true)], holds := [(17, some 5)], tasks := [(5, some { st := .running, prio := 9, taker := 17, cxp := true })], waiting := [(3, 0xFF)] } : State), (by decide +kernel), (by decide +kernel), (by decide +kernel), (by decide +kernel)⟩⟩

theorem witness2 :
    (∃ (k : Nat) (v : State), mget none v.sched.holds k = none) ∧
    (∃ (k : Nat) (v : State) (id : Nat) (u : State) (x : Machine.Task), mget none v.sched.holds k = some id ∧ { v with sched := { v.sched with holds := mset none v.sched.holds k none } }.taskGet id = (u, x) ∧ x.st = TaskState.quar) ∧
    (∃ (k : Nat) (v : State) (id : Nat) (u : State) (x : Machine.Task), mget none v.sched.holds k = some id ∧ { v with sched := { v.sched with holds := mset none v.sched.holds k none } }.taskGet id = (u, x) ∧ x.st ≠ TaskState.quar ∧ x.rerun = false) ∧
    (∃ (k : Nat) (v : State) (id : Nat) (u : State) (x : Machine.Task), mget none v.sched.holds k = some id ∧ { v with sched := { v.sched with holds := mset none v.sched.holds k none } }.taskGet id = (u, x) ∧ x.st ≠ TaskState.quar ∧ x.rerun = true) :=
  ⟨⟨(0 : Nat), (s0 : State), (by decide +kernel)⟩,
   ⟨(17 : Nat), (td { way := [(17, false)], holds := [(17, some 5)], tasks := [(5, some { st := .quar })] } : State), _, _, _, someGet _ (by decide +kernel), pairEta2 _, (by decide +kernel)⟩,
   ⟨(17 : Nat), (td { way := [(0, false), (17, false), (3, true)], holds := [(17, some 5)], tasks := [(5, some { st := .running, prio := 9, taker := 17, cxp := true })], waiting := [(3, 0xFF)] } : State), _, _, _, someGet _ (by decide +kernel), pairEta2 _, (by decide +kernel), (by decide +kernel)⟩,
   ⟨(17 : Nat), (td { way := [(17, false)], holds := [(17, some 5)], tasks := [(5, some { st := .running, rerun := true, prio := 3 })] } : State), _, _, _, someGet _ (by decide +kernel), pairEta2 _, (by decide +kernel), (by decide +kernel)⟩⟩

theorem witness3 :
    (∃ (id : Nat) (v : State) (x : Machine.Task), mget none v.sched.tasks id = some x ∧ x.bad = false) :=
  ⟨(5 : Nat), (td { way := [(0, false), (17, false), (3, true)], holds := [(17, some 5)], tasks := [(5, some { st := .running, prio := 9, taker := 17, cxp := true })], waiting := [(3, 0xFF)] } : State), _, someGet _ (by decide +kernel), (by decide +kernel)⟩

theorem witness4 :
    (∃ (k : Fin 80) (s : State), s.dead = false ∧ s.sched.way.contains ((↑k : Nat), true) = false) ∧
    (∃ (k : Fin 80) (s : State), s.dead = false ∧ s.sched.way.contains ((↑k : Nat), true) = true ∧ (↑k : Nat) < 16) ∧
    (∃ (k : Fin 80) (s : State), s.dead = false ∧ s.sched.way.contains ((↑k : Nat), true) = true ∧ 16 ≤ (↑k : Nat) ∧ (¬((s.region ((↑k : Nat) - 16)).st = SeqState.take ∧ (s.region ((↑k : Nat) - 16)).withdrawing = true ∧ (mget none s.sched.given (↑k : Nat)).isSome = false))) ∧
    (∃ (k : Fin 80) (s : State) (l : Nat), s.dead = false ∧ s.sched.way.contains ((↑k : Nat), true) = true ∧ 16 ≤ (↑k : Nat) ∧ (s.region ((↑k : Nat) - 16)).st = SeqState.take ∧ (s.region ((↑k : Nat) - 16)).withdrawing = true ∧ (mget none s.sched.given (↑k : Nat)).isSome = false ∧ ({ s with sched := { s.sched with waiting := List.filter (fun (e : Nat × BitVec 16) => e.fst != (↑k : Nat)) s.sched.waiting, way := s.sched.way.erase ((↑k : Nat), true) } }.eventLine ((↑k : Nat) - 16) = some l) ∧ (s.region ((↑k : Nat) - 16)).eligible = true) ∧
    (∃ (k : Fin 80) (s : State), s.dead = false ∧ s.sched.way.contains ((↑k : Nat), true) = true ∧ 16 ≤ (↑k : Nat) ∧ (s.region ((↑k : Nat) - 16)).st = SeqState.take ∧ (s.region ((↑k : Nat) - 16)).withdrawing = true ∧ (mget none s.sched.given (↑k : Nat)).isSome = false ∧ ({ s with sched := { s.sched with waiting := List.filter (fun (e : Nat × BitVec 16) => e.fst != (↑k : Nat)) s.sched.waiting, way := s.sched.way.erase ((↑k : Nat), true) } }.eventLine ((↑k : Nat) - 16) = none ∨ (s.region ((↑k : Nat) - 16)).eligible = false)) :=
  ⟨⟨(0 : Fin 80), (s0 : State), (by decide +kernel), (by decide +kernel)⟩,
   ⟨(3 : Fin 80), (td { way := [(0, false), (17, false), (3, true)], holds := [(17, some 5)], tasks := [(5, some { st := .running, prio := 9, taker := 17, cxp := true })], waiting := [(3, 0xFF)] } : State), (by decide +kernel), (by decide +kernel), (by decide +kernel)⟩,
   ⟨(17 : Fin 80), (td { way := [(17, true)] } : State), (by decide +kernel), (by decide +kernel), (by decide +kernel), (by decide +kernel)⟩,
   ⟨(17 : Fin 80), ({ td { way := [(17, true)] } with regions := [(1, { st := .take, withdrawing := true })], regs := [(regionBase 1 + 0xC, 0xFF#32), (regionBase 1 + 0x10, 0xFF#32)] } : State), _, (by decide +kernel), (by decide +kernel), (by decide +kernel), (by decide +kernel), (by decide +kernel), (by decide +kernel), someGet _ (by decide +kernel), (by decide +kernel)⟩,
   ⟨(17 : Fin 80), ({ td { way := [(17, true)] } with regions := [(1, { st := .take, withdrawing := true })] } : State), (by decide +kernel), (by decide +kernel), (by decide +kernel), (by decide +kernel), (by decide +kernel), (by decide +kernel), (by decide +kernel)⟩⟩

theorem witness5 :
    (∃ (s : State), s.dead = false ∧ (s.schOn = false ∨ s.schChoice = none)) ∧
    (∃ (s : State) (l : Nat) (id : Nat) (k : Nat) (i : Nat) (u : State), s.dead = false ∧ s.schOn = true ∧ s.schChoice = some (l, id, k) ∧ (List.findIdx? (fun (j : Nat) => j == id) (mget { ids := [], on := 0, slots := [], tl := 0 : Level } s.sched.lvls l).ids = some i) ∧ (mget { ids := [], on := 0, slots := [], tl := 0 : Level } s.sched.lvls l).on ≤ i ∧ s.readyRead l i = (u, false)) ∧
    (∃ (s : State) (l : Nat) (id : Nat) (k : Nat) (i : Nat) (u : State) (v : State) (x : Machine.Task), s.dead = false ∧ s.schOn = true ∧ s.schChoice = some (l, id, k) ∧ (List.findIdx? (fun (j : Nat) => j == id) (mget { ids := [], on := 0, slots := [], tl := 0 : Level } s.sched.lvls l).ids = some i) ∧ (i < (mget { ids := [], on := 0, slots := [], tl := 0 : Level } s.sched.lvls l).on ∧ u = s ∨ (mget { ids := [], on := 0, slots := [], tl := 0 : Level } s.sched.lvls l).on ≤ i ∧ s.readyRead l i = (u, true)) ∧ u.taskGet id = (v, x) ∧ x.st ≠ TaskState.ready) ∧
    (∃ (s : State) (l : Nat) (id : Nat) (k : Nat) (i : Nat) (u : State) (v : State) (x : Machine.Task), s.dead = false ∧ s.schOn = true ∧ s.schChoice = some (l, id, k) ∧ (List.findIdx? (fun (j : Nat) => j == id) (mget { ids := [], on := 0, slots := [], tl := 0 : Level } s.sched.lvls l).ids = some i) ∧ (i < (mget { ids := [], on := 0, slots := [], tl := 0 : Level } s.sched.lvls l).on ∧ u = s ∨ (mget { ids := [], on := 0, slots := [], tl := 0 : Level } s.sched.lvls l).on ≤ i ∧ s.readyRead l i = (u, true)) ∧ u.taskGet id = (v, x) ∧ x.st = TaskState.ready) :=
  ⟨⟨(s0 : State), (by decide +kernel), (by decide +kernel)⟩,
   ⟨({ td { tasks := [(5, some { st := .ready, cls := 1 })], lvls := [(9, { ids := [5], on := 0, slots := [3] })], waiting := [(2, 2)] } with regs := (schBase, 1#32) :: [(schBase + 8, 0#32)] } : State), _, _, _, _, _, (by decide +kernel), (by decide +kernel), someGet3 _ (by decide +kernel), someGet _ (by decide +kernel), (by decide +kernel), pairFst _ (by decide +kernel)⟩,
   ⟨(td { tasks := [(5, some { st := .idle })], lvls := [(9, { ids := [5], on := 1 })], waiting := [(2, 0xFFFF)] } : State), _, _, _, _, (td { tasks := [(5, some { st := .idle })], lvls := [(9, { ids := [5], on := 1 })], waiting := [(2, 0xFFFF)] } : State), _, _, (by decide +kernel), (by decide +kernel), someGet3 _ (by decide +kernel), someGet _ (by decide +kernel), (by decide +kernel), pairEta2 _, (by decide +kernel)⟩,
   ⟨(td { tasks := [(5, some { st := .ready, prio := 9, cls := 4, arg := 77 }), (8, some { st := .ready, prio := 9, cls := 3 })], lvls := [(9, { ids := [8, 5], on := 2 })], waiting := [(2, 2), (17, 0x10), (3, 0xFF)], report := [(17, true), (3, true)] } : State), _, _, _, _, (td { tasks := [(5, some { st := .ready, prio := 9, cls := 4, arg := 77 }), (8, some { st := .ready, prio := 9, cls := 3 })], lvls := [(9, { ids := [8, 5], on := 2 })], waiting := [(2, 2), (17, 0x10), (3, 0xFF)], report := [(17, true), (3, true)] } : State), _, _, (by decide +kernel), (by decide +kernel), someGet3 _ (by decide +kernel), someGet _ (by decide +kernel), (by decide +kernel), pairEta2 _, (by decide +kernel)⟩⟩

theorem witness6 :
    (∃ (s : State) (j : Nat) (i : Nat) (e : Nat × BitVec 16) (l : Nat) (id : Nat) (k : Nat), i ∈ (mget { ids := [], on := 0, slots := [], tl := 0 : Level } s.sched.lvls j).ids ∧ j < l ∧ s.schChoice = some (l, id, k) ∧ e ∈ s.sched.waiting) :=
  ⟨(td { tasks := [(5, some { st := .ready, cls := 3 }), (8, some { st := .ready, cls := 4 })], lvls := [(3, { ids := [5], on := 1 }), (9, { ids := [8], on := 1 })], waiting := [(2, 0x10)] } : State), (3 : Nat), (5 : Nat), ((2, 0x0010#16) : Nat × BitVec 16), ((((td { tasks := [(5, some { st := .ready, cls := 3 }), (8, some { st := .ready, cls := 4 })], lvls := [(3, { ids := [5], on := 1 }), (9, { ids := [8], on := 1 })], waiting := [(2, 0x10)] } : State)).schChoice).get (by all_goals decide +kernel)).1, (((((td { tasks := [(5, some { st := .ready, cls := 3 }), (8, some { st := .ready, cls := 4 })], lvls := [(3, { ids := [5], on := 1 }), (9, { ids := [8], on := 1 })], waiting := [(2, 0x10)] } : State)).schChoice).get (by all_goals decide +kernel)).2).1, (((((td { tasks := [(5, some { st := .ready, cls := 3 }), (8, some { st := .ready, cls := 4 })], lvls := [(3, { ids := [5], on := 1 }), (9, { ids := [8], on := 1 })], waiting := [(2, 0x10)] } : State)).schChoice).get (by all_goals decide +kernel)).2).2, (by decide +kernel), (by decide +kernel), (by first | decide +kernel | exact someGet3 _ (by decide +kernel)), (by decide +kernel)⟩

theorem witness7 :
    (∃ (s : State), s.dead = false) :=
  ⟨(s0 : State), (by decide +kernel)⟩

theorem witness8 :
    (∃ (k : Nat) (w : State), mget none w.sched.holds k = none) ∧
    (∃ (k : Nat) (w : State), mget none w.sched.holds k ≠ none) :=
  ⟨⟨(0 : Nat), (s0 : State), (by decide +kernel)⟩,
   ⟨(17 : Nat), (td { way := [(0, false), (17, false), (3, true)], holds := [(17, some 5)], tasks := [(5, some { st := .running, prio := 9, taker := 17, cxp := true })], waiting := [(3, 0xFF)] } : State), (by decide +kernel)⟩⟩

end TakersWaitAndTasksAreDispatched

/-! Witnesses of `Obligations.DelaysExpireAndSpilledEntriesReturn`. -/
namespace DelaysExpireAndSpilledEntriesReturn

def td (c : Sched) (n : Nat := 10) : State := { regs := [(schBase, 1#32), (schBase + 0x10C, 0xFF#32), (schBase + 0x68, 4#32), (schBase + 0x54, 0x400#32)], sched := c, now := n }

theorem witness0 :
    (∃ (s : State), s.dead = false ∧ s.schOn = false) ∧
    (∃ (s : State), s.dead = false ∧ s.schOn = true) :=
  ⟨⟨(s0 : State), (by decide +kernel), (by decide +kernel)⟩,
   ⟨(td { tasks := [(5, some { st := .idle, prio := 9, cls := 4, arg := 77, dly := true }), (8, some { st := .ready, prio := 9, cls := 3 })], dly := [{ id := 5, wake := 9, seq := 3 }, { id := 8, wake := 9999, seq := 5 }], dlyOn := 2, lvls := [(9, { ids := [8], on := 1 })] } : State), (by decide +kernel), (by decide +kernel)⟩⟩

theorem witness1 :
    (∃ (s : State) (e : DelayEnt) (d : DelayEnt), s.nextExpiry = some e ∧ d ∈ s.sched.dly ∧ s.expiresAt d ≤ s.now) :=
  ⟨(td { tasks := [(5, some { st := .idle, prio := 9, cls := 4, arg := 77, dly := true }), (8, some { st := .ready, prio := 9, cls := 3 })], dly := [{ id := 5, wake := 9, seq := 3 }, { id := 8, wake := 9999, seq := 5 }], dlyOn := 2, lvls := [(9, { ids := [8], on := 1 })] } : State), _, ({ wake := 9, id := 5, seq := 3, past := false } : DelayEnt), someGet _ (by decide +kernel), (by decide +kernel), (by decide +kernel)⟩

theorem witness2 :
    (∃ (e : DelayEnt) (s : State) (u : State), (s.sched.dlyOn ≤ (List.findIdx? (fun (d : DelayEnt) => d == e) s.sched.dly).getD 0) ∧ (s.delayRead ((List.findIdx? (fun (d : DelayEnt) => d == e) s.sched.dly).getD 0) e = (u, false))) ∧
    (∃ (e : DelayEnt) (s : State) (u : State) (v : State) (x : Machine.Task), ((List.findIdx? (fun (d : DelayEnt) => d == e) s.sched.dly).getD 0 < s.sched.dlyOn ∧ u = s ∨ s.sched.dlyOn ≤ (List.findIdx? (fun (d : DelayEnt) => d == e) s.sched.dly).getD 0 ∧ s.delayRead ((List.findIdx? (fun (d : DelayEnt) => d == e) s.sched.dly).getD 0) e = (u, true)) ∧ (u.dropDelay e.id).taskGet e.id = (v, x) ∧ (x.st = TaskState.quar ∨ x.st = TaskState.free)) ∧
    (∃ (e : DelayEnt) (s : State) (u : State) (v : State) (x : Machine.Task), ((List.findIdx? (fun (d : DelayEnt) => d == e) s.sched.dly).getD 0 < s.sched.dlyOn ∧ u = s ∨ s.sched.dlyOn ≤ (List.findIdx? (fun (d : DelayEnt) => d == e) s.sched.dly).getD 0 ∧ s.delayRead ((List.findIdx? (fun (d : DelayEnt) => d == e) s.sched.dly).getD 0) e = (u, true)) ∧ (u.dropDelay e.id).taskGet e.id = (v, x) ∧ x.st ≠ TaskState.quar ∧ x.st ≠ TaskState.free) :=
  ⟨⟨({ wake := 9, id := 5, seq := 3, past := false } : DelayEnt), (s0 : State), _, (by decide +kernel), pairFst _ (by decide +kernel)⟩,
   ⟨({ wake := 9, id := 5, seq := 3, past := false } : DelayEnt), ({ td { dly := [{ id := 5, wake := 99, seq := 3 }, { id := 8, wake := 9999, seq := 5 }], dlyOn := 1, lvls := [(9, { ids := [8, 7], on := 1 })] } with drams := [(0, { st := .run })], regs := [(dramBase 0, 1#32), (schBase, 1#32)] } : State), ({ td { dly := [{ id := 5, wake := 99, seq := 3 }, { id := 8, wake := 9999, seq := 5 }], dlyOn := 1, lvls := [(9, { ids := [8, 7], on := 1 })] } with drams := [(0, { st := .run })], regs := [(dramBase 0, 1#32), (schBase, 1#32)] } : State), _, _, (by decide +kernel), pairEta2 _, (by decide +kernel)⟩,
   ⟨({ wake := 9, id := 5, seq := 3, past := false } : DelayEnt), (td { tasks := [(5, some { st := .idle, prio := 9, cls := 4, arg := 77, dly := true }), (8, some { st := .ready, prio := 9, cls := 3 })], dly := [{ id := 5, wake := 9, seq := 3 }, { id := 8, wake := 9999, seq := 5 }], dlyOn := 2, lvls := [(9, { ids := [8], on := 1 })] } : State), (td { tasks := [(5, some { st := .idle, prio := 9, cls := 4, arg := 77, dly := true }), (8, some { st := .ready, prio := 9, cls := 3 })], dly := [{ id := 5, wake := 9, seq := 3 }, { id := 8, wake := 9999, seq := 5 }], dlyOn := 2, lvls := [(9, { ids := [8], on := 1 })] } : State), _, _, (by decide +kernel), pairEta2 _, (by decide +kernel), (by decide +kernel)⟩⟩

theorem witness4 :
    (∃ (v : Fin 64) (s : State), s.dead = false ∧ 4 ≤ (mget { ids := [], on := 0, slots := [], tl := 0 : Level } s.sched.lvls (↑v : Nat)).on) ∧
    (∃ (v : Fin 64) (s : State), s.dead = false ∧ (mget { ids := [], on := 0, slots := [], tl := 0 : Level } s.sched.lvls (↑v : Nat)).on < 4) ∧
    (∃ (v : Fin 64) (s : State), s.dead = false ∧ (mget { ids := [], on := 0, slots := [], tl := 0 : Level } s.sched.lvls (↑v : Nat)).ids.length ≤ (mget { ids := [], on := 0, slots := [], tl := 0 : Level } s.sched.lvls (↑v : Nat)).on) ∧
    (∃ (v : Fin 64) (s : State) (u : State), s.dead = false ∧ (mget { ids := [], on := 0, slots := [], tl := 0 : Level } s.sched.lvls (↑v : Nat)).on < (mget { ids := [], on := 0, slots := [], tl := 0 : Level } s.sched.lvls (↑v : Nat)).ids.length ∧ s.readyRead (↑v : Nat) (mget { ids := [], on := 0, slots := [], tl := 0 : Level } s.sched.lvls (↑v : Nat)).on = (u, true)) ∧
    (∃ (v : Fin 64) (s : State) (u : State), s.dead = false ∧ (mget { ids := [], on := 0, slots := [], tl := 0 : Level } s.sched.lvls (↑v : Nat)).on < (mget { ids := [], on := 0, slots := [], tl := 0 : Level } s.sched.lvls (↑v : Nat)).ids.length ∧ s.readyRead (↑v : Nat) (mget { ids := [], on := 0, slots := [], tl := 0 : Level } s.sched.lvls (↑v : Nat)).on = (u, false)) :=
  ⟨⟨(9 : Fin 64), (td { lvls := [(9, { ids := [8, 7, 3, 4, 5, 6], on := 4, slots := [4, 5] })] } : State), (by decide +kernel), (by decide +kernel)⟩,
   ⟨(0 : Fin 64), (s0 : State), (by decide +kernel), (by decide +kernel)⟩,
   ⟨(0 : Fin 64), (s0 : State), (by decide +kernel), (by decide +kernel)⟩,
   ⟨(9 : Fin 64), ({ td {} with regs := regsOf [(schBase, 5#32), (dramBase 0, 1#32)] (rt [(73, 64)]), sched := { tasks := [(5, some { st := .idle, dly := true })], lvls := [(9, { ids := [8, 7], on := 1, slots := [4], tl := 5 })], dly := [{ id := 5, wake := 99, seq := 3 }] }, drams := [(0, { st := .run, filled := true })] } : State), _, (by decide +kernel), (by decide +kernel), pairFst _ (by decide +kernel)⟩,
   ⟨(9 : Fin 64), ({ td { dly := [{ id := 5, wake := 99, seq := 3 }, { id := 8, wake := 9999, seq := 5 }], dlyOn := 1, lvls := [(9, { ids := [8, 7], on := 1 })] } with drams := [(0, { st := .run })], regs := [(dramBase 0, 1#32), (schBase, 1#32)] } : State), _, (by decide +kernel), (by decide +kernel), pairFst _ (by decide +kernel)⟩⟩

theorem witness5 :
    (∃ (v : Nat) (i : Nat) (s : State) (x : MemAns) (u : State), s.wordGet Master.sched (s.ringAt v ((mget { ids := [], on := 0, slots := [], tl := 0 : Level } s.sched.lvls v).slots.getD (i - (mget { ids := [], on := 0, slots := [], tl := 0 : Level } s.sched.lvls v).on) 0) / 32 * 32) = (u, x) ∧ x.status = 0 ∧ x.x.ue = false) ∧
    (∃ (v : Nat) (i : Nat) (s : State) (x : MemAns) (id : Nat) (u : State), s.wordGet Master.sched (s.ringAt v ((mget { ids := [], on := 0, slots := [], tl := 0 : Level } s.sched.lvls v).slots.getD (i - (mget { ids := [], on := 0, slots := [], tl := 0 : Level } s.sched.lvls v).on) 0) / 32 * 32) = (u, x) ∧ (x.status ≠ 0 ∨ x.x.ue = true) ∧ (mget { ids := [], on := 0, slots := [], tl := 0 : Level } s.sched.lvls v).ids[i]? = some id) :=
  ⟨⟨(0 : Nat), (0 : Nat), ({ td {} with regs := regsOf [(schBase, 5#32), (dramBase 0, 1#32)] (rt [(73, 64)]), sched := { tasks := [(5, some { st := .idle, dly := true })], lvls := [(9, { ids := [8, 7], on := 1, slots := [4], tl := 5 })], dly := [{ id := 5, wake := 99, seq := 3 }] }, drams := [(0, { st := .run, filled := true })] } : State), _, _, pairEta2 _, (by decide +kernel), (by decide +kernel)⟩,
   ⟨(9 : Nat), (0 : Nat), (td { tasks := [(5, some { st := .idle, prio := 9, cls := 4, arg := 77, dly := true }), (8, some { st := .ready, prio := 9, cls := 3 })], dly := [{ id := 5, wake := 9, seq := 3 }, { id := 8, wake := 9999, seq := 5 }], dlyOn := 2, lvls := [(9, { ids := [8], on := 1 })] } : State), _, _, _, pairEta2 _, (by decide +kernel), someGet _ (by decide +kernel)⟩⟩

theorem witness6 :
    (∃ (s : State), s.dead = false ∧ 3072 ≤ s.sched.dlyOn) ∧
    (∃ (s : State), s.dead = false ∧ s.sched.dlyOn < 3072) :=
  ⟨⟨(td { dlyOn := 3072 } : State), (by decide +kernel), (by decide +kernel)⟩,
   ⟨(s0 : State), (by decide +kernel), (by decide +kernel)⟩⟩

theorem witness7 :
    (∃ (s : State), s.dead = false) :=
  ⟨(s0 : State), (by decide +kernel)⟩

theorem witness8 :
    (∃ (v : Word32) (s : State), s.dead = false ∧ s.schOn = false ∧ (bit v 2 = true ∧ ((BitVec.toNat (s.rg (schBase + 8)) + s.rf (schBase + 12) 0 8 * 2 ^ 32) % 16777216 ≠ 0 ∨ 2 ^ 38 ≤ BitVec.toNat (s.rg (schBase + 8)) + s.rf (schBase + 12) 0 8 * 2 ^ 32 ∨ s.dramWithin (BitVec.toNat (s.rg (schBase + 8)) + s.rf (schBase + 12) 0 8 * 2 ^ 32) 16777216 = false))) ∧
    (∃ (v : Word32) (s : State), s.dead = false ∧ s.schOn = false ∧ (¬(bit v 2 = true ∧ ((BitVec.toNat (s.rg (schBase + 8)) + s.rf (schBase + 12) 0 8 * 2 ^ 32) % 16777216 ≠ 0 ∨ 2 ^ 38 ≤ BitVec.toNat (s.rg (schBase + 8)) + s.rf (schBase + 12) 0 8 * 2 ^ 32 ∨ s.dramWithin (BitVec.toNat (s.rg (schBase + 8)) + s.rf (schBase + 12) 0 8 * 2 ^ 32) 16777216 = false))) ∧ (fld v 16 14 = 0 ∨ 10000 < fld v 16 14)) ∧
    (∃ (v : Word32) (s : State), s.dead = false ∧ s.schOn = false ∧ (¬(bit v 2 = true ∧ ((BitVec.toNat (s.rg (schBase + 8)) + s.rf (schBase + 12) 0 8 * 2 ^ 32) % 16777216 ≠ 0 ∨ 2 ^ 38 ≤ BitVec.toNat (s.rg (schBase + 8)) + s.rf (schBase + 12) 0 8 * 2 ^ 32 ∨ s.dramWithin (BitVec.toNat (s.rg (schBase + 8)) + s.rf (schBase + 12) 0 8 * 2 ^ 32) 16777216 = false))) ∧ (¬(fld v 16 14 = 0 ∨ 10000 < fld v 16 14))) ∧
    (∃ (s : State), s.dead = false ∧ s.schOn = true) :=
  ⟨⟨(0x12340005#32 : Word32), (s0 : State), (by decide +kernel), (by decide +kernel), (by decide +kernel)⟩,
   ⟨(0x00000000#32 : Word32), (s0 : State), (by decide +kernel), (by decide +kernel), (by decide +kernel), (by decide +kernel)⟩,
   ⟨(0x00100001#32 : Word32), (s0 : State), (by decide +kernel), (by decide +kernel), (by decide +kernel), (by decide +kernel)⟩,
   ⟨(td { tasks := [(5, some { st := .idle, prio := 9, cls := 4, arg := 77, dly := true }), (8, some { st := .ready, prio := 9, cls := 3 })], dly := [{ id := 5, wake := 9, seq := 3 }, { id := 8, wake := 9999, seq := 5 }], dlyOn := 2, lvls := [(9, { ids := [8], on := 1 })] } : State), (by decide +kernel), (by decide +kernel)⟩⟩

end DelaysExpireAndSpilledEntriesReturn

/-! Witnesses of `Obligations.CoreMemoryInstructionsRun`. -/
namespace CoreMemoryInstructionsRun

def ca : Nat := localBase 2 + 0x104
def cm (r5 r6 : Nat) (c : Core := {}) : State := { cores := [(2, { c with st := .run, pc := 0x80#32, x := [(5, BitVec.ofNat 32 r5), (6, BitVec.ofNat 32 r6)] }), (16, { c with st := .run, pc := 0x82#32, x := [(5, BitVec.ofNat 32 r5), (6, BitVec.ofNat 32 r6)], stores := [0x44#32] })], mem := [⟨ca, 0x85⟩, ⟨ca+1, 0x96⟩, ⟨ca+3, 0xA7⟩, ⟨ca + 10, 3⟩], codes := [(ca / 32, { wf := 3 })] }

theorem witness0 :
    (∃ (n : Fin 17) (rs1 : Fin 32) (rs2 : Fin 32) (kind : LoadKind) (sk : StoreKind) (imm : BitVec 12) (rvc : Bool) (stop : Option (Fin 32)) (c : Instr) (s : State), s.dead = false ∧ s.coreGo (↑n : Nat) = false ∧ (c = Instr.ldm n rs1 rs2 stop ∨ c = Instr.ldmW n rs1 rs2 stop ∨ c = Instr.stm n rs1 rs2 stop ∨ c = Instr.stmW n rs1 rs2 stop ∨ c = Instr.load n kind rs2 rs1 imm rvc ∨ c = Instr.store n sk rs1 rs2 imm rvc)) :=
  ⟨(2 : Fin 17), (5 : Fin 32), (6 : Fin 32), (Sys2Proof.LoadKind.lb : LoadKind), (Sys2Proof.StoreKind.sb : StoreKind), (0x000#12 : BitVec 12), (false : Bool), (none : Option (Fin 32)), (Sys2Proof.Instr.ldm 2 5 6 none : Instr), (s0 : State), (by decide +kernel), (by decide +kernel), (by decide +kernel)⟩

namespace C1
def cq (r5 r6 : Nat) (c : Core := {}) : State := { cores := [(2, { c with st := .run, mie := true, pc := 0x80#32, pend := [(77, some 9)], x := [(5, BitVec.ofNat 32 r5), (6, BitVec.ofNat 32 r6), (7, 0x104#32)] })], mem := [⟨ca, 0x85⟩, ⟨ca+1, 0x96⟩, ⟨ca+3, 0xA7⟩, ⟨ca + 10, 3⟩], codes := [(ca / 32, { wf := 3 })] }

theorem witness1 :
    (∃ (n : Fin 17) (rs1 : Fin 32) (rs2 : Fin 32) (load : Bool) (window : Bool) (s : State), s.dead = false ∧ s.coreGo (↑n : Nat) = true ∧ (window = true ∧ (s.core (↑n : Nat)).user = true ∨ bit (s.reg (↑n : Nat) (↑rs2 : Nat)) 0 = true ∨ load = true ∧ window = false ∧ (bit (s.reg (↑n : Nat) (↑rs2 : Nat)) (↑rs1 : Nat) = true ∨ bit (s.reg (↑n : Nat) (↑rs2 : Nat)) (↑rs2 : Nat) = true))) ∧
    (∃ (n : Fin 17) (rs1 : Fin 32) (rs2 : Fin 32) (load : Bool) (window : Bool) (s : State), s.dead = false ∧ s.coreGo (↑n : Nat) = true ∧ (¬(window = true ∧ (s.core (↑n : Nat)).user = true ∨ bit (s.reg (↑n : Nat) (↑rs2 : Nat)) 0 = true ∨ load = true ∧ window = false ∧ (bit (s.reg (↑n : Nat) (↑rs2 : Nat)) (↑rs1 : Nat) = true ∨ bit (s.reg (↑n : Nat) (↑rs2 : Nat)) (↑rs2 : Nat) = true))) ∧ BitVec.toNat (s.reg (↑n : Nat) (↑rs1 : Nat)) % 4 ≠ 0) ∧
    (∃ (n : Fin 17) (rs1 : Fin 32) (rs2 : Fin 32) (load : Bool) (window : Bool) (stop : Option (Fin 32)) (s : State) (u : State) (ok : Bool), s.dead = false ∧ s.coreGo (↑n : Nat) = true ∧ (¬(window = true ∧ (s.core (↑n : Nat)).user = true ∨ bit (s.reg (↑n : Nat) (↑rs2 : Nat)) 0 = true ∨ load = true ∧ window = false ∧ (bit (s.reg (↑n : Nat) (↑rs2 : Nat)) (↑rs1 : Nat) = true ∨ bit (s.reg (↑n : Nat) (↑rs2 : Nat)) (↑rs2 : Nat) = true))) ∧ BitVec.toNat (s.reg (↑n : Nat) (↑rs1 : Nat)) % 4 = 0 ∧ (¬∃ (k : Fin 32), stop = some k ∧ 0 < (↑k : Nat) ∧ (↑k : Nat) < (List.drop (if bit (s.bank (↑n : Nat) (s.curBank (↑n : Nat))).lsm 31 = true then fld (s.bank (↑n : Nat) (s.curBank (↑n : Nat))).lsm 0 5 else 0) (elements (s.reg (↑n : Nat) (↑rs2 : Nat)))).length ∧ (s.irq (↑n : Nat)).isSome = true) ∧ (State.transfer (↑n : Nat) (if window = true then (s.core (↑n : Nat)).bankwin else s.curBank (↑n : Nat)) (s.curBank (↑n : Nat)) load (BitVec.toNat (s.reg (↑n : Nat) (↑rs1 : Nat))) (List.drop (if bit (s.bank (↑n : Nat) (s.curBank (↑n : Nat))).lsm 31 = true then fld (s.bank (↑n : Nat) (s.curBank (↑n : Nat))).lsm 0 5 else 0) (elements (s.reg (↑n : Nat) (↑rs2 : Nat)))) s = (u, ok))) ∧
    (∃ (n : Fin 17) (rs1 : Fin 32) (rs2 : Fin 32) (load : Bool) (window : Bool) (s : State) (stop : Option (Fin 32)) (k : Fin 32), s.dead = false ∧ s.coreGo (↑n : Nat) = true ∧ (¬(window = true ∧ (s.core (↑n : Nat)).user = true ∨ bit (s.reg (↑n : Nat) (↑rs2 : Nat)) 0 = true ∨ load = true ∧ window = false ∧ (bit (s.reg (↑n : Nat) (↑rs2 : Nat)) (↑rs1 : Nat) = true ∨ bit (s.reg (↑n : Nat) (↑rs2 : Nat)) (↑rs2 : Nat) = true))) ∧ BitVec.toNat (s.reg (↑n : Nat) (↑rs1 : Nat)) % 4 = 0 ∧ (∃ (k : Fin 32), stop = some k ∧ 0 < (↑k : Nat) ∧ (↑k : Nat) < (List.drop (if bit (s.bank (↑n : Nat) (s.curBank (↑n : Nat))).lsm 31 = true then fld (s.bank (↑n : Nat) (s.curBank (↑n : Nat))).lsm 0 5 else 0) (elements (s.reg (↑n : Nat) (↑rs2 : Nat)))).length ∧ (s.irq (↑n : Nat)).isSome = true) ∧ stop = some k) :=
  ⟨⟨(2 : Fin 17), (5 : Fin 32), (5 : Fin 32), (false : Bool), (false : Bool), (cq 0x105 0x700 : State), (by decide +kernel), (by decide +kernel), (by decide +kernel)⟩,
   ⟨(2 : Fin 17), (5 : Fin 32), (6 : Fin 32), (false : Bool), (false : Bool), (cq 0x105 0x700 : State), (by decide +kernel), (by decide +kernel), (by decide +kernel), (by decide +kernel)⟩,
   ⟨(2 : Fin 17), (5 : Fin 32), (5 : Fin 32), (false : Bool), (false : Bool), (none : Option (Fin 32)), (cq 0x104 0x1E00 : State), _, _, (by decide +kernel), (by decide +kernel), (by decide +kernel), (by decide +kernel), (by decide +kernel), pairEta2 _⟩,
   ⟨(2 : Fin 17), (5 : Fin 32), (6 : Fin 32), (false : Bool), (false : Bool), (cq 0x104 0x1E00 : State), (some 2 : Option (Fin 32)), _, (by decide +kernel), (by decide +kernel), (by decide +kernel), (by decide +kernel), (by decide +kernel), someGet _ (by decide +kernel)⟩⟩

end C1

theorem witness2 :
    (∃ (n : Nat) (base : Nat) (j : Nat) (s : State) (u : State) (v : Nat), s.coreRead n ((base + 4 * j) % 2 ^ 32) 4 = (u, Except.ok v)) ∧
    (∃ (n : Nat) (base : Nat) (j : Nat) (s : State) (u : State) (p : Bool), s.coreRead n ((base + 4 * j) % 2 ^ 32) 4 = (u, Except.error p)) ∧
    (∃ (n : Nat) (bank : Nat) (base : Nat) (i : Nat) (j : Nat) (s : State) (u : State), s.coreWrite n ((base + 4 * j) % 2 ^ 32) 4 (BitVec.toNat (s.xr n bank i)) = (u, true)) ∧
    (∃ (n : Nat) (bank : Nat) (base : Nat) (i : Nat) (j : Nat) (s : State) (u : State), s.coreWrite n ((base + 4 * j) % 2 ^ 32) 4 (BitVec.toNat (s.xr n bank i)) = (u, false)) :=
  ⟨⟨(2 : Nat), (2 : Nat), (2 : Nat), (cm 0x104 0x300 : State), (((cm 0x104 0x300 : State)).coreRead ((2 : Nat)) ((((2 : Nat)) + 4 * ((2 : Nat))) % 2 ^ 32) 4).1, (okOf ((((cm 0x104 0x300 : State)).coreRead ((2 : Nat)) ((((2 : Nat)) + 4 * ((2 : Nat))) % 2 ^ 32) 4).2)).get (by all_goals decide +kernel), Prod.ext (by decide +kernel) (exEq (by decide +kernel))⟩,
   ⟨(2 : Nat), (2 : Nat), (536870912 : Nat), (cm 0x104 0x300 : State), _, (false : Bool), pairFst _ (exEq (by decide +kernel))⟩,
   ⟨(2 : Nat), (2 : Nat), (2 : Nat), (2 : Nat), (2 : Nat), (cm 0x104 0x300 : State), _, pairFst _ (by decide +kernel)⟩,
   ⟨(2 : Nat), (2 : Nat), (536870912 : Nat), (2 : Nat), (2 : Nat), (cm 0x104 0x300 : State), _, pairFst _ (by decide +kernel)⟩⟩

theorem witness3 :
    (∃ (n : Fin 17) (rs1 : Fin 32) (rs2 : Fin 32) (s : State), s.dead = false ∧ s.coreGo (↑n : Nat) = true ∧ bit (s.reg (↑n : Nat) (↑rs2 : Nat)) 0 = false ∧ bit (s.reg (↑n : Nat) (↑rs2 : Nat)) (↑rs1 : Nat) = false ∧ bit (s.reg (↑n : Nat) (↑rs2 : Nat)) (↑rs2 : Nat) = false ∧ BitVec.toNat (s.reg (↑n : Nat) (↑rs1 : Nat)) % 4 = 0 ∧ BitVec.toNat (s.reg (↑n : Nat) (↑rs1 : Nat)) + 128 ≤ localSize (↑n : Nat) ∧ bit (s.bank (↑n : Nat) (s.curBank (↑n : Nat))).lsm 31 = false ∧ (∀ (e : Nat × Nat), e ∈ elements (s.reg (↑n : Nat) (↑rs2 : Nat)) → (s.examine ((fun (j : Nat) => localBase (↑n : Nat) + BitVec.toNat (s.reg (↑n : Nat) (↑rs1 : Nat)) + 4 * j) e.snd / 32 * 32)).ue = false ∧ bytesPoisoned (s.examine ((fun (j : Nat) => localBase (↑n : Nat) + BitVec.toNat (s.reg (↑n : Nat) (↑rs1 : Nat)) + 4 * j) e.snd / 32 * 32)).data ((fun (j : Nat) => localBase (↑n : Nat) + BitVec.toNat (s.reg (↑n : Nat) (↑rs1 : Nat)) + 4 * j) e.snd % 32) 4 = false)) :=
  ⟨(2 : Fin 17), (5 : Fin 32), (5 : Fin 32), (cm 0x104 0x300 : State), (by decide +kernel), (by decide +kernel), (by decide +kernel), (by decide +kernel), (by decide +kernel), (by decide +kernel), (by decide +kernel), (by decide +kernel), (by decide +kernel)⟩

theorem witness4 :
    (∃ (n : Fin 17) (kind : LoadKind) (s : State), s.dead = false ∧ s.coreGo (↑n : Nat) = true ∧ (∀ (h : Bool), kind ≠ LoadKind.fetch h) ∧ kind = LoadKind.lr ∧ (↑n : Nat) = 16) ∧
    (∃ (n : Fin 17) (kind : LoadKind) (rs1 : Fin 32) (imm : BitVec 12) (s : State), s.dead = false ∧ s.coreGo (↑n : Nat) = true ∧ (∀ (h : Bool), kind ≠ LoadKind.fetch h) ∧ (¬(kind = LoadKind.lr ∧ (↑n : Nat) = 16)) ∧ ((BitVec.toNat (s.reg (↑n : Nat) (↑rs1 : Nat) + BitVec.signExtend 32 (if kind = LoadKind.lr then 0 else imm)) % match kind with | LoadKind.lb => 1 | LoadKind.lbu => 1 | LoadKind.lh => 2 | LoadKind.lhu => 2 | x => 4) ≠ 0)) ∧
    (∃ (n : Fin 17) (kind : LoadKind) (rs1 : Fin 32) (imm : BitVec 12) (s : State), s.dead = false ∧ s.coreGo (↑n : Nat) = true ∧ (∀ (h : Bool), kind ≠ LoadKind.fetch h) ∧ kind = LoadKind.lr ∧ (↑n : Nat) ≠ 16 ∧ ((BitVec.toNat (s.reg (↑n : Nat) (↑rs1 : Nat) + BitVec.signExtend 32 (if kind = LoadKind.lr then 0 else imm)) % match kind with | LoadKind.lb => 1 | LoadKind.lbu => 1 | LoadKind.lh => 2 | LoadKind.lhu => 2 | x => 4) = 0) ∧ (localSize (↑n : Nat) ≤ BitVec.toNat (s.reg (↑n : Nat) (↑rs1 : Nat) + BitVec.signExtend 32 (if kind = LoadKind.lr then 0 else imm)))) ∧
    (∃ (n : Fin 17) (kind : LoadKind) (rs1 : Fin 32) (imm : BitVec 12) (s : State) (u : State) (p : Bool), s.dead = false ∧ s.coreGo (↑n : Nat) = true ∧ (∀ (h : Bool), kind ≠ LoadKind.fetch h) ∧ (¬(kind = LoadKind.lr ∧ ((↑n : Nat) = 16 ∨ localSize (↑n : Nat) ≤ BitVec.toNat (s.reg (↑n : Nat) (↑rs1 : Nat) + BitVec.signExtend 32 (if kind = LoadKind.lr then 0 else imm))))) ∧ ((BitVec.toNat (s.reg (↑n : Nat) (↑rs1 : Nat) + BitVec.signExtend 32 (if kind = LoadKind.lr then 0 else imm)) % match kind with | LoadKind.lb => 1 | LoadKind.lbu => 1 | LoadKind.lh => 2 | LoadKind.lhu => 2 | x => 4) = 0) ∧ (s.coreRead (↑n : Nat) (BitVec.toNat (s.reg (↑n : Nat) (↑rs1 : Nat) + BitVec.signExtend 32 (if kind = LoadKind.lr then 0 else imm))) (match kind with | LoadKind.lb => 1 | LoadKind.lbu => 1 | LoadKind.lh => 2 | LoadKind.lhu => 2 | x => 4) = (u, Except.error p))) ∧
    (∃ (n : Fin 17) (kind : LoadKind) (rs1 : Fin 32) (imm : BitVec 12) (s : State) (u : State) (v : Nat), s.dead = false ∧ s.coreGo (↑n : Nat) = true ∧ (∀ (h : Bool), kind ≠ LoadKind.fetch h) ∧ (¬(kind = LoadKind.lr ∧ ((↑n : Nat) = 16 ∨ localSize (↑n : Nat) ≤ BitVec.toNat (s.reg (↑n : Nat) (↑rs1 : Nat) + BitVec.signExtend 32 (if kind = LoadKind.lr then 0 else imm))))) ∧ ((BitVec.toNat (s.reg (↑n : Nat) (↑rs1 : Nat) + BitVec.signExtend 32 (if kind = LoadKind.lr then 0 else imm)) % match kind with | LoadKind.lb => 1 | LoadKind.lbu => 1 | LoadKind.lh => 2 | LoadKind.lhu => 2 | x => 4) = 0) ∧ (s.coreRead (↑n : Nat) (BitVec.toNat (s.reg (↑n : Nat) (↑rs1 : Nat) + BitVec.signExtend 32 (if kind = LoadKind.lr then 0 else imm))) (match kind with | LoadKind.lb => 1 | LoadKind.lbu => 1 | LoadKind.lh => 2 | LoadKind.lhu => 2 | x => 4) = (u, Except.ok v))) :=
  ⟨⟨(16 : Fin 17), _, (cm 0x104 0x300 : State), (by decide +kernel), (by decide +kernel), (by decide +kernel), rfl, (by decide +kernel)⟩,
   ⟨(2 : Fin 17), (Sys2Proof.LoadKind.lh : LoadKind), (5 : Fin 32), (0x000#12 : BitVec 12), (cm 0x105 0x12345678 { bankwin := 3 } : State), (by decide +kernel), (by decide +kernel), (by decide +kernel), (by decide +kernel), (by decide +kernel)⟩,
   ⟨(2 : Fin 17), _, (6 : Fin 32), (0x000#12 : BitVec 12), (cm 0x104 0xFFFFFFF0 { resv := some ((localBase 2 + 0x104) / 32), stores := [0x44#32, 0x50#32] } : State), (by decide +kernel), (by decide +kernel), (by decide +kernel), rfl, (by decide +kernel), (by decide +kernel), (by decide +kernel)⟩,
   ⟨(2 : Fin 17), (Sys2Proof.LoadKind.lb : LoadKind), (6 : Fin 32), (0x000#12 : BitVec 12), (cm 0x104 0xFFFFFFF0 { resv := some ((localBase 2 + 0x104) / 32), stores := [0x44#32, 0x50#32] } : State), _, (false : Bool), (by decide +kernel), (by decide +kernel), (by decide +kernel), (by decide +kernel), (by decide +kernel), pairFst _ (exEq (by decide +kernel))⟩,
   ⟨(2 : Fin 17), (Sys2Proof.LoadKind.lb : LoadKind), (5 : Fin 32), (0x000#12 : BitVec 12), (cm 0x104 0x300 : State), (((cm 0x104 0x300 : State)).coreRead (↑((2 : Fin 17)) : Nat) (BitVec.toNat (((cm 0x104 0x300 : State)).reg (↑((2 : Fin 17)) : Nat) (↑((5 : Fin 32)) : Nat) + BitVec.signExtend 32 (if ((Sys2Proof.LoadKind.lb : LoadKind)) = LoadKind.lr then 0 else ((0x000#12 : BitVec 12))))) (match ((Sys2Proof.LoadKind.lb : LoadKind)) with | LoadKind.lb => 1 | LoadKind.lbu => 1 | LoadKind.lh => 2 | LoadKind.lhu => 2 | x => 4)).1, (okOf ((((cm 0x104 0x300 : State)).coreRead (↑((2 : Fin 17)) : Nat) (BitVec.toNat (((cm 0x104 0x300 : State)).reg (↑((2 : Fin 17)) : Nat) (↑((5 : Fin 32)) : Nat) + BitVec.signExtend 32 (if ((Sys2Proof.LoadKind.lb : LoadKind)) = LoadKind.lr then 0 else ((0x000#12 : BitVec 12))))) (match ((Sys2Proof.LoadKind.lb : LoadKind)) with | LoadKind.lb => 1 | LoadKind.lbu => 1 | LoadKind.lh => 2 | LoadKind.lhu => 2 | x => 4)).2)).get (by all_goals decide +kernel), (by decide +kernel), (by decide +kernel), (by decide +kernel), (by decide +kernel), (by decide +kernel), Prod.ext (by decide +kernel) (exEq (by decide +kernel))⟩⟩

namespace C5
def fe (l : List Nat) (pc : Word32 := 0x80#32) : State := { cores := [(2, { st := .run, pc := pc, x := [(5, 0x104#32)] })], codes := [((localBase 2 + 0x80)/32, { wf := 3 }), ((localBase 2 + 0x1FFFE0)/32, { wf := 3 })], mem := (l.mapIdx fun i b => ⟨localBase 2 + 0x80 + i, BitVec.ofNat 8 b⟩).filter (fun c => c.2 ≠ 0) }

theorem witness5 :
    (∃ (n : Fin 17) (s : State) (u : State) (p : Bool), s.dead = false ∧ s.coreGo (↑n : Nat) = true ∧ s.coreRead (↑n : Nat) (BitVec.toNat (s.core (↑n : Nat)).pc) 2 = (u, Except.error p)) ∧
    (∃ (n : Fin 17) (half : Bool) (s : State) (u : State) (v : Nat), s.dead = false ∧ s.coreGo (↑n : Nat) = true ∧ half = true ∧ s.coreRead (↑n : Nat) (BitVec.toNat (s.core (↑n : Nat)).pc) 2 = (u, Except.ok v)) ∧
    (∃ (n : Fin 17) (half : Bool) (s : State) (u : State) (v : Nat) (w : State) (p : Bool), s.dead = false ∧ s.coreGo (↑n : Nat) = true ∧ half = false ∧ s.coreRead (↑n : Nat) (BitVec.toNat (s.core (↑n : Nat)).pc) 2 = (u, Except.ok v) ∧ u.coreRead (↑n : Nat) (BitVec.toNat ((s.core (↑n : Nat)).pc + 2#32)) 2 = (w, Except.error p)) ∧
    (∃ (n : Fin 17) (half : Bool) (s : State) (u : State) (v : Nat) (w : State) (x : Nat), s.dead = false ∧ s.coreGo (↑n : Nat) = true ∧ half = false ∧ s.coreRead (↑n : Nat) (BitVec.toNat (s.core (↑n : Nat)).pc) 2 = (u, Except.ok v) ∧ u.coreRead (↑n : Nat) (BitVec.toNat ((s.core (↑n : Nat)).pc + 2#32)) 2 = (w, Except.ok x) ∧ (x * 2 ^ 16 + v) % 128 ≠ 11 ∧ (x * 2 ^ 16 + v) % 128 ≠ 43) ∧
    (∃ (n : Fin 17) (half : Bool) (s : State) (u : State) (v : Nat) (w : State) (x : Nat), s.dead = false ∧ s.coreGo (↑n : Nat) = true ∧ half = false ∧ s.coreRead (↑n : Nat) (BitVec.toNat (s.core (↑n : Nat)).pc) 2 = (u, Except.ok v) ∧ u.coreRead (↑n : Nat) (BitVec.toNat ((s.core (↑n : Nat)).pc + 2#32)) 2 = (w, Except.ok x) ∧ ((x * 2 ^ 16 + v) % 128 = 11 ∨ (x * 2 ^ 16 + v) % 128 = 43) ∧ xtzDecode (x * 2 ^ 16 + v) = none) ∧
    (∃ (n : Fin 17) (half : Bool) (s : State) (u : State) (v : Nat) (w : State) (x : Nat) (y : Xtz), s.dead = false ∧ s.coreGo (↑n : Nat) = true ∧ half = false ∧ s.coreRead (↑n : Nat) (BitVec.toNat (s.core (↑n : Nat)).pc) 2 = (u, Except.ok v) ∧ u.coreRead (↑n : Nat) (BitVec.toNat ((s.core (↑n : Nat)).pc + 2#32)) 2 = (w, Except.ok x) ∧ xtzDecode (x * 2 ^ 16 + v) = some y) :=
  ⟨⟨(2 : Fin 17), (fe [] 0x30000000 : State), _, (false : Bool), (by decide +kernel), (by decide +kernel), pairFst _ (exEq (by decide +kernel))⟩,
   ⟨(2 : Fin 17), _, (fe [0x0B,0x10,0xA1,0x00] : State), (((fe [0x0B,0x10,0xA1,0x00] : State)).coreRead (↑((2 : Fin 17)) : Nat) (BitVec.toNat (((fe [0x0B,0x10,0xA1,0x00] : State)).core (↑((2 : Fin 17)) : Nat)).pc) 2).1, (okOf ((((fe [0x0B,0x10,0xA1,0x00] : State)).coreRead (↑((2 : Fin 17)) : Nat) (BitVec.toNat (((fe [0x0B,0x10,0xA1,0x00] : State)).core (↑((2 : Fin 17)) : Nat)).pc) 2).2)).get (by all_goals decide +kernel), (by decide +kernel), (by decide +kernel), rfl, Prod.ext (by decide +kernel) (exEq (by decide +kernel))⟩,
   ⟨(2 : Fin 17), _, (fe [] (BitVec.ofNat 32 (localSize 2 - 2)) : State), (((fe [] (BitVec.ofNat 32 (localSize 2 - 2)) : State)).coreRead (↑((2 : Fin 17)) : Nat) (BitVec.toNat (((fe [] (BitVec.ofNat 32 (localSize 2 - 2)) : State)).core (↑((2 : Fin 17)) : Nat)).pc) 2).1, (okOf ((((fe [] (BitVec.ofNat 32 (localSize 2 - 2)) : State)).coreRead (↑((2 : Fin 17)) : Nat) (BitVec.toNat (((fe [] (BitVec.ofNat 32 (localSize 2 - 2)) : State)).core (↑((2 : Fin 17)) : Nat)).pc) 2).2)).get (by all_goals decide +kernel), _, (false : Bool), (by decide +kernel), (by decide +kernel), rfl, Prod.ext (by decide +kernel) (exEq (by decide +kernel)), pairFst _ (exEq (by decide +kernel))⟩,
   ⟨(2 : Fin 17), _, (fe [0x13] : State), (((fe [0x13] : State)).coreRead (↑((2 : Fin 17)) : Nat) (BitVec.toNat (((fe [0x13] : State)).core (↑((2 : Fin 17)) : Nat)).pc) 2).1, (okOf ((((fe [0x13] : State)).coreRead (↑((2 : Fin 17)) : Nat) (BitVec.toNat (((fe [0x13] : State)).core (↑((2 : Fin 17)) : Nat)).pc) 2).2)).get (by all_goals decide +kernel), (((((fe [0x13] : State)).coreRead (↑((2 : Fin 17)) : Nat) (BitVec.toNat (((fe [0x13] : State)).core (↑((2 : Fin 17)) : Nat)).pc) 2).1).coreRead (↑((2 : Fin 17)) : Nat) (BitVec.toNat ((((fe [0x13] : State)).core (↑((2 : Fin 17)) : Nat)).pc + 2#32)) 2).1, (okOf ((((((fe [0x13] : State)).coreRead (↑((2 : Fin 17)) : Nat) (BitVec.toNat (((fe [0x13] : State)).core (↑((2 : Fin 17)) : Nat)).pc) 2).1).coreRead (↑((2 : Fin 17)) : Nat) (BitVec.toNat ((((fe [0x13] : State)).core (↑((2 : Fin 17)) : Nat)).pc + 2#32)) 2).2)).get (by all_goals decide +kernel), (by decide +kernel), (by decide +kernel), rfl, Prod.ext (by decide +kernel) (exEq (by decide +kernel)), Prod.ext (by decide +kernel) (exEq (by decide +kernel)), (by decide +kernel), (by decide +kernel)⟩,
   ⟨(2 : Fin 17), _, (fe [0x0B, 0xF0, 0xFF, 0xFF] : State), (((fe [0x0B, 0xF0, 0xFF, 0xFF] : State)).coreRead (↑((2 : Fin 17)) : Nat) (BitVec.toNat (((fe [0x0B, 0xF0, 0xFF, 0xFF] : State)).core (↑((2 : Fin 17)) : Nat)).pc) 2).1, (okOf ((((fe [0x0B, 0xF0, 0xFF, 0xFF] : State)).coreRead (↑((2 : Fin 17)) : Nat) (BitVec.toNat (((fe [0x0B, 0xF0, 0xFF, 0xFF] : State)).core (↑((2 : Fin 17)) : Nat)).pc) 2).2)).get (by all_goals decide +kernel), (((((fe [0x0B, 0xF0, 0xFF, 0xFF] : State)).coreRead (↑((2 : Fin 17)) : Nat) (BitVec.toNat (((fe [0x0B, 0xF0, 0xFF, 0xFF] : State)).core (↑((2 : Fin 17)) : Nat)).pc) 2).1).coreRead (↑((2 : Fin 17)) : Nat) (BitVec.toNat ((((fe [0x0B, 0xF0, 0xFF, 0xFF] : State)).core (↑((2 : Fin 17)) : Nat)).pc + 2#32)) 2).1, (okOf ((((((fe [0x0B, 0xF0, 0xFF, 0xFF] : State)).coreRead (↑((2 : Fin 17)) : Nat) (BitVec.toNat (((fe [0x0B, 0xF0, 0xFF, 0xFF] : State)).core (↑((2 : Fin 17)) : Nat)).pc) 2).1).coreRead (↑((2 : Fin 17)) : Nat) (BitVec.toNat ((((fe [0x0B, 0xF0, 0xFF, 0xFF] : State)).core (↑((2 : Fin 17)) : Nat)).pc + 2#32)) 2).2)).get (by all_goals decide +kernel), (by decide +kernel), (by decide +kernel), rfl, Prod.ext (by decide +kernel) (exEq (by decide +kernel)), Prod.ext (by decide +kernel) (exEq (by decide +kernel)), (by decide +kernel), (by decide +kernel)⟩,
   ⟨(2 : Fin 17), _, (fe [0x0B,0x10,0xA1,0x00] : State), (((fe [0x0B,0x10,0xA1,0x00] : State)).coreRead (↑((2 : Fin 17)) : Nat) (BitVec.toNat (((fe [0x0B,0x10,0xA1,0x00] : State)).core (↑((2 : Fin 17)) : Nat)).pc) 2).1, (okOf ((((fe [0x0B,0x10,0xA1,0x00] : State)).coreRead (↑((2 : Fin 17)) : Nat) (BitVec.toNat (((fe [0x0B,0x10,0xA1,0x00] : State)).core (↑((2 : Fin 17)) : Nat)).pc) 2).2)).get (by all_goals decide +kernel), (((((fe [0x0B,0x10,0xA1,0x00] : State)).coreRead (↑((2 : Fin 17)) : Nat) (BitVec.toNat (((fe [0x0B,0x10,0xA1,0x00] : State)).core (↑((2 : Fin 17)) : Nat)).pc) 2).1).coreRead (↑((2 : Fin 17)) : Nat) (BitVec.toNat ((((fe [0x0B,0x10,0xA1,0x00] : State)).core (↑((2 : Fin 17)) : Nat)).pc + 2#32)) 2).1, (okOf ((((((fe [0x0B,0x10,0xA1,0x00] : State)).coreRead (↑((2 : Fin 17)) : Nat) (BitVec.toNat (((fe [0x0B,0x10,0xA1,0x00] : State)).core (↑((2 : Fin 17)) : Nat)).pc) 2).1).coreRead (↑((2 : Fin 17)) : Nat) (BitVec.toNat ((((fe [0x0B,0x10,0xA1,0x00] : State)).core (↑((2 : Fin 17)) : Nat)).pc + 2#32)) 2).2)).get (by all_goals decide +kernel), _, (by decide +kernel), (by decide +kernel), rfl, Prod.ext (by decide +kernel) (exEq (by decide +kernel)), Prod.ext (by decide +kernel) (exEq (by decide +kernel)), someGet _ (by decide +kernel)⟩⟩

end C5

theorem witness6 :
    (∃ (s : State), s.dead = false) :=
  ⟨(s0 : State), (by decide +kernel)⟩

theorem witness7 :
    (∃ (n : Fin 17) (a : Nat) (size : Nat), size ∈ [1, 2, 4] ∧ a < localSize (↑n : Nat)) ∧
    (∃ (a : Nat) (size : Nat), size ∈ [1, 2, 4] ∧ 1073741824 ≤ a ∧ a < 2147483648) ∧
    (∃ (a : Nat) (size : Nat), size ∈ [1, 2, 4] ∧ 2147483648 ≤ a ∧ a < 3221225472) ∧
    (∃ (a : Nat) (size : Nat), size ∈ [1, 2, 4] ∧ 3221225472 ≤ a ∧ a < 3489660928) ∧
    (∃ (n : Fin 17) (a : Nat) (size : Nat), size ∈ [1, 2, 4] ∧ (localSize (↑n : Nat) ≤ a ∧ a < 1073741824 ∨ 3489660928 ≤ a ∧ ((↑n : Nat) ≠ 16 ∨ a < 3758096384 ∨ 3758100480 ≤ a))) :=
  ⟨⟨(2 : Fin 17), (0 : Nat), (1 : Nat), (by decide +kernel), (by decide +kernel)⟩,
   ⟨(1073741824 : Nat), (1 : Nat), (by decide +kernel), (by decide +kernel), (by decide +kernel)⟩,
   ⟨(2147483653 : Nat), (1 : Nat), (by decide +kernel), (by decide +kernel), (by decide +kernel)⟩,
   ⟨(3221225488 : Nat), (1 : Nat), (by decide +kernel), (by decide +kernel), (by decide +kernel)⟩,
   ⟨(2 : Fin 17), (2097148 : Nat), (1 : Nat), (by decide +kernel), (by decide +kernel)⟩⟩

theorem witness8 :
    (∃ (n : Fin 17) (kind : StoreKind) (size : Nat) (rs1 : Fin 32) (imm : BitVec 12) (s : State), s.dead = false ∧ s.coreGo (↑n : Nat) = true ∧ (kind = StoreKind.sb ∧ size = 1 ∨ kind = StoreKind.sh ∧ size = 2 ∨ kind = StoreKind.sw ∧ size = 4) ∧ BitVec.toNat (s.reg (↑n : Nat) (↑rs1 : Nat) + BitVec.signExtend 32 imm) % size ≠ 0) ∧
    (∃ (n : Fin 17) (kind : StoreKind) (size : Nat) (rs1 : Fin 32) (rs2 : Fin 32) (imm : BitVec 12) (s : State) (u : State), s.dead = false ∧ s.coreGo (↑n : Nat) = true ∧ (kind = StoreKind.sb ∧ size = 1 ∨ kind = StoreKind.sh ∧ size = 2 ∨ kind = StoreKind.sw ∧ size = 4) ∧ BitVec.toNat (s.reg (↑n : Nat) (↑rs1 : Nat) + BitVec.signExtend 32 imm) % size = 0 ∧ s.coreWrite (↑n : Nat) (BitVec.toNat (s.reg (↑n : Nat) (↑rs1 : Nat) + BitVec.signExtend 32 imm)) size (BitVec.toNat (s.reg (↑n : Nat) (↑rs2 : Nat))) = (u, true)) ∧
    (∃ (n : Fin 17) (kind : StoreKind) (size : Nat) (rs1 : Fin 32) (rs2 : Fin 32) (imm : BitVec 12) (s : State) (u : State), s.dead = false ∧ s.coreGo (↑n : Nat) = true ∧ (kind = StoreKind.sb ∧ size = 1 ∨ kind = StoreKind.sh ∧ size = 2 ∨ kind = StoreKind.sw ∧ size = 4) ∧ BitVec.toNat (s.reg (↑n : Nat) (↑rs1 : Nat) + BitVec.signExtend 32 imm) % size = 0 ∧ s.coreWrite (↑n : Nat) (BitVec.toNat (s.reg (↑n : Nat) (↑rs1 : Nat) + BitVec.signExtend 32 imm)) size (BitVec.toNat (s.reg (↑n : Nat) (↑rs2 : Nat))) = (u, false)) :=
  ⟨⟨(2 : Fin 17), (Sys2Proof.StoreKind.sh : StoreKind), (2 : Nat), (5 : Fin 32), (0x000#12 : BitVec 12), (cm 0x105 0x12345678 { bankwin := 3 } : State), (by decide +kernel), (by decide +kernel), (by decide +kernel), (by decide +kernel)⟩,
   ⟨(2 : Fin 17), (Sys2Proof.StoreKind.sb : StoreKind), (1 : Nat), (5 : Fin 32), (5 : Fin 32), (0x000#12 : BitVec 12), (cm 0x104 0x300 : State), _, (by decide +kernel), (by decide +kernel), (by decide +kernel), (by decide +kernel), pairFst _ (by decide +kernel)⟩,
   ⟨(2 : Fin 17), (Sys2Proof.StoreKind.sb : StoreKind), (1 : Nat), (6 : Fin 32), (5 : Fin 32), (0x000#12 : BitVec 12), (cm 0x104 0xFFFFFFF0 { resv := some ((localBase 2 + 0x104) / 32), stores := [0x44#32, 0x50#32] } : State), _, (by decide +kernel), (by decide +kernel), (by decide +kernel), (by decide +kernel), pairFst _ (by decide +kernel)⟩⟩

theorem witness9 :
    (∃ (n : Fin 17) (a : Nat) (size : Nat), a < localSize (↑n : Nat) ∧ a % size = 0 ∧ (size = 1 ∨ size = 2 ∨ size = 4)) :=
  ⟨(2 : Fin 17), (1 : Nat), (1 : Nat), (by decide +kernel), (by decide +kernel), (by decide +kernel)⟩

theorem witness10 :
    (∃ (n : Fin 17) (kind : StoreKind) (rd : Fin 32) (op : AmoOp) (s : State), s.dead = false ∧ s.coreGo (↑n : Nat) = true ∧ (kind = StoreKind.sc rd ∨ kind = StoreKind.amo op rd) ∧ (↑n : Nat) = 16) ∧
    (∃ (n : Fin 17) (kind : StoreKind) (rs1 : Fin 32) (rd : Fin 32) (op : AmoOp) (s : State), s.dead = false ∧ s.coreGo (↑n : Nat) = true ∧ (kind = StoreKind.sc rd ∨ kind = StoreKind.amo op rd) ∧ (↑n : Nat) ≠ 16 ∧ BitVec.toNat (s.reg (↑n : Nat) (↑rs1 : Nat)) % 4 ≠ 0) ∧
    (∃ (n : Fin 17) (kind : StoreKind) (rs1 : Fin 32) (rd : Fin 32) (op : AmoOp) (s : State), s.dead = false ∧ s.coreGo (↑n : Nat) = true ∧ (kind = StoreKind.sc rd ∨ kind = StoreKind.amo op rd) ∧ (↑n : Nat) ≠ 16 ∧ BitVec.toNat (s.reg (↑n : Nat) (↑rs1 : Nat)) % 4 = 0 ∧ localSize (↑n : Nat) ≤ BitVec.toNat (s.reg (↑n : Nat) (↑rs1 : Nat))) ∧
    (∃ (n : Fin 17) (rs1 : Fin 32) (rd : Fin 32) (op : AmoOp) (s : State) (kind : StoreKind), s.dead = false ∧ s.coreGo (↑n : Nat) = true ∧ (kind = StoreKind.sc rd ∨ kind = StoreKind.amo op rd) ∧ (↑n : Nat) ≠ 16 ∧ BitVec.toNat (s.reg (↑n : Nat) (↑rs1 : Nat)) % 4 = 0 ∧ BitVec.toNat (s.reg (↑n : Nat) (↑rs1 : Nat)) < localSize (↑n : Nat) ∧ kind = StoreKind.sc rd) ∧
    (∃ (n : Fin 17) (rs1 : Fin 32) (rd : Fin 32) (op : AmoOp) (s : State) (w : State) (p : Bool) (kind : StoreKind), s.dead = false ∧ s.coreGo (↑n : Nat) = true ∧ (↑n : Nat) ≠ 16 ∧ BitVec.toNat (s.reg (↑n : Nat) (↑rs1 : Nat)) % 4 = 0 ∧ BitVec.toNat (s.reg (↑n : Nat) (↑rs1 : Nat)) < localSize (↑n : Nat) ∧ kind = StoreKind.amo op rd ∧ (kind = StoreKind.sc rd ∨ kind = StoreKind.amo op rd) ∧ s.coreRead (↑n : Nat) (BitVec.toNat (s.reg (↑n : Nat) (↑rs1 : Nat))) 4 = (w, Except.error p)) ∧
    (∃ (n : Fin 17) (rs1 : Fin 32) (rd : Fin 32) (op : AmoOp) (s : State) (w : State) (v : Nat) (kind : StoreKind), s.dead = false ∧ s.coreGo (↑n : Nat) = true ∧ (↑n : Nat) ≠ 16 ∧ BitVec.toNat (s.reg (↑n : Nat) (↑rs1 : Nat)) % 4 = 0 ∧ BitVec.toNat (s.reg (↑n : Nat) (↑rs1 : Nat)) < localSize (↑n : Nat) ∧ kind = StoreKind.amo op rd ∧ (kind = StoreKind.sc rd ∨ kind = StoreKind.amo op rd) ∧ s.coreRead (↑n : Nat) (BitVec.toNat (s.reg (↑n : Nat) (↑rs1 : Nat))) 4 = (w, Except.ok v)) :=
  ⟨⟨(16 : Fin 17), (Sys2Proof.StoreKind.sc 5 : StoreKind), (5 : Fin 32), (Sys2Proof.AmoOp.swap : AmoOp), (cm 0x104 0x300 : State), (by decide +kernel), (by decide +kernel), (by decide +kernel), (by decide +kernel)⟩,
   ⟨(2 : Fin 17), (Sys2Proof.StoreKind.sc 5 : StoreKind), (5 : Fin 32), (5 : Fin 32), (Sys2Proof.AmoOp.swap : AmoOp), (cm 0x105 0x12345678 { bankwin := 3 } : State), (by decide +kernel), (by decide +kernel), (by decide +kernel), (by decide +kernel), (by decide +kernel)⟩,
   ⟨(2 : Fin 17), (Sys2Proof.StoreKind.sc 5 : StoreKind), (6 : Fin 32), (5 : Fin 32), (Sys2Proof.AmoOp.swap : AmoOp), (cm 0x104 0xFFFFFFF0 { resv := some ((localBase 2 + 0x104) / 32), stores := [0x44#32, 0x50#32] } : State), (by decide +kernel), (by decide +kernel), (by decide +kernel), (by decide +kernel), (by decide +kernel), (by decide +kernel)⟩,
   ⟨(2 : Fin 17), (5 : Fin 32), (5 : Fin 32), (Sys2Proof.AmoOp.swap : AmoOp), (cm 0x104 0x300 : State), _, (by decide +kernel), (by decide +kernel), (by decide +kernel), (by decide +kernel), (by decide +kernel), (by decide +kernel), rfl⟩,
   ⟨(2 : Fin 17), (5 : Fin 32), (5 : Fin 32), (Sys2Proof.AmoOp.swap : AmoOp), ({ cm 0x104 0x300 with codes := [(ca / 32, { wf := 3, err := 7 })] } : State), _, (true : Bool), _, (by decide +kernel), (by decide +kernel), (by decide +kernel), (by decide +kernel), (by decide +kernel), rfl, (by decide +kernel), pairFst _ (exEq (by decide +kernel))⟩,
   ⟨(2 : Fin 17), (5 : Fin 32), (5 : Fin 32), (Sys2Proof.AmoOp.swap : AmoOp), (cm 0x104 0x300 : State), (((cm 0x104 0x300 : State)).coreRead (↑((2 : Fin 17)) : Nat) (BitVec.toNat (((cm 0x104 0x300 : State)).reg (↑((2 : Fin 17)) : Nat) (↑((5 : Fin 32)) : Nat))) 4).1, (okOf ((((cm 0x104 0x300 : State)).coreRead (↑((2 : Fin 17)) : Nat) (BitVec.toNat (((cm 0x104 0x300 : State)).reg (↑((2 : Fin 17)) : Nat) (↑((5 : Fin 32)) : Nat))) 4).2)).get (by all_goals decide +kernel), _, (by decide +kernel), (by decide +kernel), (by decide +kernel), (by decide +kernel), (by decide +kernel), rfl, (by decide +kernel), Prod.ext (by decide +kernel) (exEq (by decide +kernel))⟩⟩

theorem witness12 :
    (∃ (n : Fin 17) (s : State), s.dead = false ∧ (s.core (↑n : Nat)).stores = []) ∧
    (∃ (n : Fin 17) (s : State) (a : Word32) (l : List Word32), s.dead = false ∧ (s.core (↑n : Nat)).stores = a :: l ∧ (↑n : Nat) < 16) ∧
    (∃ (n : Fin 17) (s : State) (a : Word32) (l : List Word32), s.dead = false ∧ (s.core (↑n : Nat)).stores = a :: l ∧ (↑n : Nat) = 16) :=
  ⟨⟨(2 : Fin 17), (s0 : State), (by decide +kernel), (by decide +kernel)⟩,
   ⟨(2 : Fin 17), (cm 0x104 0xFFFFFFF0 { resv := some ((localBase 2 + 0x104) / 32), stores := [0x44#32, 0x50#32] } : State), ((((cm 0x104 0xFFFFFFF0 { resv := some ((localBase 2 + 0x104) / 32), stores := [0x44#32, 0x50#32] } : State)).core (↑((2 : Fin 17)) : Nat)).stores).head (by all_goals decide +kernel), ((((cm 0x104 0xFFFFFFF0 { resv := some ((localBase 2 + 0x104) / 32), stores := [0x44#32, 0x50#32] } : State)).core (↑((2 : Fin 17)) : Nat)).stores).tail, (by decide +kernel), (by decide +kernel), (by decide +kernel)⟩,
   ⟨(16 : Fin 17), (cm 0x104 0x300 : State), ((((cm 0x104 0x300 : State)).core (↑((16 : Fin 17)) : Nat)).stores).head (by all_goals decide +kernel), ((((cm 0x104 0x300 : State)).core (↑((16 : Fin 17)) : Nat)).stores).tail, (by decide +kernel), (by decide +kernel), (by decide +kernel)⟩⟩

end CoreMemoryInstructionsRun

/-! Witnesses of `Obligations.CoreRegisterInstructionsRun`. -/
namespace CoreRegisterInstructionsRun

def cm (r5 r6 : Nat) (c : Core := {}) (b : Map Bank := []) : State := { cores := [(2, { c with st := .run, pc := 0x80#32, x := [(5, BitVec.ofNat 32 r5), (6, BitVec.ofNat 32 r6)], banks := b }), (16, { c with st := .run, pc := 0x82#32, x := [(5, BitVec.ofNat 32 r5), (6, BitVec.ofNat 32 r6)] })], regs := [(schBase, 1#32)], sched := { tasks := [(5, some { st := .idle, prio := 3 })] } }
def ca : Nat := localBase 2 + 0x100
def lm (s : State) : State := { s with mem := [⟨ca, 5⟩], codes := (List.range 6).map fun i => (ca / 32 + i, { wf := 3 }) }

theorem witness0 :
    (∃ (n : Fin 17) (rd : Fin 32) (rs1 : Fin 32) (rs2 : Fin 32) (f : BitVec 12) (op : SysOp) (fp : FpOp) (rvc : Bool) (c : Instr) (s : State), s.dead = false ∧ s.coreGo (↑n : Nat) = false ∧ (c = Instr.bankrd n rd rs1 ∨ c = Instr.bankwr n rs2 rs1 ∨ c = Instr.coreTake n rd ∨ c = Instr.coreReady n rd rs1 ∨ c = Instr.coreDelay n rd rs1 rs2 ∨ c = Instr.coreCancel n rd rs1 ∨ c = Instr.xraise n f op ∨ c = Instr.fpInstruction n fp rvc)) :=
  ⟨(2 : Fin 17), (0 : Fin 32), (0 : Fin 32), (0 : Fin 32), (0x000#12 : BitVec 12), (Sys2Proof.SysOp.ecall : SysOp), (Sys2Proof.FpOp.flw 3 5 0x004#12 : FpOp), (false : Bool), (Sys2Proof.Instr.xraise 2 0x000#12 (Sys2Proof.SysOp.ecall) : Instr), (s0 : State), (by decide +kernel), (by decide +kernel), (by decide +kernel)⟩

theorem witness1 :
    (∃ (n : Fin 17) (s : State), s.dead = false ∧ s.coreGo (↑n : Nat) = true ∧ (s.core (↑n : Nat)).user = true) ∧
    (∃ (n : Fin 17) (s : State), s.dead = false ∧ s.coreGo (↑n : Nat) = true ∧ (s.core (↑n : Nat)).user = false) :=
  ⟨⟨(2 : Fin 17), (cm 0x104 5 { fs := 3, bankwin := 4, fcsr := 3, user := true, stores := [0x44#32] } : State), (by decide +kernel), (by decide +kernel), (by decide +kernel)⟩,
   ⟨(2 : Fin 17), (cm 5 100 : State), (by decide +kernel), (by decide +kernel), (by decide +kernel)⟩⟩

theorem witness2 :
    (∃ (i : Nat), i = 0) ∧
    (∃ (i : Nat) (k : Nat), k < 32 ∧ i < 32 ∧ i ≠ 0) :=
  ⟨⟨_, rfl⟩,
   ⟨(1 : Nat), (0 : Nat), (by decide +kernel), (by decide +kernel), (by decide +kernel)⟩⟩

theorem witness3 :
    (∃ (n : Fin 17) (rd : Fin 32) (s : State), s.dead = false ∧ s.coreGo (↑n : Nat) = true ∧ ((↑n : Nat) = 16 ∨ (↑rd : Nat) = 0)) ∧
    (∃ (n : Fin 17) (rd : Fin 32) (s : State), s.dead = false ∧ s.coreGo (↑n : Nat) = true ∧ (↑n : Nat) < 16 ∧ (↑rd : Nat) ≠ 0) :=
  ⟨⟨(2 : Fin 17), (0 : Fin 32), (cm 5 100 : State), (by decide +kernel), (by decide +kernel), (by decide +kernel)⟩,
   ⟨(2 : Fin 17), (5 : Fin 32), (cm 5 100 : State), (by decide +kernel), (by decide +kernel), (by decide +kernel), (by decide +kernel)⟩⟩

namespace C4
def sX : State := cm 5 100

theorem witness4 :
    (∃ (n : Fin 17) (rd : Fin 32) (rs1 : Fin 32) (rs2 : Fin 32) (s : State) (c : Instr) (a : SchAns), s.dead = false ∧ s.coreGo (↑n : Nat) = true ∧ (c = Instr.coreReady n rd rs1 ∧ a = s.schReady (fld (s.reg (↑n : Nat) (↑rs1 : Nat)) 0 16) ∨ c = Instr.coreDelay n rd rs1 rs2 ∧ a = s.schDelay (fld (s.reg (↑n : Nat) (↑rs1 : Nat)) 0 16) (s.now + BitVec.toNat (s.reg (↑n : Nat) (↑rs2 : Nat))) ∨ c = Instr.coreCancel n rd rs1 ∧ a = s.schCancel (fld (s.reg (↑n : Nat) (↑rs1 : Nat)) 0 16)) ∧ (↑rd : Nat) ≠ 0) ∧
    (∃ (n : Fin 17) (rd : Fin 32) (rs1 : Fin 32) (rs2 : Fin 32) (s : State) (c : Instr) (a : SchAns), s.dead = false ∧ s.coreGo (↑n : Nat) = true ∧ (c = Instr.coreReady n rd rs1 ∧ a = s.schReady (fld (s.reg (↑n : Nat) (↑rs1 : Nat)) 0 16) ∨ c = Instr.coreDelay n rd rs1 rs2 ∧ a = s.schDelay (fld (s.reg (↑n : Nat) (↑rs1 : Nat)) 0 16) (s.now + BitVec.toNat (s.reg (↑n : Nat) (↑rs2 : Nat))) ∨ c = Instr.coreCancel n rd rs1 ∧ a = s.schCancel (fld (s.reg (↑n : Nat) (↑rs1 : Nat)) 0 16)) ∧ (↑rd : Nat) = 0 ∧ a.code = 0) ∧
    (∃ (n : Fin 17) (rd : Fin 32) (rs1 : Fin 32) (rs2 : Fin 32) (s : State) (c : Instr) (a : SchAns), s.dead = false ∧ s.coreGo (↑n : Nat) = true ∧ (c = Instr.coreReady n rd rs1 ∧ a = s.schReady (fld (s.reg (↑n : Nat) (↑rs1 : Nat)) 0 16) ∨ c = Instr.coreDelay n rd rs1 rs2 ∧ a = s.schDelay (fld (s.reg (↑n : Nat) (↑rs1 : Nat)) 0 16) (s.now + BitVec.toNat (s.reg (↑n : Nat) (↑rs2 : Nat))) ∨ c = Instr.coreCancel n rd rs1 ∧ a = s.schCancel (fld (s.reg (↑n : Nat) (↑rs1 : Nat)) 0 16)) ∧ (↑rd : Nat) = 0 ∧ a.code ≠ 0) :=
  ⟨⟨(2 : Fin 17), (5 : Fin 32), (0 : Fin 32), (0 : Fin 32), (sX : State), (Sys2Proof.Instr.coreReady 2 5 0 : Instr), (sX.schReady 0 : SchAns), (by decide +kernel), (by decide +kernel), Or.inl ⟨rfl, rfl⟩, (by decide +kernel)⟩,
   ⟨(2 : Fin 17), (0 : Fin 32), (5 : Fin 32), (0 : Fin 32), (sX : State), (Sys2Proof.Instr.coreReady 2 0 5 : Instr), (sX.schReady 5 : SchAns), (by decide +kernel), (by decide +kernel), Or.inl ⟨rfl, rfl⟩, (by decide +kernel), (by decide +kernel)⟩,
   ⟨(2 : Fin 17), (0 : Fin 32), (0 : Fin 32), (0 : Fin 32), (sX : State), (Sys2Proof.Instr.coreCancel 2 0 0 : Instr), (sX.schCancel 0 : SchAns), (by decide +kernel), (by decide +kernel), Or.inr (Or.inr ⟨rfl, rfl⟩), (by decide +kernel), (by decide +kernel)⟩⟩

end C4

theorem witness5 :
    (∃ (n : Fin 17) (kind : CsrKind) (csr : BitVec 12) (src : Fin 32) (s : State), s.dead = false ∧ s.coreGo (↑n : Nat) = true ∧ (csr.toNat / 2 ^ 10 = 3 ∧ (kind = CsrKind.rw ∨ (↑src : Nat) ≠ 0) ∨ csr.toNat / 2 ^ 8 % 4 ≠ 0 ∧ (s.core (↑n : Nat)).user = true)) ∧
    (∃ (n : Fin 17) (kind : CsrKind) (csr : BitVec 12) (src : Fin 32) (s : State), s.dead = false ∧ s.coreGo (↑n : Nat) = true ∧ (¬(csr.toNat / 2 ^ 10 = 3 ∧ (kind = CsrKind.rw ∨ (↑src : Nat) ≠ 0) ∨ csr.toNat / 2 ^ 8 % 4 ≠ 0 ∧ (s.core (↑n : Nat)).user = true)) ∧ (¬(1 ≤ csr.toNat ∧ csr.toNat ≤ 3)) ∧ (kind = CsrKind.rw ∨ (↑src : Nat) ≠ 0)) ∧
    (∃ (n : Fin 17) (kind : CsrKind) (csr : BitVec 12) (src : Fin 32) (s : State), s.dead = false ∧ s.coreGo (↑n : Nat) = true ∧ (¬(csr.toNat / 2 ^ 10 = 3 ∧ (kind = CsrKind.rw ∨ (↑src : Nat) ≠ 0) ∨ csr.toNat / 2 ^ 8 % 4 ≠ 0 ∧ (s.core (↑n : Nat)).user = true)) ∧ (¬(1 ≤ csr.toNat ∧ csr.toNat ≤ 3)) ∧ (¬(kind = CsrKind.rw ∨ (↑src : Nat) ≠ 0))) ∧
    (∃ (n : Fin 17) (kind : CsrKind) (csr : BitVec 12) (src : Fin 32) (s : State) (at_ : Nat) (k : Nat), s.dead = false ∧ s.coreGo (↑n : Nat) = true ∧ (¬(csr.toNat / 2 ^ 10 = 3 ∧ (kind = CsrKind.rw ∨ (↑src : Nat) ≠ 0) ∨ csr.toNat / 2 ^ 8 % 4 ≠ 0 ∧ (s.core (↑n : Nat)).user = true)) ∧ (csr.toNat = 1 ∧ at_ = 0 ∧ k = 5 ∨ csr.toNat = 2 ∧ at_ = 5 ∧ k = 3 ∨ csr.toNat = 3 ∧ at_ = 0 ∧ k = 8)) :=
  ⟨⟨(2 : Fin 17), (Sys2Proof.CsrKind.rw : CsrKind), (0x300#12 : BitVec 12), (0 : Fin 32), (cm 0x104 5 { fs := 3, bankwin := 4, fcsr := 3, user := true, stores := [0x44#32] } : State), (by decide +kernel), (by decide +kernel), (by decide +kernel)⟩,
   ⟨(2 : Fin 17), (Sys2Proof.CsrKind.rw : CsrKind), (0x300#12 : BitVec 12), (0 : Fin 32), (cm 5 100 : State), (by decide +kernel), (by decide +kernel), (by decide +kernel), (by decide +kernel), (by decide +kernel)⟩,
   ⟨(2 : Fin 17), (Sys2Proof.CsrKind.rs : CsrKind), (0x300#12 : BitVec 12), (0 : Fin 32), (cm 5 100 : State), (by decide +kernel), (by decide +kernel), (by decide +kernel), (by decide +kernel), (by decide +kernel)⟩,
   ⟨(2 : Fin 17), (Sys2Proof.CsrKind.rw : CsrKind), (0x001#12 : BitVec 12), (0 : Fin 32), (cm 5 100 : State), (0 : Nat), (5 : Nat), (by decide +kernel), (by decide +kernel), (by decide +kernel), (by decide +kernel)⟩⟩

theorem witness7 :
    (∃ (c : Nat), (c = 1985 ∨ c = 1999 ∨ c = 3264 ∨ c = 4032)) :=
  ⟨(1985 : Nat), (by decide +kernel)⟩

theorem witness8 :
    (∃ (n : Fin 17) (s : State), s.dead = false ∧ s.coreGo (↑n : Nat) = true ∧ (s.core (↑n : Nat)).stores = []) ∧
    (∃ (n : Fin 17) (s : State), s.dead = false ∧ s.coreGo (↑n : Nat) = true ∧ (s.core (↑n : Nat)).stores ≠ []) :=
  ⟨⟨(2 : Fin 17), (cm 5 100 : State), (by decide +kernel), (by decide +kernel), (by decide +kernel)⟩,
   ⟨(2 : Fin 17), (cm 0x104 5 { fs := 3, bankwin := 4, fcsr := 3, user := true, stores := [0x44#32] } : State), (by decide +kernel), (by decide +kernel), (by decide +kernel)⟩⟩

theorem witness9 :
    (∃ (n : Fin 17) (s : State), s.dead = false ∧ s.coreGo (↑n : Nat) = true ∧ ((↑n : Nat) = 16 ∨ (s.core (↑n : Nat)).held ≠ none ∨ (s.core (↑n : Nat)).fs = 0)) ∧
    (∃ (n : Fin 17) (s : State) (u : State) (a : Nat), s.dead = false ∧ s.coreGo (↑n : Nat) = true ∧ (¬((↑n : Nat) = 16 ∨ (s.core (↑n : Nat)).held ≠ none ∨ (s.core (↑n : Nat)).fs = 0)) ∧ s.lazySave (↑n : Nat) = (u, some a)) ∧
    (∃ (n : Fin 17) (s : State) (u : State) (rd : Fin 32) (rs1 : Fin 32) (imm : BitVec 12) (op : FpOp), s.dead = false ∧ s.coreGo (↑n : Nat) = true ∧ (¬((↑n : Nat) = 16 ∨ (s.core (↑n : Nat)).held ≠ none ∨ (s.core (↑n : Nat)).fs = 0)) ∧ s.lazySave (↑n : Nat) = (u, none) ∧ op = FpOp.flw rd rs1 imm ∧ BitVec.toNat (u.reg (↑n : Nat) (↑rs1 : Nat) + BitVec.signExtend 32 imm) % 4 ≠ 0) ∧
    (∃ (n : Fin 17) (s : State) (u : State) (rd : Fin 32) (rs1 : Fin 32) (imm : BitVec 12) (w : State) (p : Bool) (op : FpOp), s.dead = false ∧ s.coreGo (↑n : Nat) = true ∧ (¬((↑n : Nat) = 16 ∨ (s.core (↑n : Nat)).held ≠ none ∨ (s.core (↑n : Nat)).fs = 0)) ∧ s.lazySave (↑n : Nat) = (u, none) ∧ BitVec.toNat (u.reg (↑n : Nat) (↑rs1 : Nat) + BitVec.signExtend 32 imm) % 4 = 0 ∧ op = FpOp.flw rd rs1 imm ∧ u.coreRead (↑n : Nat) (BitVec.toNat (u.reg (↑n : Nat) (↑rs1 : Nat) + BitVec.signExtend 32 imm)) 4 = (w, Except.error p)) ∧
    (∃ (n : Fin 17) (s : State) (u : State) (rd : Fin 32) (rs1 : Fin 32) (imm : BitVec 12) (w : State) (v : Nat) (op : FpOp), s.dead = false ∧ s.coreGo (↑n : Nat) = true ∧ (¬((↑n : Nat) = 16 ∨ (s.core (↑n : Nat)).held ≠ none ∨ (s.core (↑n : Nat)).fs = 0)) ∧ s.lazySave (↑n : Nat) = (u, none) ∧ BitVec.toNat (u.reg (↑n : Nat) (↑rs1 : Nat) + BitVec.signExtend 32 imm) % 4 = 0 ∧ op = FpOp.flw rd rs1 imm ∧ u.coreRead (↑n : Nat) (BitVec.toNat (u.reg (↑n : Nat) (↑rs1 : Nat) + BitVec.signExtend 32 imm)) 4 = (w, Except.ok v)) ∧
    (∃ (n : Fin 17) (s : State) (u : State) (rs2 : Fin 32) (rs1 : Fin 32) (imm : BitVec 12) (op : FpOp), s.dead = false ∧ s.coreGo (↑n : Nat) = true ∧ (¬((↑n : Nat) = 16 ∨ (s.core (↑n : Nat)).held ≠ none ∨ (s.core (↑n : Nat)).fs = 0)) ∧ s.lazySave (↑n : Nat) = (u, none) ∧ op = FpOp.fsw rs2 rs1 imm ∧ BitVec.toNat (u.reg (↑n : Nat) (↑rs1 : Nat) + BitVec.signExtend 32 imm) % 4 ≠ 0) ∧
    (∃ (n : Fin 17) (s : State) (u : State) (rs2 : Fin 32) (rs1 : Fin 32) (imm : BitVec 12) (w : State) (op : FpOp), s.dead = false ∧ s.coreGo (↑n : Nat) = true ∧ (¬((↑n : Nat) = 16 ∨ (s.core (↑n : Nat)).held ≠ none ∨ (s.core (↑n : Nat)).fs = 0)) ∧ s.lazySave (↑n : Nat) = (u, none) ∧ BitVec.toNat (u.reg (↑n : Nat) (↑rs1 : Nat) + BitVec.signExtend 32 imm) % 4 = 0 ∧ op = FpOp.fsw rs2 rs1 imm ∧ u.coreWrite (↑n : Nat) (BitVec.toNat (u.reg (↑n : Nat) (↑rs1 : Nat) + BitVec.signExtend 32 imm)) 4 (BitVec.toNat (mget 0 (u.core (↑n : Nat)).f (↑rs2 : Nat))) = (w, true)) ∧
    (∃ (n : Fin 17) (s : State) (u : State) (rs2 : Fin 32) (rs1 : Fin 32) (imm : BitVec 12) (w : State) (op : FpOp), s.dead = false ∧ s.coreGo (↑n : Nat) = true ∧ (¬((↑n : Nat) = 16 ∨ (s.core (↑n : Nat)).held ≠ none ∨ (s.core (↑n : Nat)).fs = 0)) ∧ s.lazySave (↑n : Nat) = (u, none) ∧ BitVec.toNat (u.reg (↑n : Nat) (↑rs1 : Nat) + BitVec.signExtend 32 imm) % 4 = 0 ∧ op = FpOp.fsw rs2 rs1 imm ∧ u.coreWrite (↑n : Nat) (BitVec.toNat (u.reg (↑n : Nat) (↑rs1 : Nat) + BitVec.signExtend 32 imm)) 4 (BitVec.toNat (mget 0 (u.core (↑n : Nat)).f (↑rs2 : Nat))) = (w, false)) ∧
    (∃ (n : Fin 17) (s : State) (u : State) (f : Option (Fin 32 × Word32)) (x : Option (Fin 32 × Word32)) (fcsr : Option Word32) (op : FpOp), s.dead = false ∧ s.coreGo (↑n : Nat) = true ∧ (¬((↑n : Nat) = 16 ∨ (s.core (↑n : Nat)).held ≠ none ∨ (s.core (↑n : Nat)).fs = 0)) ∧ s.lazySave (↑n : Nat) = (u, none) ∧ op = FpOp.other f x fcsr) :=
  ⟨⟨(2 : Fin 17), (cm 5 100 : State), (by decide +kernel), (by decide +kernel), (by decide +kernel)⟩,
   ⟨(2 : Fin 17), (lm (cm 0x101 5 { fs := 3 } [(0, { bstat := 0x801F1F00#32, fpsa := 0x202#32 })]) : State), (((lm (cm 0x101 5 { fs := 3 } [(0, { bstat := 0x801F1F00#32, fpsa := 0x202#32 })]) : State)).lazySave (↑((2 : Fin 17)) : Nat)).1, ((((lm (cm 0x101 5 { fs := 3 } [(0, { bstat := 0x801F1F00#32, fpsa := 0x202#32 })]) : State)).lazySave (↑((2 : Fin 17)) : Nat)).2).get (by all_goals decide +kernel), (by decide +kernel), (by decide +kernel), (by decide +kernel), (by decide +kernel)⟩,
   ⟨(2 : Fin 17), (lm (cm 0x100 5 { fs := 3 }) : State), _, (5 : Fin 32), (5 : Fin 32), (0x001#12 : BitVec 12), _, (by decide +kernel), (by decide +kernel), (by decide +kernel), pairFst _ (by decide +kernel), rfl, (by decide +kernel)⟩,
   ⟨(2 : Fin 17), (lm (cm 0xFFFFFF00 5 { fs := 3 }) : State), _, (5 : Fin 32), (5 : Fin 32), (0x000#12 : BitVec 12), _, (false : Bool), _, (by decide +kernel), (by decide +kernel), (by decide +kernel), pairFst _ (by decide +kernel), (by decide +kernel), rfl, pairFst _ (exEq (by decide +kernel))⟩,
   ⟨(2 : Fin 17), (lm (cm 0x100 5 { fs := 3 }) : State), _, (5 : Fin 32), (5 : Fin 32), (0x000#12 : BitVec 12), (((((lm (cm 0x100 5 { fs := 3 }) : State)).lazySave (↑((2 : Fin 17)) : Nat)).1).coreRead (↑((2 : Fin 17)) : Nat) (BitVec.toNat (((((lm (cm 0x100 5 { fs := 3 }) : State)).lazySave (↑((2 : Fin 17)) : Nat)).1).reg (↑((2 : Fin 17)) : Nat) (↑((5 : Fin 32)) : Nat) + BitVec.signExtend 32 ((0x000#12 : BitVec 12)))) 4).1, (okOf ((((((lm (cm 0x100 5 { fs := 3 }) : State)).lazySave (↑((2 : Fin 17)) : Nat)).1).coreRead (↑((2 : Fin 17)) : Nat) (BitVec.toNat (((((lm (cm 0x100 5 { fs := 3 }) : State)).lazySave (↑((2 : Fin 17)) : Nat)).1).reg (↑((2 : Fin 17)) : Nat) (↑((5 : Fin 32)) : Nat) + BitVec.signExtend 32 ((0x000#12 : BitVec 12)))) 4).2)).get (by all_goals decide +kernel), _, (by decide +kernel), (by decide +kernel), (by decide +kernel), pairFst _ (by decide +kernel), (by decide +kernel), rfl, Prod.ext (by decide +kernel) (exEq (by decide +kernel))⟩,
   ⟨(2 : Fin 17), (lm (cm 0x100 5 { fs := 3 }) : State), _, (5 : Fin 32), (5 : Fin 32), (0x001#12 : BitVec 12), _, (by decide +kernel), (by decide +kernel), (by decide +kernel), pairFst _ (by decide +kernel), rfl, (by decide +kernel)⟩,
   ⟨(2 : Fin 17), (lm (cm 0x100 5 { fs := 3 }) : State), _, (5 : Fin 32), (5 : Fin 32), (0x000#12 : BitVec 12), _, _, (by decide +kernel), (by decide +kernel), (by decide +kernel), pairFst _ (by decide +kernel), (by decide +kernel), rfl, pairFst _ (by decide +kernel)⟩,
   ⟨(2 : Fin 17), (lm (cm 0xFFFFFF00 5 { fs := 3 }) : State), _, (5 : Fin 32), (5 : Fin 32), (0x000#12 : BitVec 12), _, _, (by decide +kernel), (by decide +kernel), (by decide +kernel), pairFst _ (by decide +kernel), (by decide +kernel), rfl, pairFst _ (by decide +kernel)⟩,
   ⟨(2 : Fin 17), (lm (cm 0x100 5 { fs := 3 }) : State), _, (none : Option (Fin 32 × Word32)), (none : Option (Fin 32 × Word32)), (none : Option Word32), _, (by decide +kernel), (by decide +kernel), (by decide +kernel), pairFst _ (by decide +kernel), rfl⟩⟩

theorem witness10 :
    (∃ (n : Fin 17) (s : State), bit (s.bank (↑n : Nat) (s.curBank (↑n : Nat))).bstat 31 = false) ∧
    (∃ (n : Fin 17) (s : State) (u : State), bit (s.bank (↑n : Nat) (s.curBank (↑n : Nat))).bstat 31 = true ∧ s.storeWords (↑n : Nat) (BitVec.toNat (s.bank (↑n : Nat) (s.curBank (↑n : Nat))).fpsa) (s.core (↑n : Nat)).fpWords = (u, none)) ∧
    (∃ (n : Fin 17) (s : State) (u : State) (a : Nat), bit (s.bank (↑n : Nat) (s.curBank (↑n : Nat))).bstat 31 = true ∧ s.storeWords (↑n : Nat) (BitVec.toNat (s.bank (↑n : Nat) (s.curBank (↑n : Nat))).fpsa) (s.core (↑n : Nat)).fpWords = (u, some a)) :=
  ⟨⟨(2 : Fin 17), (s0 : State), (by decide +kernel)⟩,
   ⟨(2 : Fin 17), (lm (cm 0x100 5 { fs := 3 } [(0, { bstat := 0x801F1F00#32, fpsa := 0x200#32 })]) : State), _, (by decide +kernel), pairFst _ (by decide +kernel)⟩,
   ⟨(2 : Fin 17), (lm (cm 0x101 5 { fs := 3 } [(0, { bstat := 0x801F1F00#32, fpsa := 0x202#32 })]) : State), (((lm (cm 0x101 5 { fs := 3 } [(0, { bstat := 0x801F1F00#32, fpsa := 0x202#32 })]) : State)).storeWords (↑((2 : Fin 17)) : Nat) (BitVec.toNat (((lm (cm 0x101 5 { fs := 3 } [(0, { bstat := 0x801F1F00#32, fpsa := 0x202#32 })]) : State)).bank (↑((2 : Fin 17)) : Nat) (((lm (cm 0x101 5 { fs := 3 } [(0, { bstat := 0x801F1F00#32, fpsa := 0x202#32 })]) : State)).curBank (↑((2 : Fin 17)) : Nat))).fpsa) (((lm (cm 0x101 5 { fs := 3 } [(0, { bstat := 0x801F1F00#32, fpsa := 0x202#32 })]) : State)).core (↑((2 : Fin 17)) : Nat)).fpWords).1, ((((lm (cm 0x101 5 { fs := 3 } [(0, { bstat := 0x801F1F00#32, fpsa := 0x202#32 })]) : State)).storeWords (↑((2 : Fin 17)) : Nat) (BitVec.toNat (((lm (cm 0x101 5 { fs := 3 } [(0, { bstat := 0x801F1F00#32, fpsa := 0x202#32 })]) : State)).bank (↑((2 : Fin 17)) : Nat) (((lm (cm 0x101 5 { fs := 3 } [(0, { bstat := 0x801F1F00#32, fpsa := 0x202#32 })]) : State)).curBank (↑((2 : Fin 17)) : Nat))).fpsa) (((lm (cm 0x101 5 { fs := 3 } [(0, { bstat := 0x801F1F00#32, fpsa := 0x202#32 })]) : State)).core (↑((2 : Fin 17)) : Nat)).fpWords).2).get (by all_goals decide +kernel), (by decide +kernel), (by decide +kernel)⟩⟩

end CoreRegisterInstructionsRun

/-! Witnesses of `Obligations.CoresTrapReturnAndStart`. -/
namespace CoresTrapReturnAndStart

def ca : Nat := localBase 2 + 0x200
def lm (s : State) : State := { s with mem := [⟨ca, 5⟩, ⟨ca + 4, 9⟩], codes := (List.range 6).map fun i => (ca / 32 + i, { wf := 3 }) }
def cm (c : Core := {}) (r : Map Word32 := []) : State := { cores := [(2, { c with st := if c.st = .off then .run else c.st, pc := 0x80#32, x := [(2, 0x12345678#32), (5, 77#32)], pend := [(4, some 3), (77, some 9)] }), (16, { c with st := .run, pc := 0x82#32, pend := [(77, some 9)] })], regs := r }
def sp : Map Word32 := [(ccReg 2, 1#32), (ccReg 2 + 8, 0x201#32), (ccReg 2 + 0xC, 0x201#32), (ccReg 3 + 0xC, 0x1000000#32)]

theorem witness0 :
    (∃ (n : Nat) (s : State), (s.core n).held ≠ none) ∧
    (∃ (n : Nat) (s : State), (s.core n).held = none) ∧
    (∃ (n : Nat) (s : State), ((s.core n).depth + 1 = if s.spillMode n = true then 31 else 8)) ∧
    (∃ (n : Nat) (s : State), (¬(s.core n).depth + 1 = if s.spillMode n = true then 31 else 8) ∧ (s.spillMode n = true ∧ 7 ≤ (s.core n).depth + 1 ∧ (s.core n).lowres + 6 ≤ (s.core n).depth + 1)) ∧
    (∃ (n : Nat) (s : State), (¬(s.core n).depth + 1 = if s.spillMode n = true then 31 else 8) ∧ (¬(s.spillMode n = true ∧ 7 ≤ (s.core n).depth + 1 ∧ (s.core n).lowres + 6 ≤ (s.core n).depth + 1))) :=
  ⟨⟨(2 : Nat), (cm { held := some .ret, lowres := 3, depth := 2 } : State), (by decide +kernel)⟩,
   ⟨(2 : Nat), (s0 : State), (by decide +kernel)⟩,
   ⟨(2 : Nat), (cm { depth := 7, mie := true } : State), (by decide +kernel)⟩,
   ⟨(2 : Nat), (cm { depth := 8, lowres := 2, mie := true } sp : State), (by decide +kernel), (by decide +kernel)⟩,
   ⟨(2 : Nat), (s0 : State), (by decide +kernel), (by decide +kernel)⟩⟩

theorem witness2 :
    (∃ (cause : Nat), cause < 2 ^ 31) :=
  ⟨(2 : Nat), (by decide +kernel)⟩

theorem witness4 :
    (∃ (n : Fin 17) (s : State), s.dead = false ∧ ((s.core (↑n : Nat)).st = CoreState.off ∨ (s.core (↑n : Nat)).st = CoreState.fatal)) ∧
    (∃ (n : Fin 17) (s : State), s.dead = false ∧ (s.core (↑n : Nat)).st ≠ CoreState.off ∧ (s.core (↑n : Nat)).st ≠ CoreState.fatal ∧ s.irq (↑n : Nat) = none ∧ (s.core (↑n : Nat)).st = CoreState.wfi ∧ (s.core (↑n : Nat)).pend ≠ []) ∧
    (∃ (n : Fin 17) (s : State), s.dead = false ∧ (s.core (↑n : Nat)).st ≠ CoreState.off ∧ (s.core (↑n : Nat)).st ≠ CoreState.fatal ∧ s.irq (↑n : Nat) = none ∧ (s.core (↑n : Nat)).leaving = true ∧ (s.core (↑n : Nat)).st = CoreState.run) ∧
    (∃ (n : Fin 17) (s : State), s.dead = false ∧ (s.core (↑n : Nat)).st ≠ CoreState.off ∧ (s.core (↑n : Nat)).st ≠ CoreState.fatal ∧ s.irq (↑n : Nat) = none ∧ (¬((s.core (↑n : Nat)).st = CoreState.wfi ∧ (s.core (↑n : Nat)).pend ≠ [])) ∧ (¬((s.core (↑n : Nat)).leaving = true ∧ (s.core (↑n : Nat)).st = CoreState.run))) ∧
    (∃ (n : Fin 17) (s : State) (l : Nat) (src : Nat), s.dead = false ∧ (s.core (↑n : Nat)).st ≠ CoreState.off ∧ (s.core (↑n : Nat)).st ≠ CoreState.fatal ∧ s.irq (↑n : Nat) = some (l, src) ∧ (s.core (↑n : Nat)).st = CoreState.take ∧ (s.core (↑n : Nat)).leaving = true) ∧
    (∃ (n : Fin 17) (s : State) (l : Nat) (src : Nat), s.dead = false ∧ (s.core (↑n : Nat)).st ≠ CoreState.off ∧ (s.core (↑n : Nat)).st ≠ CoreState.fatal ∧ s.irq (↑n : Nat) = some (l, src) ∧ (s.core (↑n : Nat)).st = CoreState.take ∧ (s.core (↑n : Nat)).leaving = false) ∧
    (∃ (n : Fin 17) (s : State) (l : Nat) (src : Nat), s.dead = false ∧ (s.core (↑n : Nat)).st ≠ CoreState.off ∧ (s.core (↑n : Nat)).st ≠ CoreState.fatal ∧ s.irq (↑n : Nat) = some (l, src) ∧ (s.core (↑n : Nat)).st ≠ CoreState.take ∧ ((s.core (↑n : Nat)).depth + 1 = if s.spillMode (↑n : Nat) = true then 31 else 8)) ∧
    (∃ (n : Fin 17) (s : State) (l : Nat) (src : Nat), s.dead = false ∧ (s.core (↑n : Nat)).st ≠ CoreState.off ∧ (s.core (↑n : Nat)).st ≠ CoreState.fatal ∧ s.irq (↑n : Nat) = some (l, src) ∧ (s.core (↑n : Nat)).st ≠ CoreState.take ∧ ((s.core (↑n : Nat)).depth + 1 ≠ if s.spillMode (↑n : Nat) = true then 31 else 8)) :=
  ⟨⟨(2 : Fin 17), (s0 : State), (by decide +kernel), (by decide +kernel)⟩,
   ⟨(2 : Fin 17), (cm { st := .wfi } : State), (by decide +kernel), (by decide +kernel), (by decide +kernel), (by decide +kernel), (by decide +kernel), (by decide +kernel)⟩,
   ⟨(2 : Fin 17), (cm { leaving := true } : State), (by decide +kernel), (by decide +kernel), (by decide +kernel), (by decide +kernel), (by decide +kernel), (by decide +kernel)⟩,
   ⟨(2 : Fin 17), (cm { depth := 2, mtvec := 0x101#32, banks := [(2, { bstat := 0x1A1F0700#32, mepc := 0x444#32 })] } sp : State), (by decide +kernel), (by decide +kernel), (by decide +kernel), (by decide +kernel), (by decide +kernel), (by decide +kernel)⟩,
   ⟨(2 : Fin 17), (cm { st := .take, mie := true, leaving := true } : State), _, _, (by decide +kernel), (by decide +kernel), (by decide +kernel), someGet2 _ (by decide +kernel), (by decide +kernel), (by decide +kernel)⟩,
   ⟨(2 : Fin 17), (cm { st := .take, mie := true } : State), _, _, (by decide +kernel), (by decide +kernel), (by decide +kernel), someGet2 _ (by decide +kernel), (by decide +kernel), (by decide +kernel)⟩,
   ⟨(2 : Fin 17), (cm { depth := 7, mie := true } : State), _, _, (by decide +kernel), (by decide +kernel), (by decide +kernel), someGet2 _ (by decide +kernel), (by decide +kernel), (by decide +kernel)⟩,
   ⟨(2 : Fin 17), (cm { mie := true, mtvec := 0x101#32, fs := 2 } : State), _, _, (by decide +kernel), (by decide +kernel), (by decide +kernel), someGet2 _ (by decide +kernel), (by decide +kernel), (by decide +kernel)⟩⟩

theorem witness5 :
    (∃ (n : Fin 17) (s : State), s.dead = false ∧ s.coreGo (↑n : Nat) = false) ∧
    (∃ (n : Fin 17) (s : State), s.dead = false ∧ s.coreGo (↑n : Nat) = true ∧ (s.core (↑n : Nat)).user = true) ∧
    (∃ (n : Fin 17) (s : State) (c : Word32) (tv : Word32) (epc : Word32) (l : Nat) (int : Bool) (us : Bool), s.dead = false ∧ s.coreGo (↑n : Nat) = true ∧ (s.core (↑n : Nat)).user = false ∧ (s.core (↑n : Nat)).held = some (Held.entry c tv epc l int us)) ∧
    (∃ (n : Fin 17) (s : State), s.dead = false ∧ s.coreGo (↑n : Nat) = true ∧ (s.core (↑n : Nat)).user = false ∧ (s.core (↑n : Nat)).held = some Held.ret) ∧
    (∃ (n : Fin 17) (s : State), s.dead = false ∧ s.coreGo (↑n : Nat) = true ∧ (s.core (↑n : Nat)).user = false ∧ (s.core (↑n : Nat)).held = none ∧ (s.core (↑n : Nat)).depth = 0) ∧
    (∃ (n : Fin 17) (s : State) (u : State) (e : Nat × Nat), s.dead = false ∧ s.coreGo (↑n : Nat) = true ∧ (s.core (↑n : Nat)).user = false ∧ (s.core (↑n : Nat)).held = none ∧ (s.core (↑n : Nat)).depth ≠ 0 ∧ s.fpReload (↑n : Nat) = (u, some e)) ∧
    (∃ (n : Fin 17) (s : State) (u : State), s.dead = false ∧ s.coreGo (↑n : Nat) = true ∧ (s.core (↑n : Nat)).user = false ∧ (s.core (↑n : Nat)).held = none ∧ (s.core (↑n : Nat)).depth ≠ 0 ∧ s.fpReload (↑n : Nat) = (u, none) ∧ (u.spillMode (↑n : Nat) = true ∧ 1 < (s.core (↑n : Nat)).depth ∧ (s.core (↑n : Nat)).depth ≤ (s.core (↑n : Nat)).lowres)) ∧
    (∃ (n : Fin 17) (s : State) (u : State), s.dead = false ∧ s.coreGo (↑n : Nat) = true ∧ (s.core (↑n : Nat)).user = false ∧ (s.core (↑n : Nat)).held = none ∧ (s.core (↑n : Nat)).depth ≠ 0 ∧ s.fpReload (↑n : Nat) = (u, none) ∧ (¬(u.spillMode (↑n : Nat) = true ∧ 1 < (s.core (↑n : Nat)).depth ∧ (s.core (↑n : Nat)).depth ≤ (s.core (↑n : Nat)).lowres))) :=
  ⟨⟨(2 : Fin 17), (s0 : State), (by decide +kernel), (by decide +kernel)⟩,
   ⟨(2 : Fin 17), (cm { user := true, mie := true, mtvec := 0x101#32, depth := 1, banks := [(1, { bstat := 0x1F0400#32 })] } : State), (by decide +kernel), (by decide +kernel), (by decide +kernel)⟩,
   ⟨(2 : Fin 17), (cm { held := some (.entry 3 5 7 4 true false), lowres := 3, depth := 2 } sp : State), (0x00000003#32 : Word32), (0x00000005#32 : Word32), (0x00000007#32 : Word32), (4 : Nat), (true : Bool), (false : Bool), (by decide +kernel), (by decide +kernel), (by decide +kernel), (by decide +kernel)⟩,
   ⟨(2 : Fin 17), (cm { held := some .ret, lowres := 3, depth := 2 } : State), (by decide +kernel), (by decide +kernel), (by decide +kernel), (by decide +kernel)⟩,
   ⟨(2 : Fin 17), (cm { mie := true, mtvec := 0x101#32, fs := 2 } : State), (by decide +kernel), (by decide +kernel), (by decide +kernel), (by decide +kernel), (by decide +kernel)⟩,
   ⟨(2 : Fin 17), (lm (cm { depth := 1, banks := [(1, { bstat := 0x401F1F00#32, fpsa := 0x202#32 })] }) : State), (((lm (cm { depth := 1, banks := [(1, { bstat := 0x401F1F00#32, fpsa := 0x202#32 })] }) : State)).fpReload (↑((2 : Fin 17)) : Nat)).1, ((((lm (cm { depth := 1, banks := [(1, { bstat := 0x401F1F00#32, fpsa := 0x202#32 })] }) : State)).fpReload (↑((2 : Fin 17)) : Nat)).2).get (by all_goals decide +kernel), (by decide +kernel), (by decide +kernel), (by decide +kernel), (by decide +kernel), (by decide +kernel), (by decide +kernel)⟩,
   ⟨(2 : Fin 17), (lm (cm { depth := 2, lowres := 2, banks := [(1, { bstat := 0x401F1F00#32, fpsa := 0x200#32 })] } sp) : State), _, (by decide +kernel), (by decide +kernel), (by decide +kernel), (by decide +kernel), (by decide +kernel), pairFst _ (by decide +kernel), (by decide +kernel)⟩,
   ⟨(2 : Fin 17), (cm { depth := 2, mtvec := 0x101#32, banks := [(2, { bstat := 0x1A1F0700#32, mepc := 0x444#32 })] } sp : State), _, (by decide +kernel), (by decide +kernel), (by decide +kernel), (by decide +kernel), (by decide +kernel), pairFst _ (by decide +kernel), (by decide +kernel)⟩⟩

theorem witness6 :
    (∃ (n : Nat) (s : State), bit (s.bank n (s.curBank n)).bstat 30 = false) ∧
    (∃ (n : Nat) (s : State) (u : State) (e : Nat × Nat), bit (s.bank n (s.curBank n)).bstat 30 = true ∧ s.loadWords n 33 (BitVec.toNat (s.bank n (s.curBank n)).fpsa) = (u, Except.error e)) ∧
    (∃ (n : Nat) (s : State) (u : State) (l : List Word32), bit (s.bank n (s.curBank n)).bstat 30 = true ∧ s.loadWords n 33 (BitVec.toNat (s.bank n (s.curBank n)).fpsa) = (u, Except.ok l)) :=
  ⟨⟨(0 : Nat), (s0 : State), (by decide +kernel)⟩,
   ⟨(2 : Nat), (lm (cm { depth := 1, banks := [(1, { bstat := 0x401F1F00#32, fpsa := 0x202#32 })] }) : State), _, ((4, 514) : Nat × Nat), (by decide +kernel), pairFst _ (exEq (by decide +kernel))⟩,
   ⟨(2 : Nat), (lm (cm { depth := 1, banks := [(1, { bstat := 0x401F1F00#32, fpsa := 0x200#32 })] }) : State), (((lm (cm { depth := 1, banks := [(1, { bstat := 0x401F1F00#32, fpsa := 0x200#32 })] }) : State)).loadWords ((2 : Nat)) 33 (BitVec.toNat (((lm (cm { depth := 1, banks := [(1, { bstat := 0x401F1F00#32, fpsa := 0x200#32 })] }) : State)).bank ((2 : Nat)) (((lm (cm { depth := 1, banks := [(1, { bstat := 0x401F1F00#32, fpsa := 0x200#32 })] }) : State)).curBank ((2 : Nat)))).fpsa)).1, (okOf ((((lm (cm { depth := 1, banks := [(1, { bstat := 0x401F1F00#32, fpsa := 0x200#32 })] }) : State)).loadWords ((2 : Nat)) 33 (BitVec.toNat (((lm (cm { depth := 1, banks := [(1, { bstat := 0x401F1F00#32, fpsa := 0x200#32 })] }) : State)).bank ((2 : Nat)) (((lm (cm { depth := 1, banks := [(1, { bstat := 0x401F1F00#32, fpsa := 0x200#32 })] }) : State)).curBank ((2 : Nat)))).fpsa)).2)).get (by all_goals decide +kernel), (by decide +kernel), Prod.ext (by decide +kernel) (exEq (by decide +kernel))⟩⟩

theorem witness7 :
    (∃ (n : Fin 16) (s : State), s.dead = false ∧ s.rb (ccReg (↑n : Nat)) 0 = true) ∧
    (∃ (n : Fin 16) (s : State), s.dead = false ∧ s.rb (ccReg (↑n : Nat)) 0 = false ∧ s.ccCheck (↑n : Nat) = []) ∧
    (∃ (n : Fin 16) (s : State) (c : Nat), s.dead = false ∧ c ∈ s.ccCheck (↑n : Nat) ∧ s.rb (ccReg (↑n : Nat)) 0 = false ∧ (∀ (d : Nat), d ∈ s.ccCheck (↑n : Nat) → c ≤ d)) :=
  ⟨⟨(2 : Fin 16), (cm { depth := 2, mtvec := 0x101#32, banks := [(2, { bstat := 0x1A1F0700#32, mepc := 0x444#32 })] } sp : State), (by decide +kernel), (by decide +kernel)⟩,
   ⟨(2 : Fin 16), (s0 : State), (by decide +kernel), (by decide +kernel), (by decide +kernel)⟩,
   ⟨(2 : Fin 16), (cm {} [(ccReg 2 + 0xC, 0x201#32), (ccReg 2 + 8, 0xFFFFFFFF#32)] : State), (3074 : Nat), (by decide +kernel), (by decide +kernel), (by decide +kernel), (by decide +kernel)⟩⟩

end CoresTrapReturnAndStart

/-! Witnesses of `Obligations.EventsReachTheirRoutes`. -/
namespace EventsReachTheirRoutes

def ev (en lo hi : Word32) (h : HostLink := {}) : State := { regs := [(regionBase 7 + 0x10C, 0x80000309#32), (cxpReg 4, 1#32), (bootBase, 7#32), (evBase + 0x4000, en), (routeReg 777, lo), (routeReg 777 + 4, hi), (msixBase + 16 * 777, 0xFEE00000#32), (msixBase + 16 * 777 + 12, 0#32)], host := h, raised := [777], cores := [(2, { st := .run, pc := 9#32 })] }

theorem witness0 :
    (∃ (n : Fin 2048) (s : State), (¬(↑n : Nat) ∈ s.raised)) ∧
    (∃ (n : Fin 2048) (s : State), (↑n : Nat) ∈ s.raised ∧ s.dead = false) ∧
    (∃ (n : Fin 2048) (s : State), (↑n : Nat) ∈ s.raised ∧ s.dead = true) :=
  ⟨⟨(0 : Fin 2048), (s0 : State), (by decide +kernel)⟩,
   ⟨(777 : Fin 2048), ({ raised := [5, 777] } : State), (by decide +kernel), (by decide +kernel)⟩,
   ⟨(777 : Fin 2048), ({ sDead with raised := [777] } : State), (by decide +kernel), (by decide +kernel)⟩⟩

theorem witness2 :
    (∃ (n : Nat) (i : Nat) (s : State), (¬(s.cxpOn i = true ∧ s.rb (cxpReg i) 12 = true ∧ s.rf (cxpReg i) 16 11 = n))) :=
  ⟨(0 : Nat), (0 : Nat), (s0 : State), (by decide +kernel)⟩

theorem witness3 :
    (∃ (s : State), s.rb (evBase + 16384) 0 = false) ∧
    (∃ (s : State), s.rb (evBase + 16384) 0 = true ∧ s.dead = false) ∧
    (∃ (s : State), s.rb (evBase + 16384) 0 = true ∧ s.dead = true) :=
  ⟨⟨(s0 : State), (by decide +kernel)⟩,
   ⟨(ev 1 0x83010005 0 : State), (by decide +kernel), (by decide +kernel)⟩,
   ⟨({ ev 1 0 0x00080000 { msixOn := true } with regs := sDead.regs ++ (ev 1 0 0x00080000 { msixOn := true }).regs } : State), (by decide +kernel), (by decide +kernel)⟩⟩

theorem witness4 :
    (∃ (n : Nat) (s : State) (k : Nat), k < 17 ∧ s.rb (routeReg n) k = true) ∧
    (∃ (n : Nat) (s : State) (k : Nat), (17 ≤ k ∨ s.rb (routeReg n) k = false)) ∧
    (∃ (n : Nat) (m : Nat), m ≠ n) :=
  ⟨⟨(777 : Nat), (ev 1 0x83010005 0 : State), (0 : Nat), (by decide +kernel), (by decide +kernel)⟩,
   ⟨(0 : Nat), (s0 : State), (0 : Nat), (by decide +kernel)⟩,
   ⟨(0 : Nat), (1 : Nat), (by decide +kernel)⟩⟩

theorem witness5 :
    (∃ (s : State), s.booted = false) ∧
    (∃ (n : Nat) (s : State), s.booted = true ∧ s.msixOpen n = true) ∧
    (∃ (n : Nat) (s : State), s.booted = true ∧ s.msixOpen n = false) :=
  ⟨⟨(s0 : State), (by decide +kernel)⟩,
   ⟨(777 : Nat), (ev 1 0 0x00080000 { msixOn := true } : State), (by decide +kernel), (by decide +kernel)⟩,
   ⟨(0 : Nat), (ev 0 0 0 : State), (by decide +kernel), (by decide +kernel)⟩⟩

theorem witness6 :
    (∃ (m : Master), m = Master.puppeteer) ∧
    (∃ (m : Master), m ≠ Master.puppeteer) :=
  ⟨⟨_, rfl⟩,
   ⟨(Sys2Proof.Master.host : Master), (by decide +kernel)⟩⟩

theorem witness7 :
    (∃ (high : Bool) (v : Word32), (¬if high = true then v &&& ~~~3212640255#32 ≠ 0 else v &&& ~~~2399272959#32 ≠ 0) ∧ (¬(high = false ∧ bit v 31 = true ∧ fld v 0 17 = 0))) ∧
    (∃ (high : Bool) (v : Word32), (if high = true then v &&& ~~~3212640255#32 ≠ 0 else v &&& ~~~2399272959#32 ≠ 0)) ∧
    (∃ (high : Bool) (v : Word32), (¬if high = true then v &&& ~~~3212640255#32 ≠ 0 else v &&& ~~~2399272959#32 ≠ 0) ∧ (high = false ∧ bit v 31 = true ∧ fld v 0 17 = 0)) :=
  ⟨⟨(false : Bool), (0x00000000#32 : Word32), (by decide +kernel), (by decide +kernel)⟩,
   ⟨(false : Bool), (0xffffffff#32 : Word32), (by decide +kernel)⟩,
   ⟨(false : Bool), (0x80000000#32 : Word32), (by decide +kernel), (by decide +kernel)⟩⟩

theorem witness8 :
    (∃ (s : State), s.rb (evBase + 16384) 0 = true) ∧
    (∃ (s : State), s.rb (evBase + 16384) 0 = false ∧ (¬∃ (n : Nat), n < 2048 ∧ (s.rg (routeReg n) &&& ~~~2399272959#32 ≠ 0 ∨ s.rg (routeReg n + 4) &&& ~~~3212640255#32 ≠ 0)) ∧ (¬∃ (n : Nat), n < 2048 ∧ s.rb (routeReg n) 31 = true ∧ s.rf (routeReg n) 0 17 = 0)) ∧
    (∃ (s : State), s.rb (evBase + 16384) 0 = false ∧ (∃ (n : Nat), n < 2048 ∧ (s.rg (routeReg n) &&& ~~~2399272959#32 ≠ 0 ∨ s.rg (routeReg n + 4) &&& ~~~3212640255#32 ≠ 0))) ∧
    (∃ (s : State), s.rb (evBase + 16384) 0 = false ∧ (¬∃ (n : Nat), n < 2048 ∧ (s.rg (routeReg n) &&& ~~~2399272959#32 ≠ 0 ∨ s.rg (routeReg n + 4) &&& ~~~3212640255#32 ≠ 0)) ∧ (∃ (n : Nat), n < 2048 ∧ s.rb (routeReg n) 31 = true ∧ s.rf (routeReg n) 0 17 = 0)) :=
  ⟨⟨(ev 1 0x83010005 0 : State), (by decide +kernel)⟩,
   ⟨(s0 : State), (by decide +kernel), (by decide +kernel), (by decide +kernel)⟩,
   ⟨(ev 0 0x10000000 0 : State), (by decide +kernel), (by decide +kernel)⟩,
   ⟨(ev 0 0x80000000 0 : State), (by decide +kernel), (by decide +kernel), (by decide +kernel)⟩⟩

end EventsReachTheirRoutes

/-! Witnesses of `Obligations.EnginesStartAndEnd`. -/
namespace EnginesStartAndEnd

def en (l : List (Nat × Nat)) (a : ShaEngine := {}) (j : Option MldJob := none) : State := { regs := l.map (fun e => (engBase + e.1, BitVec.ofNat 32 e.2)), sha := a, mld := j }

theorem witness0 :
    (∃ (v : Word32) (s : State) (x : BytesAns) (u : State), s.rb (engBase + 24) 0 = false ∧ (s.setRg engBase (regTakes { rw := 54#32, rwl := 0, w1c := 0, en := 0, enBit := 0 : RegSpec } false (s.rg engBase) v)).bytesGet Master.puppeteer (BitVec.toNat (s.rg (engBase + 8)) + s.rf (engBase + 12) 0 8 * 2 ^ 32) (BitVec.toNat (s.rg (engBase + 16))) = (u, x) ∧ (x.status ≠ 0 ∨ x.bad = true ∨ fld v 4 2 = 3)) ∧
    (∃ (v : Word32) (s : State) (x : BytesAns) (u : State), s.rb (engBase + 24) 0 = false ∧ (s.setRg engBase (regTakes { rw := 54#32, rwl := 0, w1c := 0, en := 0, enBit := 0 : RegSpec } false (s.rg engBase) v)).bytesGet Master.puppeteer (BitVec.toNat (s.rg (engBase + 8)) + s.rf (engBase + 12) 0 8 * 2 ^ 32) (BitVec.toNat (s.rg (engBase + 16))) = (u, x) ∧ (¬(x.status ≠ 0 ∨ x.bad = true ∨ fld v 4 2 = 3))) :=
  ⟨⟨(0x00000000#32 : Word32), (en [(8, 0), (0xC, 0x41), (0x10, 3), (0x14, 40)] { msg := [1, 2] } : State), _, _, (by decide +kernel), pairEta2 _, (by decide +kernel)⟩,
   ⟨(0x00000000#32 : Word32), (s0 : State), _, _, (by decide +kernel), pairEta2 _, (by decide +kernel)⟩⟩

theorem witness1 :
    (∃ (s : State), s.rb (engBase + 24) 0 = true) :=
  ⟨(en [(0x18, 1)] { ends := some none } : State), (by decide +kernel)⟩

theorem witness2 :
    (∃ (s : State), s.sha.ends = none) ∧
    (∃ (s : State), s.sha.ends = some none) ∧
    (∃ (s : State) (o : List (BitVec 8)) (i : Nat) (b : BitVec 8), s.sha.ends = some (some o) ∧ o.length ≤ 64 ∧ o[i]? = some b) :=
  ⟨⟨(s0 : State), (by decide +kernel)⟩,
   ⟨(en [(0x18, 1)] { ends := some none } : State), (by decide +kernel)⟩,
   ⟨(en [(0x18, 1)] { ends := some (some [1,2,3,4,5]) } (some { err := false, valid := some true }) : State), ((((en [(0x18, 1)] { ends := some (some [1,2,3,4,5]) } (some { err := false, valid := some true }) : State)).sha.ends).get (by all_goals decide +kernel)).get (by all_goals decide +kernel), (0 : Nat), _, (by decide +kernel), (by decide +kernel), someGet _ (by decide +kernel)⟩⟩

theorem witness3 :
    (∃ (s : State) (c : Instr), s.mld.isSome = true ∧ (c = Instr.verify ∨ c = Instr.sign ∨ c = Instr.pubkey)) :=
  ⟨(en [(0x18, 1)] { ends := some (some [1,2,3,4,5]) } (some { err := false, valid := some true }) : State), (Sys2Proof.Instr.verify : Instr), (by decide +kernel), (by decide +kernel)⟩

namespace C4
def lw : State := { regs := regsOf [(engBase + 0x10C, 0x100#32), (engBase + 0x110, 0x40#32)] (rt [(75, 75)]), codes := (List.range 200).map fun i => (localBase 16 / 32 + i, { wf := 3 }) }

theorem witness4 :
    (∃ (s : State) (a : State) (b : State) (d : State) (m : Option (List (BitVec 8))) (g : Option (List (BitVec 8))) (k : Option (List (BitVec 8))) (x : List (BitVec 8)) (y : List (BitVec 8)) (z : List (BitVec 8)), s.mld = none ∧ ((s.setRf (engBase + 256) 1 2 0).setRb (engBase + 276) 0 true).mldRead (engBase + 264) 64 = (a, m) ∧ a.mldRead (engBase + 268) 4627 = (b, g) ∧ b.mldRead (engBase + 272) 2592 = (d, k) ∧ m = some x ∧ g = some y ∧ k = some z) ∧
    (∃ (s : State) (a : State) (b : State) (d : State) (m : Option (List (BitVec 8))) (g : Option (List (BitVec 8))) (k : Option (List (BitVec 8))), s.mld = none ∧ ((s.setRf (engBase + 256) 1 2 0).setRb (engBase + 276) 0 true).mldRead (engBase + 264) 64 = (a, m) ∧ a.mldRead (engBase + 268) 4627 = (b, g) ∧ b.mldRead (engBase + 272) 2592 = (d, k) ∧ (m = none ∨ g = none ∨ k = none)) :=
  ⟨⟨(lw : State), _, _, _, _, _, _, _, _, _, (by decide +kernel), pairEta2 _, pairEta2 _, pairEta2 _, someGet _ (by decide +kernel), someGet _ (by decide +kernel), someGet _ (by decide +kernel)⟩,
   ⟨(s0 : State), _, _, _, _, _, _, (by decide +kernel), pairEta2 _, pairEta2 _, pairEta2 _, (by decide +kernel)⟩⟩

end C4

theorem witness5 :
    (∃ (s : State) (a : State) (m : Option (List (BitVec 8))), s.mld = none ∧ ((s.setRf (engBase + 256) 1 2 1).setRb (engBase + 276) 0 true).mldRead (engBase + 264) 64 = (a, m) ∧ (m = none ∨ a.coreRange 16 (BitVec.toNat (a.rg (engBase + 268))) 4627 = none)) :=
  ⟨(s0 : State), _, _, (by decide +kernel), pairEta2 _, (by decide +kernel)⟩

theorem witness6 :
    (∃ (s : State) (y : Nat), s.mld = none ∧ s.coreRange 16 (BitVec.toNat (s.rg (engBase + 272))) 2592 = some y) ∧
    (∃ (s : State), s.mld = none ∧ s.coreRange 16 (BitVec.toNat (s.rg (engBase + 272))) 2592 = none) :=
  ⟨⟨(s0 : State), _, (by decide +kernel), someGet _ (by decide +kernel)⟩,
   ⟨(en [(0x110, 0x7FF00)] : State), (by decide +kernel), (by decide +kernel)⟩⟩

theorem witness7 :
    (∃ (reg : Nat) (n : Nat) (s : State), s.coreRange 16 (BitVec.toNat (s.rg reg)) n = none) ∧
    (∃ (reg : Nat) (n : Nat) (s : State) (a : Nat) (u : State) (x : BytesAns), s.coreRange 16 (BitVec.toNat (s.rg reg)) n = some a ∧ s.bytesGet Master.puppeteer a n = (u, x)) :=
  ⟨⟨(1073741824 : Nat), (1073741824 : Nat), (s0 : State), (by decide +kernel)⟩,
   ⟨(1073741824 : Nat), (4 : Nat), (s0 : State), _, _, _, someGet _ (by decide +kernel), pairEta2 _⟩⟩

theorem witness8 :
    (∃ (s : State), s.mld = none) ∧
    (∃ (s : State) (j : MldJob) (st : Nat) (n : Nat) (u : State), s.mld = some j ∧ ({ s with mld := none }.setRb (engBase + 276) 0 false).bytesPut Master.puppeteer j.dst (List.map some j.bytes) false = (u, st, n)) :=
  ⟨⟨(s0 : State), (by decide +kernel)⟩,
   ⟨(en [(0x18, 1)] { ends := some (some [1,2,3,4,5]) } (some { err := false, valid := some true }) : State), _, _, _, _, someGet _ (by decide +kernel), pairEta3 _⟩⟩

end EnginesStartAndEnd

/-! Witnesses of `Obligations.PacketsEnterAndTravel`. -/
namespace PacketsEnterAndTravel

def mv0 : List Moving := [{ pkt := { m := .core 1, dest := 9, op := 1, addr := cellAddr 9 0 0, rlen := 1, tag := 0 }, at_ := 0, from_ := 0 }, { pkt := { m := .core 1, dest := 9, op := 1, addr := cellAddr 9 0 0, rlen := 1, tag := 1 }, at_ := 0, from_ := 0 }, { pkt := { m := .core 1, dest := 9, op := 1, addr := cellAddr 9 0 0, rlen := 1, tag := 1 }, at_ := 9, from_ := 9 }, { pkt := { m := .host, dest := 73, vn := true, op := 8, data := [4] }, at_ := 9, from_ := 9, arrived := true }, { pkt := { m := .host, dest := 73, vn := true, op := 8, data := [4] }, at_ := 9, from_ := 9 }]
def nt (r : Map Word32) (o : List Outstanding := []) : State := { regs := (nocBase + 0x74, 0xFFFF0000#32) :: r, noc := { moving := mv0, outstanding := o }, now := 5000 }

theorem witness0 :
    (∃ (m : Master) (r : NocReq) (s : State) (tag : Nat), s.freeTag m = some tag ∧ s.responseRoom m (responseFlits r.op.toNat r.rlen.toNat) = true ∧ (orderedPort m r.op.toNat = true → ∀ (o : Outstanding), o ∈ s.noc.outstanding → o.m = m → o.dest = ((s.destOf (BitVec.toNat r.addr)).getD (masterRouter m, 0)).fst → o.epoch = s.epoch) ∧ reqMalformed r = true) ∧
    (∃ (m : Master) (r : NocReq) (s : State) (tag : Nat), s.freeTag m = some tag ∧ s.responseRoom m (responseFlits r.op.toNat r.rlen.toNat) = true ∧ (orderedPort m r.op.toNat = true → ∀ (o : Outstanding), o ∈ s.noc.outstanding → o.m = m → o.dest = ((s.destOf (BitVec.toNat r.addr)).getD (masterRouter m, 0)).fst → o.epoch = s.epoch) ∧ reqMalformed r = false ∧ s.destOf (BitVec.toNat r.addr) = none) ∧
    (∃ (m : Master) (r : NocReq) (s : State) (tag : Nat), s.freeTag m = some tag ∧ s.responseRoom m (responseFlits r.op.toNat r.rlen.toNat) = true ∧ (orderedPort m r.op.toNat = true → ∀ (o : Outstanding), o ∈ s.noc.outstanding → o.m = m → o.dest = ((s.destOf (BitVec.toNat r.addr)).getD (masterRouter m, 0)).fst → o.epoch = s.epoch) ∧ reqMalformed r = false ∧ (s.destOf (BitVec.toNat r.addr)).isSome = true) :=
  ⟨⟨(Sys2Proof.Master.puppeteer : Master), ({ op := 0x1#4, addr := 0x4000000021#40, rlen := 0x2#4, rsize := 0x0#3, slots := 0x000000000000000000000000#96, bytes := 0x00000000#32, reserved := false, data := [] } : NocReq), (s0 : State), _, someGet _ (by decide +kernel), roomOk (by decide +kernel), (by decide +kernel), (by decide +kernel)⟩,
   ⟨(Sys2Proof.Master.puppeteer : Master), ({ op := 0x4#4, addr := 0x4180000000#40, rlen := 0x0#4, rsize := 0x2#3, slots := 0x000000000000000000000000#96, bytes := 0x00000000#32, reserved := false, data := [] } : NocReq), (s0 : State), _, someGet _ (by decide +kernel), roomOk (by decide +kernel), (by decide +kernel), (by decide +kernel), (by decide +kernel)⟩,
   ⟨(Sys2Proof.Master.puppeteer : Master), ({ op := 0x1#4, addr := 0x4000000020#40, rlen := 0x2#4, rsize := 0x0#3, slots := 0x000000000000000000000000#96, bytes := 0x00000000#32, reserved := false, data := [] } : NocReq), (s0 : State), _, someGet _ (by decide +kernel), roomOk (by decide +kernel), (by decide +kernel), (by decide +kernel), (by decide +kernel)⟩⟩

theorem witness1 :
    (∃ (m : Master) (r : NocReq) (s : State), (s.freeTag m = none ∨ s.responseRoom m (responseFlits r.op.toNat r.rlen.toNat) = false ∨ orderedPort m r.op.toNat = true ∧ ∃ (o : Outstanding), o ∈ s.noc.outstanding ∧ o.m = m ∧ o.epoch ≠ s.epoch ∧ o.dest = ((s.destOf (BitVec.toNat r.addr)).getD (masterRouter m, 0)).fst)) :=
  ⟨(Sys2Proof.Master.core 1 : Master), ({ op := 0x1#4, addr := 0x4000000020#40, rlen := 0x2#4, rsize := 0x0#3, slots := 0x000000000000000000000000#96, bytes := 0x00000000#32, reserved := false, data := [] } : NocReq), ({ noc := { outstanding := (List.range 256).map (fun t => { m := .core 1, tag := t, dest := 3, addr := 3, op := 1, epoch := false, sent := 0 }) } } : State), (by decide +kernel)⟩

theorem witness2 :
    (∃ (r : NocReq) (st : BitVec 8), rspMalformed r st.toNat = true) ∧
    (∃ (r : NocReq) (st : BitVec 8), rspMalformed r st.toNat = false) :=
  ⟨⟨({ op := 0x9#4, addr := 0x0000000000#40, rlen := 0x0#4, rsize := 0x0#3, slots := 0x000000000000000000000000#96, bytes := 0x00000000#32, reserved := false, data := [0x0000000000000000000000000000000000000000000000000000000000000005#256] } : NocReq), (0x00#8 : BitVec 8), (by decide +kernel)⟩,
   ⟨({ op := 0x8#4, addr := 0x0000000000#40, rlen := 0x0#4, rsize := 0x0#3, slots := 0x000000000000000000000000#96, bytes := 0x00000000#32, reserved := false, data := [0x0000000000000000000000000000000000000000000000000000000000000005#256] } : NocReq), (0x00#8 : BitVec 8), (by decide +kernel)⟩⟩

theorem witness3 :
    (∃ (i : Nat) (s : State) (n : Nat) (p : Moving), s.behind i p = false ∧ p.arrived = false ∧ s.noc.moving[i]? = some p ∧ portHop p.at_ (s.rtEntry (b2n p.pkt.epoch) p.at_ p.pkt.dest) = Hop.next n ∧ s.inputRoom p.at_ n p.pkt = true) ∧
    (∃ (i : Nat) (s : State) (n : Nat) (p : Moving), s.behind i p = false ∧ p.arrived = false ∧ s.noc.moving[i]? = some p ∧ portHop p.at_ (s.rtEntry (b2n p.pkt.epoch) p.at_ p.pkt.dest) = Hop.next n ∧ s.inputRoom p.at_ n p.pkt = false) ∧
    (∃ (i : Nat) (s : State) (p : Moving), s.noc.moving[i]? = some p ∧ p.arrived = false ∧ s.behind i p = false ∧ portHop p.at_ (s.rtEntry (b2n p.pkt.epoch) p.at_ p.pkt.dest) = Hop.local_ ∧ (¬(p.pkt.vn = false ∧ p.pkt.dport = 0 ∧ p.at_ < 64 ∧ s.pstate p.at_ ≠ 0))) ∧
    (∃ (i : Nat) (s : State) (p : Moving), s.noc.moving[i]? = some p ∧ p.arrived = false ∧ s.behind i p = false ∧ portHop p.at_ (s.rtEntry (b2n p.pkt.epoch) p.at_ p.pkt.dest) = Hop.local_ ∧ (p.pkt.vn = false ∧ p.pkt.dport = 0 ∧ p.at_ < 64 ∧ s.pstate p.at_ ≠ 0)) ∧
    (∃ (i : Nat) (s : State) (p : Moving), s.noc.moving[i]? = some p ∧ p.arrived = false ∧ s.behind i p = false ∧ portHop p.at_ (s.rtEntry (b2n p.pkt.epoch) p.at_ p.pkt.dest) = Hop.none_ ∧ p.pkt.vn = false) ∧
    (∃ (i : Nat) (s : State) (p : Moving), s.noc.moving[i]? = some p ∧ p.arrived = false ∧ s.behind i p = false ∧ (portHop p.at_ (s.rtEntry (b2n p.pkt.epoch) p.at_ p.pkt.dest) = Hop.missing ∨ portHop p.at_ (s.rtEntry (b2n p.pkt.epoch) p.at_ p.pkt.dest) = Hop.none_ ∧ p.pkt.vn = true)) :=
  ⟨⟨(0 : Nat), (nt [(rtReg 0 0 8, 0x10#32), (rtReg 0 9 8, 0x40#32)] : State), (1 : Nat), (((nt [(rtReg 0 0 8, 0x10#32), (rtReg 0 9 8, 0x40#32)] : State)).noc.moving[((0 : Nat))]?).get (by all_goals decide +kernel), (by decide +kernel), (by decide +kernel), (by first | decide +kernel | exact someGet _ (by decide +kernel)), (by decide +kernel), (by decide +kernel)⟩,
   ⟨(0 : Nat), ({ regs := [(nocBase + 0x74, 0xFFFF0000#32), (rtReg 0 0 8, 0x10#32)], noc := { moving := [{ pkt := { m := .core 1, dest := 9, op := 1, addr := 5 }, at_ := 0, from_ := 0 }, { pkt := { m := .host, dest := 9, op := 3, addr := 5, data := List.replicate 15 0 }, at_ := 1, from_ := 0 }] } } : State), (1 : Nat), ((({ regs := [(nocBase + 0x74, 0xFFFF0000#32), (rtReg 0 0 8, 0x10#32)], noc := { moving := [{ pkt := { m := .core 1, dest := 9, op := 1, addr := 5 }, at_ := 0, from_ := 0 }, { pkt := { m := .host, dest := 9, op := 3, addr := 5, data := List.replicate 15 0 }, at_ := 1, from_ := 0 }] } } : State)).noc.moving[((0 : Nat))]?).get (by all_goals decide +kernel), (by decide +kernel), (by decide +kernel), (by first | decide +kernel | exact someGet _ (by decide +kernel)), (by decide +kernel), (by decide +kernel)⟩,
   ⟨(2 : Nat), (nt [(rtReg 0 0 8, 0x10#32), (rtReg 0 9 8, 0x40#32)] : State), _, someGet _ (by decide +kernel), (by decide +kernel), (by decide +kernel), (by decide +kernel), (by decide +kernel)⟩,
   ⟨(2 : Nat), (nt [(rtReg 0 0 8, 0xF0#32), (rtReg 0 9 8, 0x40#32), (rtReg 0 9 72, 0xF0#32), (regionBase 9 + 0x20C, 2#32)] : State), _, someGet _ (by decide +kernel), (by decide +kernel), (by decide +kernel), (by decide +kernel), (by decide +kernel)⟩,
   ⟨(0 : Nat), (nt [(rtReg 0 0 8, 0xF0#32), (rtReg 0 9 8, 0x40#32), (rtReg 0 9 72, 0xF0#32), (regionBase 9 + 0x20C, 2#32)] : State), _, someGet _ (by decide +kernel), (by decide +kernel), (by decide +kernel), (by decide +kernel), (by decide +kernel)⟩,
   ⟨(0 : Nat), ({ (nt [(rtReg 0 0 8, 0x20#32), (rtReg 0 9 8, 0x50#32), (rtReg 0 9 72, 0x30#32)] [{ m := .puppeteer, tag := 0, dest := 0, addr := 3, op := 1, epoch := true, sent := 0 }]) with regs := [(probeReg 2, BitVec.ofNat 32 (2^31 + 15 * 256 + 9 * 65536)), (probeReg 2 + 4, 0xFFFF0000#32), (probeReg 2 + 0xC, 0xFFFFFFFF#32)] } : State), _, someGet _ (by decide +kernel), (by decide +kernel), (by decide +kernel), (by decide +kernel)⟩⟩

theorem witness4 :
    (∃ (i : Nat) (s : State) (p : Moving), s.noc.moving[i]? = some p ∧ (p.arrived = true ∨ s.behind i p = true)) ∧
    (∃ (i : Nat) (s : State) (p : Moving), s.noc.moving[i]? = some p ∧ p.arrived = false ∧ s.settled = true) :=
  ⟨⟨(1 : Nat), (nt [(rtReg 0 0 8, 0x10#32), (rtReg 0 9 8, 0x40#32)] : State), _, someGet _ (by decide +kernel), (by decide +kernel)⟩,
   ⟨(0 : Nat), (nt [(rtReg 0 0 8, 0x10#32), (rtReg 0 9 8, 0x40#32)] : State), _, someGet _ (by decide +kernel), (by decide +kernel), (by decide +kernel)⟩⟩

end PacketsEnterAndTravel

/-! Witnesses of `Obligations.RequestsAreAnswered`. -/
namespace RequestsAreAnswered

def rq (op a : Nat) (d : List Line := []) (at_ : Nat := 9) : Moving := { pkt := { m := .puppeteer, dest := at_, op := op, addr := a, rlen := if op = 1 then 2 else 0, rsize := if 3 < op then 2 else 0, slots := 0xFFF123, bytes := 0xF0, tag := 0, data := d }, at_ := at_, from_ := at_, arrived := true }
def rp (op tag : Nat) (d : List Line := []) : Moving := { pkt := { m := .puppeteer, dest := 9, vn := true, op := op, addr := 0x44, tag := tag, data := d, status := 2 }, at_ := 9, from_ := 9, arrived := true }
def ou (t : Nat) : Outstanding := { m := .puppeteer, tag := t, dest := 0, addr := 3, op := 1, epoch := true, sent := 5 }
def nn (l : List Moving) : State := { regs := [(nocBase, 0x10000#32), (nocBase + 0x74, 0xFFFF0000#32), (memctl 9 0, 0x9#32), (0x4200000070, 3#32)], noc := { moving := l, outstanding := [ou 0, ou 3] }, now := 1005 }

theorem witness0 :
    (∃ (i : Nat) (bad : BitVec 8) (b1 : Bool) (c : Bool → Instr) (op : Nat) (s : State) (p : Moving), s.requestAt i op = some p ∧ ((c = fun (h : Bool) => Instr.rd i h) ∧ op = 1 ∨ (c = fun (h : Bool) => Instr.wr i h bad) ∧ op = 2 ∨ (c = fun (h : Bool) => Instr.wrb i h b1) ∧ op = 3 ∨ (c = fun (h : Bool) => Instr.rgr i h) ∧ op = 4 ∨ (c = fun (h : Bool) => Instr.rgw i h b1) ∧ op = 5) ∧ s.takesNow i p.pkt = false) ∧
    (∃ (i : Nat) (bad : BitVec 8) (b1 : Bool) (c : Bool → Instr) (op : Nat) (s : State) (p : Moving), s.requestAt i op = some p ∧ ((c = fun (h : Bool) => Instr.rd i h) ∧ op = 1 ∨ (c = fun (h : Bool) => Instr.wr i h bad) ∧ op = 2 ∨ (c = fun (h : Bool) => Instr.wrb i h b1) ∧ op = 3 ∨ (c = fun (h : Bool) => Instr.rgr i h) ∧ op = 4 ∨ (c = fun (h : Bool) => Instr.rgw i h b1) ∧ op = 5) ∧ s.takesNow i p.pkt = true ∧ op = 1 ∧ inRegisters p.pkt.addr = true) ∧
    (∃ (i : Nat) (bad : BitVec 8) (b1 : Bool) (c : Bool → Instr) (op : Nat) (s : State) (p : Moving), s.requestAt i op = some p ∧ ((c = fun (h : Bool) => Instr.rd i h) ∧ op = 1 ∨ (c = fun (h : Bool) => Instr.wr i h bad) ∧ op = 2 ∨ (c = fun (h : Bool) => Instr.wrb i h b1) ∧ op = 3 ∨ (c = fun (h : Bool) => Instr.rgr i h) ∧ op = 4 ∨ (c = fun (h : Bool) => Instr.rgw i h b1) ∧ op = 5) ∧ s.takesNow i p.pkt = true ∧ (op = 2 ∨ op = 3) ∧ inRegisters p.pkt.addr = true) ∧
    (∃ (i : Nat) (bad : BitVec 8) (b1 : Bool) (c : Bool → Instr) (op : Nat) (s : State) (p : Moving), s.requestAt i op = some p ∧ ((c = fun (h : Bool) => Instr.rd i h) ∧ op = 1 ∨ (c = fun (h : Bool) => Instr.wr i h bad) ∧ op = 2 ∨ (c = fun (h : Bool) => Instr.wrb i h b1) ∧ op = 3 ∨ (c = fun (h : Bool) => Instr.rgr i h) ∧ op = 4 ∨ (c = fun (h : Bool) => Instr.rgw i h b1) ∧ op = 5) ∧ s.takesNow i p.pkt = true ∧ op = 4 ∧ inRegisters p.pkt.addr = false) ∧
    (∃ (i : Nat) (bad : BitVec 8) (b1 : Bool) (c : Bool → Instr) (op : Nat) (s : State) (p : Moving), s.requestAt i op = some p ∧ ((c = fun (h : Bool) => Instr.rd i h) ∧ op = 1 ∨ (c = fun (h : Bool) => Instr.wr i h bad) ∧ op = 2 ∨ (c = fun (h : Bool) => Instr.wrb i h b1) ∧ op = 3 ∨ (c = fun (h : Bool) => Instr.rgr i h) ∧ op = 4 ∨ (c = fun (h : Bool) => Instr.rgw i h b1) ∧ op = 5) ∧ s.takesNow i p.pkt = true ∧ op = 5 ∧ inRegisters p.pkt.addr = false) ∧
    (∃ (i : Nat) (bad : BitVec 8) (b1 : Bool) (c : Bool → Instr) (op : Nat) (s : State) (st : Nat) (p : Moving) (u : State) (l : List Line), ((c = fun (h : Bool) => Instr.rd i h) ∧ op = 1 ∨ (c = fun (h : Bool) => Instr.wr i h bad) ∧ op = 2 ∨ (c = fun (h : Bool) => Instr.wrb i h b1) ∧ op = 3 ∨ (c = fun (h : Bool) => Instr.rgr i h) ∧ op = 4 ∨ (c = fun (h : Bool) => Instr.rgw i h b1) ∧ op = 5) ∧ op = 1 ∧ inRegisters p.pkt.addr = false ∧ s.takesNow i p.pkt = true ∧ s.requestAt i op = some p ∧ State.wordsAtTarget p.pkt.m p.pkt.rlen p.pkt.addr { s with noc := { s.noc with moving := s.noc.moving.eraseIdx i } } = (u, st, l) ∧ st = 0) ∧
    (∃ (i : Nat) (bad : BitVec 8) (b1 : Bool) (c : Bool → Instr) (op : Nat) (s : State) (p : Moving) (u : State) (st : Nat), ((c = fun (h : Bool) => Instr.rd i h) ∧ op = 1 ∨ (c = fun (h : Bool) => Instr.wr i h bad) ∧ op = 2 ∨ (c = fun (h : Bool) => Instr.wrb i h b1) ∧ op = 3 ∨ (c = fun (h : Bool) => Instr.rgr i h) ∧ op = 4 ∨ (c = fun (h : Bool) => Instr.rgw i h b1) ∧ op = 5) ∧ op = 2 ∧ inRegisters p.pkt.addr = false ∧ s.takesNow i p.pkt = true ∧ s.requestAt i op = some p ∧ (State.wrWords p.pkt.m p.pkt.slots 0 p.pkt.addr (List.map (fun (e : Line × Nat) => if bit (if op = 2 then bad else BitVec.ofNat 8 (b2n b1)) e.snd = true then linePoison e.fst else e.fst) p.pkt.data.zipIdx) ({ s with noc := { s.noc with moving := s.noc.moving.eraseIdx i } }.linkBad (List.filter (fun (k : Nat) => bit (if op = 2 then bad else BitVec.ofNat 8 (b2n b1)) k) (List.range p.pkt.data.length)).length) = (u, st))) ∧
    (∃ (i : Nat) (bad : BitVec 8) (b1 : Bool) (c : Bool → Instr) (op : Nat) (s : State) (p : Moving) (u : State) (st : Nat), ((c = fun (h : Bool) => Instr.rd i h) ∧ op = 1 ∨ (c = fun (h : Bool) => Instr.wr i h bad) ∧ op = 2 ∨ (c = fun (h : Bool) => Instr.wrb i h b1) ∧ op = 3 ∨ (c = fun (h : Bool) => Instr.rgr i h) ∧ op = 4 ∨ (c = fun (h : Bool) => Instr.rgw i h b1) ∧ op = 5) ∧ op = 3 ∧ inRegisters p.pkt.addr = false ∧ s.takesNow i p.pkt = true ∧ s.requestAt i op = some p ∧ (({ s with noc := { s.noc with moving := s.noc.moving.eraseIdx i } }.linkBad (List.filter (fun (k : Nat) => bit (if op = 2 then bad else BitVec.ofNat 8 (b2n b1)) k) (List.range p.pkt.data.length)).length).putAtTarget p.pkt.m p.pkt.addr 0 p.pkt.bytes (plainBytes p.pkt.bytes ((List.map (fun (e : Line × Nat) => if bit (if op = 2 then bad else BitVec.ofNat 8 (b2n b1)) e.snd = true then linePoison e.fst else e.fst) p.pkt.data.zipIdx).headD 0)) = (u, st))) ∧
    (∃ (i : Nat) (bad : BitVec 8) (b1 : Bool) (c : Bool → Instr) (op : Nat) (s : State) (p : Moving) (u : State) (st : Nat) (x : Nat), ((c = fun (h : Bool) => Instr.rd i h) ∧ op = 1 ∨ (c = fun (h : Bool) => Instr.wr i h bad) ∧ op = 2 ∨ (c = fun (h : Bool) => Instr.wrb i h b1) ∧ op = 3 ∨ (c = fun (h : Bool) => Instr.rgr i h) ∧ op = 4 ∨ (c = fun (h : Bool) => Instr.rgw i h b1) ∧ op = 5) ∧ op = 4 ∧ inRegisters p.pkt.addr = true ∧ s.takesNow i p.pkt = true ∧ s.requestAt i op = some p ∧ ({ s with noc := { s.noc with moving := s.noc.moving.eraseIdx i } }.regGet p.pkt.m (p.pkt.addr - 283467841536) (if p.pkt.rsize = 2 then 4 else if p.pkt.rsize = 3 then 8 else 0) = (u, st, x))) ∧
    (∃ (i : Nat) (bad : BitVec 8) (b1 : Bool) (c : Bool → Instr) (op : Nat) (s : State) (p : Moving) (u : State) (st : Nat), ((c = fun (h : Bool) => Instr.rd i h) ∧ op = 1 ∨ (c = fun (h : Bool) => Instr.wr i h bad) ∧ op = 2 ∨ (c = fun (h : Bool) => Instr.wrb i h b1) ∧ op = 3 ∨ (c = fun (h : Bool) => Instr.rgr i h) ∧ op = 4 ∨ (c = fun (h : Bool) => Instr.rgw i h b1) ∧ op = 5) ∧ op = 5 ∧ inRegisters p.pkt.addr = true ∧ s.takesNow i p.pkt = true ∧ s.requestAt i op = some p ∧ (({ s with noc := { s.noc with moving := s.noc.moving.eraseIdx i } }.linkBad (List.filter (fun (k : Nat) => bit (if op = 2 then bad else BitVec.ofNat 8 (b2n b1)) k) (List.range p.pkt.data.length)).length).regPut p.pkt.m (p.pkt.addr - 283467841536) (if p.pkt.rsize = 2 then 4 else if p.pkt.rsize = 3 then 8 else 0) (fld ((List.map (fun (e : Line × Nat) => if bit (if op = 2 then bad else BitVec.ofNat 8 (b2n b1)) e.snd = true then linePoison e.fst else e.fst) p.pkt.data.zipIdx).headD 0) 0 64 % 2 ^ (8 * if p.pkt.rsize = 2 then 4 else if p.pkt.rsize = 3 then 8 else 0)) (fld ((List.map (fun (e : Line × Nat) => if bit (if op = 2 then bad else BitVec.ofNat 8 (b2n b1)) e.snd = true then linePoison e.fst else e.fst) p.pkt.data.zipIdx).headD 0) 252 2 != 0) = (u, st))) :=
  ⟨⟨(1 : Nat), (0x00#8 : BitVec 8), (false : Bool), ((fun h => Instr.rd 1 h) : Bool → Instr), (1 : Nat), ({ regs := [(dramBase 0, 1#32)], drams := [(0, { st := .run, filled := true })], noc := { moving := [{ pkt := { m := .core 1, dest := 64, op := 1, addr := 0, rlen := 1 }, at_ := 64, from_ := 64, arrived := true }, { pkt := { m := .core 1, dest := 64, op := 1, addr := 0x1000, rlen := 1 }, at_ := 64, from_ := 64, arrived := true }] } } : State), _, someGet _ (by decide +kernel), Or.inl ⟨rfl, rfl⟩, (by decide +kernel)⟩,
   ⟨(3 : Nat), (0x00#8 : BitVec 8), (false : Bool), ((fun h => Instr.rd 3 h) : Bool → Instr), _, (nn [rq 1 (cellAddr 9 0 4), rq 2 (cellAddr 9 1 4) [5, 6], rq 3 (cellAddr 9 2 4) [0x123456789ABCDEF], rq 1 0x4200000080, rq 1 (cellAddr 9 0 4) ] : State), _, someGet _ (by decide +kernel), Or.inl ⟨rfl, rfl⟩, (by decide +kernel), rfl, (by decide +kernel)⟩,
   ⟨(0 : Nat), (0x00#8 : BitVec 8), (false : Bool), ((fun h => Instr.wr 0 h 0) : Bool → Instr), (2 : Nat), (nn [rq 2 0x4200000084 [1], rq 3 0x4200000020 [2]] : State), _, someGet _ (by decide +kernel), Or.inr (Or.inl ⟨rfl, rfl⟩), (by decide +kernel), (by decide +kernel), (by decide +kernel)⟩,
   ⟨(3 : Nat), (0x00#8 : BitVec 8), (false : Bool), ((fun h => Instr.rgr 3 h) : Bool → Instr), _, (nn [rq 4 0x4200000084, rq 5 0x4200000020 [5 + 2^252], rq 5 0x4200000010 [5], rq 4 0x42, rq 5 0x9000 [6]] : State), _, someGet _ (by decide +kernel), Or.inr (Or.inr (Or.inr (Or.inl ⟨rfl, rfl⟩))), (by decide +kernel), rfl, (by decide +kernel)⟩,
   ⟨(4 : Nat), (0x00#8 : BitVec 8), (false : Bool), ((fun h => Instr.rgw 4 h false) : Bool → Instr), _, (nn [rq 4 0x4200000084, rq 5 0x4200000020 [5 + 2^252], rq 5 0x4200000010 [5], rq 4 0x42, rq 5 0x9000 [6]] : State), _, someGet _ (by decide +kernel), Or.inr (Or.inr (Or.inr (Or.inr ⟨rfl, rfl⟩))), (by decide +kernel), rfl, (by decide +kernel)⟩,
   ⟨(0 : Nat), (0x00#8 : BitVec 8), (false : Bool), ((fun h => Instr.rd 0 h) : Bool → Instr), 1, (nn [rq 1 (cellAddr 9 0 4), rq 2 (cellAddr 9 1 4) [5, 6], rq 3 (cellAddr 9 2 4) [0x123456789ABCDEF], rq 1 0x4200000080, rq 1 (cellAddr 9 0 4) ] : State), ((State.wordsAtTarget ((((nn [rq 1 (cellAddr 9 0 4), rq 2 (cellAddr 9 1 4) [5, 6], rq 3 (cellAddr 9 2 4) [0x123456789ABCDEF], rq 1 0x4200000080, rq 1 (cellAddr 9 0 4) ] : State)).requestAt ((0 : Nat)) (1)).get (by all_goals decide +kernel)).pkt.m ((((nn [rq 1 (cellAddr 9 0 4), rq 2 (cellAddr 9 1 4) [5, 6], rq 3 (cellAddr 9 2 4) [0x123456789ABCDEF], rq 1 0x4200000080, rq 1 (cellAddr 9 0 4) ] : State)).requestAt ((0 : Nat)) (1)).get (by all_goals decide +kernel)).pkt.rlen ((((nn [rq 1 (cellAddr 9 0 4), rq 2 (cellAddr 9 1 4) [5, 6], rq 3 (cellAddr 9 2 4) [0x123456789ABCDEF], rq 1 0x4200000080, rq 1 (cellAddr 9 0 4) ] : State)).requestAt ((0 : Nat)) (1)).get (by all_goals decide +kernel)).pkt.addr { ((nn [rq 1 (cellAddr 9 0 4), rq 2 (cellAddr 9 1 4) [5, 6], rq 3 (cellAddr 9 2 4) [0x123456789ABCDEF], rq 1 0x4200000080, rq 1 (cellAddr 9 0 4) ] : State)) with noc := { ((nn [rq 1 (cellAddr 9 0 4), rq 2 (cellAddr 9 1 4) [5, 6], rq 3 (cellAddr 9 2 4) [0x123456789ABCDEF], rq 1 0x4200000080, rq 1 (cellAddr 9 0 4) ] : State)).noc with moving := ((nn [rq 1 (cellAddr 9 0 4), rq 2 (cellAddr 9 1 4) [5, 6], rq 3 (cellAddr 9 2 4) [0x123456789ABCDEF], rq 1 0x4200000080, rq 1 (cellAddr 9 0 4) ] : State)).noc.moving.eraseIdx ((0 : Nat)) } }).2).1, (((nn [rq 1 (cellAddr 9 0 4), rq 2 (cellAddr 9 1 4) [5, 6], rq 3 (cellAddr 9 2 4) [0x123456789ABCDEF], rq 1 0x4200000080, rq 1 (cellAddr 9 0 4) ] : State)).requestAt ((0 : Nat)) (1)).get (by all_goals decide +kernel), (State.wordsAtTarget ((((nn [rq 1 (cellAddr 9 0 4), rq 2 (cellAddr 9 1 4) [5, 6], rq 3 (cellAddr 9 2 4) [0x123456789ABCDEF], rq 1 0x4200000080, rq 1 (cellAddr 9 0 4) ] : State)).requestAt ((0 : Nat)) (1)).get (by all_goals decide +kernel)).pkt.m ((((nn [rq 1 (cellAddr 9 0 4), rq 2 (cellAddr 9 1 4) [5, 6], rq 3 (cellAddr 9 2 4) [0x123456789ABCDEF], rq 1 0x4200000080, rq 1 (cellAddr 9 0 4) ] : State)).requestAt ((0 : Nat)) (1)).get (by all_goals decide +kernel)).pkt.rlen ((((nn [rq 1 (cellAddr 9 0 4), rq 2 (cellAddr 9 1 4) [5, 6], rq 3 (cellAddr 9 2 4) [0x123456789ABCDEF], rq 1 0x4200000080, rq 1 (cellAddr 9 0 4) ] : State)).requestAt ((0 : Nat)) (1)).get (by all_goals decide +kernel)).pkt.addr { ((nn [rq 1 (cellAddr 9 0 4), rq 2 (cellAddr 9 1 4) [5, 6], rq 3 (cellAddr 9 2 4) [0x123456789ABCDEF], rq 1 0x4200000080, rq 1 (cellAddr 9 0 4) ] : State)) with noc := { ((nn [rq 1 (cellAddr 9 0 4), rq 2 (cellAddr 9 1 4) [5, 6], rq 3 (cellAddr 9 2 4) [0x123456789ABCDEF], rq 1 0x4200000080, rq 1 (cellAddr 9 0 4) ] : State)).noc with moving := ((nn [rq 1 (cellAddr 9 0 4), rq 2 (cellAddr 9 1 4) [5, 6], rq 3 (cellAddr 9 2 4) [0x123456789ABCDEF], rq 1 0x4200000080, rq 1 (cellAddr 9 0 4) ] : State)).noc.moving.eraseIdx ((0 : Nat)) } }).1, ((State.wordsAtTarget ((((nn [rq 1 (cellAddr 9 0 4), rq 2 (cellAddr 9 1 4) [5, 6], rq 3 (cellAddr 9 2 4) [0x123456789ABCDEF], rq 1 0x4200000080, rq 1 (cellAddr 9 0 4) ] : State)).requestAt ((0 : Nat)) (1)).get (by all_goals decide +kernel)).pkt.m ((((nn [rq 1 (cellAddr 9 0 4), rq 2 (cellAddr 9 1 4) [5, 6], rq 3 (cellAddr 9 2 4) [0x123456789ABCDEF], rq 1 0x4200000080, rq 1 (cellAddr 9 0 4) ] : State)).requestAt ((0 : Nat)) (1)).get (by all_goals decide +kernel)).pkt.rlen ((((nn [rq 1 (cellAddr 9 0 4), rq 2 (cellAddr 9 1 4) [5, 6], rq 3 (cellAddr 9 2 4) [0x123456789ABCDEF], rq 1 0x4200000080, rq 1 (cellAddr 9 0 4) ] : State)).requestAt ((0 : Nat)) (1)).get (by all_goals decide +kernel)).pkt.addr { ((nn [rq 1 (cellAddr 9 0 4), rq 2 (cellAddr 9 1 4) [5, 6], rq 3 (cellAddr 9 2 4) [0x123456789ABCDEF], rq 1 0x4200000080, rq 1 (cellAddr 9 0 4) ] : State)) with noc := { ((nn [rq 1 (cellAddr 9 0 4), rq 2 (cellAddr 9 1 4) [5, 6], rq 3 (cellAddr 9 2 4) [0x123456789ABCDEF], rq 1 0x4200000080, rq 1 (cellAddr 9 0 4) ] : State)).noc with moving := ((nn [rq 1 (cellAddr 9 0 4), rq 2 (cellAddr 9 1 4) [5, 6], rq 3 (cellAddr 9 2 4) [0x123456789ABCDEF], rq 1 0x4200000080, rq 1 (cellAddr 9 0 4) ] : State)).noc.moving.eraseIdx ((0 : Nat)) } }).2).2, Or.inl ⟨rfl, rfl⟩, (by first | decide +kernel | exact rfl), (by decide +kernel), (by decide +kernel), (by first | decide +kernel | exact someGet _ (by decide +kernel)), (by first | decide +kernel | exact pairEta3 _), (by decide +kernel)⟩,
   ⟨(1 : Nat), (0x00#8 : BitVec 8), (false : Bool), ((fun h => Instr.wr 1 h 0) : Bool → Instr), 2, (nn [rq 1 (cellAddr 9 0 4), rq 2 (cellAddr 9 1 4) [5, 6], rq 3 (cellAddr 9 2 4) [0x123456789ABCDEF], rq 1 0x4200000080, rq 1 (cellAddr 9 0 4) ] : State), (((nn [rq 1 (cellAddr 9 0 4), rq 2 (cellAddr 9 1 4) [5, 6], rq 3 (cellAddr 9 2 4) [0x123456789ABCDEF], rq 1 0x4200000080, rq 1 (cellAddr 9 0 4) ] : State)).requestAt ((1 : Nat)) (2)).get (by all_goals decide +kernel), (State.wrWords ((((nn [rq 1 (cellAddr 9 0 4), rq 2 (cellAddr 9 1 4) [5, 6], rq 3 (cellAddr 9 2 4) [0x123456789ABCDEF], rq 1 0x4200000080, rq 1 (cellAddr 9 0 4) ] : State)).requestAt ((1 : Nat)) (2)).get (by all_goals decide +kernel)).pkt.m ((((nn [rq 1 (cellAddr 9 0 4), rq 2 (cellAddr 9 1 4) [5, 6], rq 3 (cellAddr 9 2 4) [0x123456789ABCDEF], rq 1 0x4200000080, rq 1 (cellAddr 9 0 4) ] : State)).requestAt ((1 : Nat)) (2)).get (by all_goals decide +kernel)).pkt.slots 0 ((((nn [rq 1 (cellAddr 9 0 4), rq 2 (cellAddr 9 1 4) [5, 6], rq 3 (cellAddr 9 2 4) [0x123456789ABCDEF], rq 1 0x4200000080, rq 1 (cellAddr 9 0 4) ] : State)).requestAt ((1 : Nat)) (2)).get (by all_goals decide +kernel)).pkt.addr (List.map (fun (e : Line × Nat) => if bit (if (2) = 2 then ((0x00#8 : BitVec 8)) else BitVec.ofNat 8 (b2n ((false : Bool)))) e.snd = true then linePoison e.fst else e.fst) ((((nn [rq 1 (cellAddr 9 0 4), rq 2 (cellAddr 9 1 4) [5, 6], rq 3 (cellAddr 9 2 4) [0x123456789ABCDEF], rq 1 0x4200000080, rq 1 (cellAddr 9 0 4) ] : State)).requestAt ((1 : Nat)) (2)).get (by all_goals decide +kernel)).pkt.data.zipIdx) ({ ((nn [rq 1 (cellAddr 9 0 4), rq 2 (cellAddr 9 1 4) [5, 6], rq 3 (cellAddr 9 2 4) [0x123456789ABCDEF], rq 1 0x4200000080, rq 1 (cellAddr 9 0 4) ] : State)) with noc := { ((nn [rq 1 (cellAddr 9 0 4), rq 2 (cellAddr 9 1 4) [5, 6], rq 3 (cellAddr 9 2 4) [0x123456789ABCDEF], rq 1 0x4200000080, rq 1 (cellAddr 9 0 4) ] : State)).noc with moving := ((nn [rq 1 (cellAddr 9 0 4), rq 2 (cellAddr 9 1 4) [5, 6], rq 3 (cellAddr 9 2 4) [0x123456789ABCDEF], rq 1 0x4200000080, rq 1 (cellAddr 9 0 4) ] : State)).noc.moving.eraseIdx ((1 : Nat)) } }.linkBad (List.filter (fun (k : Nat) => bit (if (2) = 2 then ((0x00#8 : BitVec 8)) else BitVec.ofNat 8 (b2n ((false : Bool)))) k) (List.range ((((nn [rq 1 (cellAddr 9 0 4), rq 2 (cellAddr 9 1 4) [5, 6], rq 3 (cellAddr 9 2 4) [0x123456789ABCDEF], rq 1 0x4200000080, rq 1 (cellAddr 9 0 4) ] : State)).requestAt ((1 : Nat)) (2)).get (by all_goals decide +kernel)).pkt.data.length)).length)).1, (State.wrWords ((((nn [rq 1 (cellAddr 9 0 4), rq 2 (cellAddr 9 1 4) [5, 6], rq 3 (cellAddr 9 2 4) [0x123456789ABCDEF], rq 1 0x4200000080, rq 1 (cellAddr 9 0 4) ] : State)).requestAt ((1 : Nat)) (2)).get (by all_goals decide +kernel)).pkt.m ((((nn [rq 1 (cellAddr 9 0 4), rq 2 (cellAddr 9 1 4) [5, 6], rq 3 (cellAddr 9 2 4) [0x123456789ABCDEF], rq 1 0x4200000080, rq 1 (cellAddr 9 0 4) ] : State)).requestAt ((1 : Nat)) (2)).get (by all_goals decide +kernel)).pkt.slots 0 ((((nn [rq 1 (cellAddr 9 0 4), rq 2 (cellAddr 9 1 4) [5, 6], rq 3 (cellAddr 9 2 4) [0x123456789ABCDEF], rq 1 0x4200000080, rq 1 (cellAddr 9 0 4) ] : State)).requestAt ((1 : Nat)) (2)).get (by all_goals decide +kernel)).pkt.addr (List.map (fun (e : Line × Nat) => if bit (if (2) = 2 then ((0x00#8 : BitVec 8)) else BitVec.ofNat 8 (b2n ((false : Bool)))) e.snd = true then linePoison e.fst else e.fst) ((((nn [rq 1 (cellAddr 9 0 4), rq 2 (cellAddr 9 1 4) [5, 6], rq 3 (cellAddr 9 2 4) [0x123456789ABCDEF], rq 1 0x4200000080, rq 1 (cellAddr 9 0 4) ] : State)).requestAt ((1 : Nat)) (2)).get (by all_goals decide +kernel)).pkt.data.zipIdx) ({ ((nn [rq 1 (cellAddr 9 0 4), rq 2 (cellAddr 9 1 4) [5, 6], rq 3 (cellAddr 9 2 4) [0x123456789ABCDEF], rq 1 0x4200000080, rq 1 (cellAddr 9 0 4) ] : State)) with noc := { ((nn [rq 1 (cellAddr 9 0 4), rq 2 (cellAddr 9 1 4) [5, 6], rq 3 (cellAddr 9 2 4) [0x123456789ABCDEF], rq 1 0x4200000080, rq 1 (cellAddr 9 0 4) ] : State)).noc with moving := ((nn [rq 1 (cellAddr 9 0 4), rq 2 (cellAddr 9 1 4) [5, 6], rq 3 (cellAddr 9 2 4) [0x123456789ABCDEF], rq 1 0x4200000080, rq 1 (cellAddr 9 0 4) ] : State)).noc.moving.eraseIdx ((1 : Nat)) } }.linkBad (List.filter (fun (k : Nat) => bit (if (2) = 2 then ((0x00#8 : BitVec 8)) else BitVec.ofNat 8 (b2n ((false : Bool)))) k) (List.range ((((nn [rq 1 (cellAddr 9 0 4), rq 2 (cellAddr 9 1 4) [5, 6], rq 3 (cellAddr 9 2 4) [0x123456789ABCDEF], rq 1 0x4200000080, rq 1 (cellAddr 9 0 4) ] : State)).requestAt ((1 : Nat)) (2)).get (by all_goals decide +kernel)).pkt.data.length)).length)).2, Or.inr (Or.inl ⟨rfl, rfl⟩), (by first | decide +kernel | exact rfl), (by decide +kernel), (by decide +kernel), (by first | decide +kernel | exact someGet _ (by decide +kernel)), (by first | decide +kernel | exact pairEta2 _)⟩,
   ⟨(2 : Nat), (0x00#8 : BitVec 8), (false : Bool), ((fun h => Instr.wrb 2 h false) : Bool → Instr), 3, (nn [rq 1 (cellAddr 9 0 4), rq 2 (cellAddr 9 1 4) [5, 6], rq 3 (cellAddr 9 2 4) [0x123456789ABCDEF], rq 1 0x4200000080, rq 1 (cellAddr 9 0 4) ] : State), (((nn [rq 1 (cellAddr 9 0 4), rq 2 (cellAddr 9 1 4) [5, 6], rq 3 (cellAddr 9 2 4) [0x123456789ABCDEF], rq 1 0x4200000080, rq 1 (cellAddr 9 0 4) ] : State)).requestAt ((2 : Nat)) (3)).get (by all_goals decide +kernel), (({ ((nn [rq 1 (cellAddr 9 0 4), rq 2 (cellAddr 9 1 4) [5, 6], rq 3 (cellAddr 9 2 4) [0x123456789ABCDEF], rq 1 0x4200000080, rq 1 (cellAddr 9 0 4) ] : State)) with noc := { ((nn [rq 1 (cellAddr 9 0 4), rq 2 (cellAddr 9 1 4) [5, 6], rq 3 (cellAddr 9 2 4) [0x123456789ABCDEF], rq 1 0x4200000080, rq 1 (cellAddr 9 0 4) ] : State)).noc with moving := ((nn [rq 1 (cellAddr 9 0 4), rq 2 (cellAddr 9 1 4) [5, 6], rq 3 (cellAddr 9 2 4) [0x123456789ABCDEF], rq 1 0x4200000080, rq 1 (cellAddr 9 0 4) ] : State)).noc.moving.eraseIdx ((2 : Nat)) } }.linkBad (List.filter (fun (k : Nat) => bit (if (3) = 2 then ((0x00#8 : BitVec 8)) else BitVec.ofNat 8 (b2n ((false : Bool)))) k) (List.range ((((nn [rq 1 (cellAddr 9 0 4), rq 2 (cellAddr 9 1 4) [5, 6], rq 3 (cellAddr 9 2 4) [0x123456789ABCDEF], rq 1 0x4200000080, rq 1 (cellAddr 9 0 4) ] : State)).requestAt ((2 : Nat)) (3)).get (by all_goals decide +kernel)).pkt.data.length)).length).putAtTarget ((((nn [rq 1 (cellAddr 9 0 4), rq 2 (cellAddr 9 1 4) [5, 6], rq 3 (cellAddr 9 2 4) [0x123456789ABCDEF], rq 1 0x4200000080, rq 1 (cellAddr 9 0 4) ] : State)).requestAt ((2 : Nat)) (3)).get (by all_goals decide +kernel)).pkt.m ((((nn [rq 1 (cellAddr 9 0 4), rq 2 (cellAddr 9 1 4) [5, 6], rq 3 (cellAddr 9 2 4) [0x123456789ABCDEF], rq 1 0x4200000080, rq 1 (cellAddr 9 0 4) ] : State)).requestAt ((2 : Nat)) (3)).get (by all_goals decide +kernel)).pkt.addr 0 ((((nn [rq 1 (cellAddr 9 0 4), rq 2 (cellAddr 9 1 4) [5, 6], rq 3 (cellAddr 9 2 4) [0x123456789ABCDEF], rq 1 0x4200000080, rq 1 (cellAddr 9 0 4) ] : State)).requestAt ((2 : Nat)) (3)).get (by all_goals decide +kernel)).pkt.bytes (plainBytes ((((nn [rq 1 (cellAddr 9 0 4), rq 2 (cellAddr 9 1 4) [5, 6], rq 3 (cellAddr 9 2 4) [0x123456789ABCDEF], rq 1 0x4200000080, rq 1 (cellAddr 9 0 4) ] : State)).requestAt ((2 : Nat)) (3)).get (by all_goals decide +kernel)).pkt.bytes ((List.map (fun (e : Line × Nat) => if bit (if (3) = 2 then ((0x00#8 : BitVec 8)) else BitVec.ofNat 8 (b2n ((false : Bool)))) e.snd = true then linePoison e.fst else e.fst) ((((nn [rq 1 (cellAddr 9 0 4), rq 2 (cellAddr 9 1 4) [5, 6], rq 3 (cellAddr 9 2 4) [0x123456789ABCDEF], rq 1 0x4200000080, rq 1 (cellAddr 9 0 4) ] : State)).requestAt ((2 : Nat)) (3)).get (by all_goals decide +kernel)).pkt.data.zipIdx).headD 0))).1, (({ ((nn [rq 1 (cellAddr 9 0 4), rq 2 (cellAddr 9 1 4) [5, 6], rq 3 (cellAddr 9 2 4) [0x123456789ABCDEF], rq 1 0x4200000080, rq 1 (cellAddr 9 0 4) ] : State)) with noc := { ((nn [rq 1 (cellAddr 9 0 4), rq 2 (cellAddr 9 1 4) [5, 6], rq 3 (cellAddr 9 2 4) [0x123456789ABCDEF], rq 1 0x4200000080, rq 1 (cellAddr 9 0 4) ] : State)).noc with moving := ((nn [rq 1 (cellAddr 9 0 4), rq 2 (cellAddr 9 1 4) [5, 6], rq 3 (cellAddr 9 2 4) [0x123456789ABCDEF], rq 1 0x4200000080, rq 1 (cellAddr 9 0 4) ] : State)).noc.moving.eraseIdx ((2 : Nat)) } }.linkBad (List.filter (fun (k : Nat) => bit (if (3) = 2 then ((0x00#8 : BitVec 8)) else BitVec.ofNat 8 (b2n ((false : Bool)))) k) (List.range ((((nn [rq 1 (cellAddr 9 0 4), rq 2 (cellAddr 9 1 4) [5, 6], rq 3 (cellAddr 9 2 4) [0x123456789ABCDEF], rq 1 0x4200000080, rq 1 (cellAddr 9 0 4) ] : State)).requestAt ((2 : Nat)) (3)).get (by all_goals decide +kernel)).pkt.data.length)).length).putAtTarget ((((nn [rq 1 (cellAddr 9 0 4), rq 2 (cellAddr 9 1 4) [5, 6], rq 3 (cellAddr 9 2 4) [0x123456789ABCDEF], rq 1 0x4200000080, rq 1 (cellAddr 9 0 4) ] : State)).requestAt ((2 : Nat)) (3)).get (by all_goals decide +kernel)).pkt.m ((((nn [rq 1 (cellAddr 9 0 4), rq 2 (cellAddr 9 1 4) [5, 6], rq 3 (cellAddr 9 2 4) [0x123456789ABCDEF], rq 1 0x4200000080, rq 1 (cellAddr 9 0 4) ] : State)).requestAt ((2 : Nat)) (3)).get (by all_goals decide +kernel)).pkt.addr 0 ((((nn [rq 1 (cellAddr 9 0 4), rq 2 (cellAddr 9 1 4) [5, 6], rq 3 (cellAddr 9 2 4) [0x123456789ABCDEF], rq 1 0x4200000080, rq 1 (cellAddr 9 0 4) ] : State)).requestAt ((2 : Nat)) (3)).get (by all_goals decide +kernel)).pkt.bytes (plainBytes ((((nn [rq 1 (cellAddr 9 0 4), rq 2 (cellAddr 9 1 4) [5, 6], rq 3 (cellAddr 9 2 4) [0x123456789ABCDEF], rq 1 0x4200000080, rq 1 (cellAddr 9 0 4) ] : State)).requestAt ((2 : Nat)) (3)).get (by all_goals decide +kernel)).pkt.bytes ((List.map (fun (e : Line × Nat) => if bit (if (3) = 2 then ((0x00#8 : BitVec 8)) else BitVec.ofNat 8 (b2n ((false : Bool)))) e.snd = true then linePoison e.fst else e.fst) ((((nn [rq 1 (cellAddr 9 0 4), rq 2 (cellAddr 9 1 4) [5, 6], rq 3 (cellAddr 9 2 4) [0x123456789ABCDEF], rq 1 0x4200000080, rq 1 (cellAddr 9 0 4) ] : State)).requestAt ((2 : Nat)) (3)).get (by all_goals decide +kernel)).pkt.data.zipIdx).headD 0))).2, Or.inr (Or.inr (Or.inl ⟨rfl, rfl⟩)), (by first | decide +kernel | exact rfl), (by decide +kernel), (by decide +kernel), (by first | decide +kernel | exact someGet _ (by decide +kernel)), (by first | decide +kernel | exact pairEta2 _)⟩,
   ⟨(0 : Nat), (0x00#8 : BitVec 8), (false : Bool), ((fun h => Instr.rgr 0 h) : Bool → Instr), 4, (nn [rq 4 0x4200000084, rq 5 0x4200000020 [5 + 2^252], rq 5 0x4200000010 [5], rq 4 0x42, rq 5 0x9000 [6]] : State), (((nn [rq 4 0x4200000084, rq 5 0x4200000020 [5 + 2^252], rq 5 0x4200000010 [5], rq 4 0x42, rq 5 0x9000 [6]] : State)).requestAt ((0 : Nat)) (4)).get (by all_goals decide +kernel), ({ ((nn [rq 4 0x4200000084, rq 5 0x4200000020 [5 + 2^252], rq 5 0x4200000010 [5], rq 4 0x42, rq 5 0x9000 [6]] : State)) with noc := { ((nn [rq 4 0x4200000084, rq 5 0x4200000020 [5 + 2^252], rq 5 0x4200000010 [5], rq 4 0x42, rq 5 0x9000 [6]] : State)).noc with moving := ((nn [rq 4 0x4200000084, rq 5 0x4200000020 [5 + 2^252], rq 5 0x4200000010 [5], rq 4 0x42, rq 5 0x9000 [6]] : State)).noc.moving.eraseIdx ((0 : Nat)) } }.regGet ((((nn [rq 4 0x4200000084, rq 5 0x4200000020 [5 + 2^252], rq 5 0x4200000010 [5], rq 4 0x42, rq 5 0x9000 [6]] : State)).requestAt ((0 : Nat)) (4)).get (by all_goals decide +kernel)).pkt.m (((((nn [rq 4 0x4200000084, rq 5 0x4200000020 [5 + 2^252], rq 5 0x4200000010 [5], rq 4 0x42, rq 5 0x9000 [6]] : State)).requestAt ((0 : Nat)) (4)).get (by all_goals decide +kernel)).pkt.addr - 283467841536) (if ((((nn [rq 4 0x4200000084, rq 5 0x4200000020 [5 + 2^252], rq 5 0x4200000010 [5], rq 4 0x42, rq 5 0x9000 [6]] : State)).requestAt ((0 : Nat)) (4)).get (by all_goals decide +kernel)).pkt.rsize = 2 then 4 else if ((((nn [rq 4 0x4200000084, rq 5 0x4200000020 [5 + 2^252], rq 5 0x4200000010 [5], rq 4 0x42, rq 5 0x9000 [6]] : State)).requestAt ((0 : Nat)) (4)).get (by all_goals decide +kernel)).pkt.rsize = 3 then 8 else 0)).1, (({ ((nn [rq 4 0x4200000084, rq 5 0x4200000020 [5 + 2^252], rq 5 0x4200000010 [5], rq 4 0x42, rq 5 0x9000 [6]] : State)) with noc := { ((nn [rq 4 0x4200000084, rq 5 0x4200000020 [5 + 2^252], rq 5 0x4200000010 [5], rq 4 0x42, rq 5 0x9000 [6]] : State)).noc with moving := ((nn [rq 4 0x4200000084, rq 5 0x4200000020 [5 + 2^252], rq 5 0x4200000010 [5], rq 4 0x42, rq 5 0x9000 [6]] : State)).noc.moving.eraseIdx ((0 : Nat)) } }.regGet ((((nn [rq 4 0x4200000084, rq 5 0x4200000020 [5 + 2^252], rq 5 0x4200000010 [5], rq 4 0x42, rq 5 0x9000 [6]] : State)).requestAt ((0 : Nat)) (4)).get (by all_goals decide +kernel)).pkt.m (((((nn [rq 4 0x4200000084, rq 5 0x4200000020 [5 + 2^252], rq 5 0x4200000010 [5], rq 4 0x42, rq 5 0x9000 [6]] : State)).requestAt ((0 : Nat)) (4)).get (by all_goals decide +kernel)).pkt.addr - 283467841536) (if ((((nn [rq 4 0x4200000084, rq 5 0x4200000020 [5 + 2^252], rq 5 0x4200000010 [5], rq 4 0x42, rq 5 0x9000 [6]] : State)).requestAt ((0 : Nat)) (4)).get (by all_goals decide +kernel)).pkt.rsize = 2 then 4 else if ((((nn [rq 4 0x4200000084, rq 5 0x4200000020 [5 + 2^252], rq 5 0x4200000010 [5], rq 4 0x42, rq 5 0x9000 [6]] : State)).requestAt ((0 : Nat)) (4)).get (by all_goals decide +kernel)).pkt.rsize = 3 then 8 else 0)).2).1, (({ ((nn [rq 4 0x4200000084, rq 5 0x4200000020 [5 + 2^252], rq 5 0x4200000010 [5], rq 4 0x42, rq 5 0x9000 [6]] : State)) with noc := { ((nn [rq 4 0x4200000084, rq 5 0x4200000020 [5 + 2^252], rq 5 0x4200000010 [5], rq 4 0x42, rq 5 0x9000 [6]] : State)).noc with moving := ((nn [rq 4 0x4200000084, rq 5 0x4200000020 [5 + 2^252], rq 5 0x4200000010 [5], rq 4 0x42, rq 5 0x9000 [6]] : State)).noc.moving.eraseIdx ((0 : Nat)) } }.regGet ((((nn [rq 4 0x4200000084, rq 5 0x4200000020 [5 + 2^252], rq 5 0x4200000010 [5], rq 4 0x42, rq 5 0x9000 [6]] : State)).requestAt ((0 : Nat)) (4)).get (by all_goals decide +kernel)).pkt.m (((((nn [rq 4 0x4200000084, rq 5 0x4200000020 [5 + 2^252], rq 5 0x4200000010 [5], rq 4 0x42, rq 5 0x9000 [6]] : State)).requestAt ((0 : Nat)) (4)).get (by all_goals decide +kernel)).pkt.addr - 283467841536) (if ((((nn [rq 4 0x4200000084, rq 5 0x4200000020 [5 + 2^252], rq 5 0x4200000010 [5], rq 4 0x42, rq 5 0x9000 [6]] : State)).requestAt ((0 : Nat)) (4)).get (by all_goals decide +kernel)).pkt.rsize = 2 then 4 else if ((((nn [rq 4 0x4200000084, rq 5 0x4200000020 [5 + 2^252], rq 5 0x4200000010 [5], rq 4 0x42, rq 5 0x9000 [6]] : State)).requestAt ((0 : Nat)) (4)).get (by all_goals decide +kernel)).pkt.rsize = 3 then 8 else 0)).2).2, Or.inr (Or.inr (Or.inr (Or.inl ⟨rfl, rfl⟩))), (by first | decide +kernel | exact rfl), (by decide +kernel), (by decide +kernel), (by first | decide +kernel | exact someGet _ (by decide +kernel)), (by first | decide +kernel | exact pairEta3 _)⟩,
   ⟨(1 : Nat), (0x00#8 : BitVec 8), (false : Bool), ((fun h => Instr.rgw 1 h false) : Bool → Instr), 5, (nn [rq 4 0x4200000084, rq 5 0x4200000020 [5 + 2^252], rq 5 0x4200000010 [5], rq 4 0x42, rq 5 0x9000 [6]] : State), (((nn [rq 4 0x4200000084, rq 5 0x4200000020 [5 + 2^252], rq 5 0x4200000010 [5], rq 4 0x42, rq 5 0x9000 [6]] : State)).requestAt ((1 : Nat)) (5)).get (by all_goals decide +kernel), (({ ((nn [rq 4 0x4200000084, rq 5 0x4200000020 [5 + 2^252], rq 5 0x4200000010 [5], rq 4 0x42, rq 5 0x9000 [6]] : State)) with noc := { ((nn [rq 4 0x4200000084, rq 5 0x4200000020 [5 + 2^252], rq 5 0x4200000010 [5], rq 4 0x42, rq 5 0x9000 [6]] : State)).noc with moving := ((nn [rq 4 0x4200000084, rq 5 0x4200000020 [5 + 2^252], rq 5 0x4200000010 [5], rq 4 0x42, rq 5 0x9000 [6]] : State)).noc.moving.eraseIdx ((1 : Nat)) } }.linkBad (List.filter (fun (k : Nat) => bit (if (5) = 2 then ((0x00#8 : BitVec 8)) else BitVec.ofNat 8 (b2n ((false : Bool)))) k) (List.range ((((nn [rq 4 0x4200000084, rq 5 0x4200000020 [5 + 2^252], rq 5 0x4200000010 [5], rq 4 0x42, rq 5 0x9000 [6]] : State)).requestAt ((1 : Nat)) (5)).get (by all_goals decide +kernel)).pkt.data.length)).length).regPut ((((nn [rq 4 0x4200000084, rq 5 0x4200000020 [5 + 2^252], rq 5 0x4200000010 [5], rq 4 0x42, rq 5 0x9000 [6]] : State)).requestAt ((1 : Nat)) (5)).get (by all_goals decide +kernel)).pkt.m (((((nn [rq 4 0x4200000084, rq 5 0x4200000020 [5 + 2^252], rq 5 0x4200000010 [5], rq 4 0x42, rq 5 0x9000 [6]] : State)).requestAt ((1 : Nat)) (5)).get (by all_goals decide +kernel)).pkt.addr - 283467841536) (if ((((nn [rq 4 0x4200000084, rq 5 0x4200000020 [5 + 2^252], rq 5 0x4200000010 [5], rq 4 0x42, rq 5 0x9000 [6]] : State)).requestAt ((1 : Nat)) (5)).get (by all_goals decide +kernel)).pkt.rsize = 2 then 4 else if ((((nn [rq 4 0x4200000084, rq 5 0x4200000020 [5 + 2^252], rq 5 0x4200000010 [5], rq 4 0x42, rq 5 0x9000 [6]] : State)).requestAt ((1 : Nat)) (5)).get (by all_goals decide +kernel)).pkt.rsize = 3 then 8 else 0) (fld ((List.map (fun (e : Line × Nat) => if bit (if (5) = 2 then ((0x00#8 : BitVec 8)) else BitVec.ofNat 8 (b2n ((false : Bool)))) e.snd = true then linePoison e.fst else e.fst) ((((nn [rq 4 0x4200000084, rq 5 0x4200000020 [5 + 2^252], rq 5 0x4200000010 [5], rq 4 0x42, rq 5 0x9000 [6]] : State)).requestAt ((1 : Nat)) (5)).get (by all_goals decide +kernel)).pkt.data.zipIdx).headD 0) 0 64 % 2 ^ (8 * if ((((nn [rq 4 0x4200000084, rq 5 0x4200000020 [5 + 2^252], rq 5 0x4200000010 [5], rq 4 0x42, rq 5 0x9000 [6]] : State)).requestAt ((1 : Nat)) (5)).get (by all_goals decide +kernel)).pkt.rsize = 2 then 4 else if ((((nn [rq 4 0x4200000084, rq 5 0x4200000020 [5 + 2^252], rq 5 0x4200000010 [5], rq 4 0x42, rq 5 0x9000 [6]] : State)).requestAt ((1 : Nat)) (5)).get (by all_goals decide +kernel)).pkt.rsize = 3 then 8 else 0)) (fld ((List.map (fun (e : Line × Nat) => if bit (if (5) = 2 then ((0x00#8 : BitVec 8)) else BitVec.ofNat 8 (b2n ((false : Bool)))) e.snd = true then linePoison e.fst else e.fst) ((((nn [rq 4 0x4200000084, rq 5 0x4200000020 [5 + 2^252], rq 5 0x4200000010 [5], rq 4 0x42, rq 5 0x9000 [6]] : State)).requestAt ((1 : Nat)) (5)).get (by all_goals decide +kernel)).pkt.data.zipIdx).headD 0) 252 2 != 0)).1, (({ ((nn [rq 4 0x4200000084, rq 5 0x4200000020 [5 + 2^252], rq 5 0x4200000010 [5], rq 4 0x42, rq 5 0x9000 [6]] : State)) with noc := { ((nn [rq 4 0x4200000084, rq 5 0x4200000020 [5 + 2^252], rq 5 0x4200000010 [5], rq 4 0x42, rq 5 0x9000 [6]] : State)).noc with moving := ((nn [rq 4 0x4200000084, rq 5 0x4200000020 [5 + 2^252], rq 5 0x4200000010 [5], rq 4 0x42, rq 5 0x9000 [6]] : State)).noc.moving.eraseIdx ((1 : Nat)) } }.linkBad (List.filter (fun (k : Nat) => bit (if (5) = 2 then ((0x00#8 : BitVec 8)) else BitVec.ofNat 8 (b2n ((false : Bool)))) k) (List.range ((((nn [rq 4 0x4200000084, rq 5 0x4200000020 [5 + 2^252], rq 5 0x4200000010 [5], rq 4 0x42, rq 5 0x9000 [6]] : State)).requestAt ((1 : Nat)) (5)).get (by all_goals decide +kernel)).pkt.data.length)).length).regPut ((((nn [rq 4 0x4200000084, rq 5 0x4200000020 [5 + 2^252], rq 5 0x4200000010 [5], rq 4 0x42, rq 5 0x9000 [6]] : State)).requestAt ((1 : Nat)) (5)).get (by all_goals decide +kernel)).pkt.m (((((nn [rq 4 0x4200000084, rq 5 0x4200000020 [5 + 2^252], rq 5 0x4200000010 [5], rq 4 0x42, rq 5 0x9000 [6]] : State)).requestAt ((1 : Nat)) (5)).get (by all_goals decide +kernel)).pkt.addr - 283467841536) (if ((((nn [rq 4 0x4200000084, rq 5 0x4200000020 [5 + 2^252], rq 5 0x4200000010 [5], rq 4 0x42, rq 5 0x9000 [6]] : State)).requestAt ((1 : Nat)) (5)).get (by all_goals decide +kernel)).pkt.rsize = 2 then 4 else if ((((nn [rq 4 0x4200000084, rq 5 0x4200000020 [5 + 2^252], rq 5 0x4200000010 [5], rq 4 0x42, rq 5 0x9000 [6]] : State)).requestAt ((1 : Nat)) (5)).get (by all_goals decide +kernel)).pkt.rsize = 3 then 8 else 0) (fld ((List.map (fun (e : Line × Nat) => if bit (if (5) = 2 then ((0x00#8 : BitVec 8)) else BitVec.ofNat 8 (b2n ((false : Bool)))) e.snd = true then linePoison e.fst else e.fst) ((((nn [rq 4 0x4200000084, rq 5 0x4200000020 [5 + 2^252], rq 5 0x4200000010 [5], rq 4 0x42, rq 5 0x9000 [6]] : State)).requestAt ((1 : Nat)) (5)).get (by all_goals decide +kernel)).pkt.data.zipIdx).headD 0) 0 64 % 2 ^ (8 * if ((((nn [rq 4 0x4200000084, rq 5 0x4200000020 [5 + 2^252], rq 5 0x4200000010 [5], rq 4 0x42, rq 5 0x9000 [6]] : State)).requestAt ((1 : Nat)) (5)).get (by all_goals decide +kernel)).pkt.rsize = 2 then 4 else if ((((nn [rq 4 0x4200000084, rq 5 0x4200000020 [5 + 2^252], rq 5 0x4200000010 [5], rq 4 0x42, rq 5 0x9000 [6]] : State)).requestAt ((1 : Nat)) (5)).get (by all_goals decide +kernel)).pkt.rsize = 3 then 8 else 0)) (fld ((List.map (fun (e : Line × Nat) => if bit (if (5) = 2 then ((0x00#8 : BitVec 8)) else BitVec.ofNat 8 (b2n ((false : Bool)))) e.snd = true then linePoison e.fst else e.fst) ((((nn [rq 4 0x4200000084, rq 5 0x4200000020 [5 + 2^252], rq 5 0x4200000010 [5], rq 4 0x42, rq 5 0x9000 [6]] : State)).requestAt ((1 : Nat)) (5)).get (by all_goals decide +kernel)).pkt.data.zipIdx).headD 0) 252 2 != 0)).2, Or.inr (Or.inr (Or.inr (Or.inr ⟨rfl, rfl⟩))), (by first | decide +kernel | exact rfl), (by decide +kernel), (by decide +kernel), (by first | decide +kernel | exact someGet _ (by decide +kernel)), (by first | decide +kernel | exact pairEta2 _)⟩⟩

theorem witness1 :
    (∃ (n : Nat), 0 < n) ∧
    (∃ (n : Nat), n = 0) :=
  ⟨⟨(1 : Nat), (by decide +kernel)⟩,
   ⟨_, rfl⟩⟩

theorem witness2 :
    (∃ (i : Nat) (bad : BitVec 8) (c : Instr) (s : State) (op : Nat) (p : Moving), s.settled = true ∧ s.noc.moving[i]? = some p ∧ p.arrived = true ∧ p.pkt.vn = true ∧ p.pkt.op = op ∧ (c = Instr.rdr i bad ∧ op = 8 ∨ c = Instr.wra i ∧ op = 9 ∧ bad = 0 ∨ c = Instr.rgrr i bad ∧ op = 10 ∨ c = Instr.rgwa i ∧ op = 11 ∧ bad = 0) ∧ (∃ (o : Outstanding), o ∈ s.noc.outstanding ∧ o.m = p.pkt.m ∧ o.tag = p.pkt.tag)) ∧
    (∃ (i : Nat) (bad : BitVec 8) (c : Instr) (s : State) (op : Nat) (p : Moving), s.settled = true ∧ s.noc.moving[i]? = some p ∧ p.arrived = true ∧ p.pkt.vn = true ∧ p.pkt.op = op ∧ (c = Instr.rdr i bad ∧ op = 8 ∨ c = Instr.wra i ∧ op = 9 ∧ bad = 0 ∨ c = Instr.rgrr i bad ∧ op = 10 ∨ c = Instr.rgwa i ∧ op = 11 ∧ bad = 0) ∧ (∀ (o : Outstanding), o ∈ s.noc.outstanding → ¬(o.m = p.pkt.m ∧ o.tag = p.pkt.tag))) :=
  ⟨⟨(0 : Nat), (0x00#8 : BitVec 8), (Sys2Proof.Instr.rdr 0 0x00#8 : Instr), (nn [rp 8 0 [5, 6], rp 9 1, rp 0xA 3 [7], rp 0xB 3, rp 0xB 4] : State), (8 : Nat), _, (by decide +kernel), someGet _ (by decide +kernel), (by decide +kernel), (by decide +kernel), (by decide +kernel), (by decide +kernel), (by decide +kernel)⟩,
   ⟨(1 : Nat), (0x00#8 : BitVec 8), (Sys2Proof.Instr.wra 1 : Instr), (nn [rp 8 0 [5, 6], rp 9 1, rp 0xA 3 [7], rp 0xB 3, rp 0xB 4] : State), (9 : Nat), _, (by decide +kernel), someGet _ (by decide +kernel), (by decide +kernel), (by decide +kernel), (by decide +kernel), (by decide +kernel), (by decide +kernel)⟩⟩

theorem witness3 :
    (∃ (i : Nat) (s : State) (o : Outstanding), s.settled = true ∧ s.noc.outstanding[i]? = some o ∧ s.rf nocBase 16 16 ≠ 0 ∧ o.sent + 1000 * s.rf nocBase 16 16 ≤ s.now) ∧
    (∃ (i : Nat) (s : State) (o : Outstanding), s.settled = true ∧ s.noc.outstanding[i]? = some o ∧ (s.rf nocBase 16 16 = 0 ∨ s.now < o.sent + 1000 * s.rf nocBase 16 16)) :=
  ⟨⟨(0 : Nat), (nn [rq 1 (cellAddr 9 0 4), rq 2 (cellAddr 9 1 4) [5, 6], rq 3 (cellAddr 9 2 4) [0x123456789ABCDEF], rq 1 0x4200000080, rq 1 (cellAddr 9 0 4) ] : State), _, (by decide +kernel), someGet _ (by decide +kernel), (by decide +kernel), (by decide +kernel)⟩,
   ⟨(0 : Nat), ({ nn [] with regs := [(nocBase, 0x20000#32)] } : State), _, (by decide +kernel), someGet _ (by decide +kernel), (by decide +kernel)⟩⟩

end RequestsAreAnswered

/-! Witnesses of `Obligations.RoutingTablesAreCheckedAndFlipped`. -/
namespace RoutingTablesAreCheckedAndFlipped

def fl (n : Nat) (off : List Nat := []) (m : List Moving := []) : State := { regs := [(nocBase + 4, BitVec.ofNat 32 n), (nocBase + 0x10, 5#32), (nocBase + 0x74, 0xFFFF0000#32), (nocBase + 0xF0, 0x55#32)], noc := { checkOff := off, moving := m, trace := [(3, 4)] } }

theorem witness0 :
    (∃ (v : Word32) (s : State), s.settled = true ∧ BitVec.getLsbD v 2 = false ∧ s.rb (nocBase + 4) 2 = false ∧ s.rb (nocBase + 4) 1 = true) ∧
    (∃ (v : Word32) (s : State), s.settled = true ∧ BitVec.getLsbD v 2 = false ∧ s.rb (nocBase + 4) 2 = false ∧ s.rb (nocBase + 4) 1 = false) ∧
    (∃ (v : Word32) (s : State), s.settled = true ∧ BitVec.getLsbD v 2 = false ∧ s.rb (nocBase + 4) 2 = true) :=
  ⟨⟨(0x00000000#32 : Word32), (s0 : State), (by decide +kernel), (by decide +kernel), (by decide +kernel), (by decide +kernel)⟩,
   ⟨(0x00000000#32 : Word32), (fl 0 : State), (by decide +kernel), (by decide +kernel), (by decide +kernel), (by decide +kernel)⟩,
   ⟨(0x00000000#32 : Word32), (fl 4 : State), (by decide +kernel), (by decide +kernel), (by decide +kernel)⟩⟩

theorem witness1 :
    (∃ (s : State) (c : Nat), s.settled = true ∧ s.rb (nocBase + 4) 2 = true ∧ c ∈ s.flipCodes (1 - b2n s.epoch) s.noc.checkOff ∧ (∀ (d : Nat), d ∈ s.flipCodes (1 - b2n s.epoch) s.noc.checkOff → c ≤ d)) :=
  ⟨({ fl 6 with noc := { checkOff := List.range 76 } } : State), (1285 : Nat), (by decide +kernel), (by decide +kernel), (by decide +kernel), (by decide +kernel)⟩

theorem witness2 :
    (∃ (s : State), s.settled = true ∧ s.rb (nocBase + 4) 1 = false ∧ (∀ (p : Moving), p ∈ s.noc.moving → p.pkt.epoch = s.epoch)) ∧
    (∃ (s : State), s.settled = true ∧ (s.rb (nocBase + 4) 1 = true ∨ ∃ (p : Moving), p ∈ s.noc.moving ∧ p.pkt.epoch ≠ s.epoch)) :=
  ⟨⟨(fl 0 : State), (by decide +kernel), (by decide +kernel), (by decide +kernel)⟩,
   ⟨(s0 : State), (by decide +kernel), (by decide +kernel)⟩⟩

theorem witness3 :
    (∃ (m : Master) (bank : Bool) (s : State), s.settled = true ∧ (m = Master.loader ∨ s.rb (nocBase + 4) 1 = true ∧ bank ≠ s.epoch)) ∧
    (∃ (m : Master) (bank : Bool) (s : State), s.settled = true ∧ m ≠ Master.loader ∧ (s.rb (nocBase + 4) 1 = false ∨ bank = s.epoch)) :=
  ⟨⟨(Sys2Proof.Master.puppeteer : Master), (true : Bool), (s0 : State), (by decide +kernel), (by decide +kernel)⟩,
   ⟨(Sys2Proof.Master.puppeteer : Master), (false : Bool), (s0 : State), (by decide +kernel), (by decide +kernel), (by decide +kernel)⟩⟩

theorem witness4 :
    (∃ (v : Word32) (s : State), s.settled = true ∧ BitVec.getLsbD v 1 = false) :=
  ⟨(0x00000000#32 : Word32), (s0 : State), (by decide +kernel), (by decide +kernel)⟩

theorem witness5 :
    (∃ (n : Fin 8) (s : State), s.settled = true ∧ s.rb (probeReg (↑n : Nat)) 31 = true) ∧
    (∃ (n : Fin 8) (v : Word32) (s : State), s.settled = true ∧ s.rb (probeReg (↑n : Nat)) 31 = false ∧ (s.writeFields (probeReg (↑n : Nat)) { rw := 0, rwl := 998182880#32, w1c := 0, en := probeReg (↑n : Nat), enBit := 31 : RegSpec } (v ||| 2147483648#32)).probeCodes (↑n : Nat) ((s.writeFields (probeReg (↑n : Nat)) { rw := 0, rwl := 998182880#32, w1c := 0, en := probeReg (↑n : Nat), enBit := 31 : RegSpec } (v ||| 2147483648#32)).rg (probeReg (↑n : Nat))) = []) ∧
    (∃ (n : Fin 8) (v : Word32) (s : State) (c : Nat), s.settled = true ∧ s.rb (probeReg (↑n : Nat)) 31 = false ∧ c ∈ (s.writeFields (probeReg (↑n : Nat)) { rw := 0, rwl := 998182880#32, w1c := 0, en := probeReg (↑n : Nat), enBit := 31 : RegSpec } (v ||| 2147483648#32)).probeCodes (↑n : Nat) ((s.writeFields (probeReg (↑n : Nat)) { rw := 0, rwl := 998182880#32, w1c := 0, en := probeReg (↑n : Nat), enBit := 31 : RegSpec } (v ||| 2147483648#32)).rg (probeReg (↑n : Nat))) ∧ (∀ (d : Nat), d ∈ (s.writeFields (probeReg (↑n : Nat)) { rw := 0, rwl := 998182880#32, w1c := 0, en := probeReg (↑n : Nat), enBit := 31 : RegSpec } (v ||| 2147483648#32)).probeCodes (↑n : Nat) ((s.writeFields (probeReg (↑n : Nat)) { rw := 0, rwl := 998182880#32, w1c := 0, en := probeReg (↑n : Nat), enBit := 31 : RegSpec } (v ||| 2147483648#32)).rg (probeReg (↑n : Nat))) → c ≤ d)) :=
  ⟨⟨(1 : Fin 8), ({ regs := [(probeReg 1, 0x80000000#32)] } : State), (by decide +kernel), (by decide +kernel)⟩,
   ⟨(0 : Fin 8), (0x80000e00#32 : Word32), (s0 : State), (by decide +kernel), (by decide +kernel), (by decide +kernel)⟩,
   ⟨(0 : Fin 8), (0x00000000#32 : Word32), (s0 : State), (1286 : Nat), (by decide +kernel), (by decide +kernel), (by decide +kernel), (by decide +kernel)⟩⟩

end RoutingTablesAreCheckedAndFlipped

/-! Witnesses of `Obligations.ScrubbersVisitAdaptAndStart`. -/
namespace ScrubbersVisitAdaptAndStart

def cb (pos : Nat) (e : Code) (ex : Map Word32 := []) (d : Option Nat := none) : State := { regs := [(scrReg 3, 0x000A0001#32), (scrReg 3 + 8, BitVec.ofNat 32 pos), (scrReg 3 + 0x14, 9#32), (scrReg 3 + 0x10, 0x05002010#32)] ++ ex, codes := [(cellAddr (regionOf 3 0) 0 0 / 32, e), (cellAddr (regionOf 3 15) 31 1023 / 32, e)], mem := [⟨cellAddr (regionOf 3 0) 0 0, 9⟩], scrubs := [(3, { due := d, ceLast := 2 })], now := 500 }

namespace C0
def sd (d : Dram) (e : Code := {}) (pos : Nat := 0) : State := { regs := [(dramBase 1, 3#32), (scrReg 5, 0x000A0001#32), (scrReg 5 + 8, BitVec.ofNat 32 pos)], drams := [(1, d)], now := 500, scrubs := [(5, { due := some 400 })], codes := [(2^36/32, e)] }
def dw (a : Nat) (sl : BitVec 12) : DramWrite := { addr := a, slots := sl, bytes := 0, data := 0x1234567890ABCDEF1234567890ABCDEF }

theorem witness0 :
    (∃ (dram : Bool) (k : Fin 4) (s : State), s.dead = false ∧ (s.rb (scrReg (if dram = true then (↑k : Nat) + 4 else (↑k : Nat))) 0 = false ∨ s.scrubNext (if dram = true then (↑k : Nat) + 4 else (↑k : Nat)) = none ∨ (mget { due := none, ceLast := 0 : Scrubber } s.scrubs (if dram = true then (↑k : Nat) + 4 else (↑k : Nat))).due = none ∨ ∃ (d : Nat), (mget { due := none, ceLast := 0 : Scrubber } s.scrubs (if dram = true then (↑k : Nat) + 4 else (↑k : Nat))).due = some d ∧ s.now < d)) ∧
    (∃ (dram : Bool) (k : Fin 4) (s : State) (i : Nat) (wrapped : Bool) (d : Nat) (w : State) (ok : Bool), s.dead = false ∧ (s.rb (scrReg (if dram = true then (↑k : Nat) + 4 else (↑k : Nat))) 0 = true) ∧ (s.scrubNext (if dram = true then (↑k : Nat) + 4 else (↑k : Nat)) = some (i, wrapped)) ∧ ((mget { due := none, ceLast := 0 : Scrubber } s.scrubs (if dram = true then (↑k : Nat) + 4 else (↑k : Nat))).due = some d) ∧ d ≤ s.now ∧ ((if dram = false then (s.scrubCell (s.scrubAddr (if dram = true then (↑k : Nat) + 4 else (↑k : Nat)) i), true) else s.scrubDram (↑k : Nat) (s.scrubAddr (if dram = true then (↑k : Nat) + 4 else (↑k : Nat)) i)) = (w, ok)) ∧ ok = false) ∧
    (∃ (dram : Bool) (k : Fin 4) (s : State) (i : Nat) (wrapped : Bool) (d : Nat) (w : State) (ok : Bool), s.dead = false ∧ (s.rb (scrReg (if dram = true then (↑k : Nat) + 4 else (↑k : Nat))) 0 = true) ∧ (s.scrubNext (if dram = true then (↑k : Nat) + 4 else (↑k : Nat)) = some (i, wrapped)) ∧ ((mget { due := none, ceLast := 0 : Scrubber } s.scrubs (if dram = true then (↑k : Nat) + 4 else (↑k : Nat))).due = some d) ∧ d ≤ s.now ∧ ((if dram = false then (s.scrubCell (s.scrubAddr (if dram = true then (↑k : Nat) + 4 else (↑k : Nat)) i), true) else s.scrubDram (↑k : Nat) (s.scrubAddr (if dram = true then (↑k : Nat) + 4 else (↑k : Nat)) i)) = (w, ok)) ∧ ok = true ∧ (i + 1 < { (if wrapped = true then w.setRg (scrReg (if dram = true then (↑k : Nat) + 4 else (↑k : Nat)) + 12) (satInc32 (w.rg (scrReg (if dram = true then (↑k : Nat) + 4 else (↑k : Nat)) + 12))) else w) with scrubs := mset { due := none, ceLast := 0 : Scrubber } (if wrapped = true then w.setRg (scrReg (if dram = true then (↑k : Nat) + 4 else (↑k : Nat)) + 12) (satInc32 (w.rg (scrReg (if dram = true then (↑k : Nat) + 4 else (↑k : Nat)) + 12))) else w).scrubs (if dram = true then (↑k : Nat) + 4 else (↑k : Nat)) { (mget { due := none, ceLast := 0 : Scrubber } (if wrapped = true then w.setRg (scrReg (if dram = true then (↑k : Nat) + 4 else (↑k : Nat)) + 12) (satInc32 (w.rg (scrReg (if dram = true then (↑k : Nat) + 4 else (↑k : Nat)) + 12))) else w).scrubs (if dram = true then (↑k : Nat) + 4 else (↑k : Nat))) with due := some (d + 1000 * (if wrapped = true then w.setRg (scrReg (if dram = true then (↑k : Nat) + 4 else (↑k : Nat)) + 12) (satInc32 (w.rg (scrReg (if dram = true then (↑k : Nat) + 4 else (↑k : Nat)) + 12))) else w).rf (scrReg (if dram = true then (↑k : Nat) + 4 else (↑k : Nat))) 16 10) } }.scrubWords (if dram = true then (↑k : Nat) + 4 else (↑k : Nat)))) ∧
    (∃ (dram : Bool) (k : Fin 4) (s : State) (i : Nat) (wrapped : Bool) (d : Nat) (w : State) (ok : Bool), s.dead = false ∧ (s.rb (scrReg (if dram = true then (↑k : Nat) + 4 else (↑k : Nat))) 0 = true) ∧ (s.scrubNext (if dram = true then (↑k : Nat) + 4 else (↑k : Nat)) = some (i, wrapped)) ∧ ((mget { due := none, ceLast := 0 : Scrubber } s.scrubs (if dram = true then (↑k : Nat) + 4 else (↑k : Nat))).due = some d) ∧ d ≤ s.now ∧ ((if dram = false then (s.scrubCell (s.scrubAddr (if dram = true then (↑k : Nat) + 4 else (↑k : Nat)) i), true) else s.scrubDram (↑k : Nat) (s.scrubAddr (if dram = true then (↑k : Nat) + 4 else (↑k : Nat)) i)) = (w, ok)) ∧ ok = true ∧ ({ (if wrapped = true then w.setRg (scrReg (if dram = true then (↑k : Nat) + 4 else (↑k : Nat)) + 12) (satInc32 (w.rg (scrReg (if dram = true then (↑k : Nat) + 4 else (↑k : Nat)) + 12))) else w) with scrubs := mset { due := none, ceLast := 0 : Scrubber } (if wrapped = true then w.setRg (scrReg (if dram = true then (↑k : Nat) + 4 else (↑k : Nat)) + 12) (satInc32 (w.rg (scrReg (if dram = true then (↑k : Nat) + 4 else (↑k : Nat)) + 12))) else w).scrubs (if dram = true then (↑k : Nat) + 4 else (↑k : Nat)) { (mget { due := none, ceLast := 0 : Scrubber } (if wrapped = true then w.setRg (scrReg (if dram = true then (↑k : Nat) + 4 else (↑k : Nat)) + 12) (satInc32 (w.rg (scrReg (if dram = true then (↑k : Nat) + 4 else (↑k : Nat)) + 12))) else w).scrubs (if dram = true then (↑k : Nat) + 4 else (↑k : Nat))) with due := some (d + 1000 * (if wrapped = true then w.setRg (scrReg (if dram = true then (↑k : Nat) + 4 else (↑k : Nat)) + 12) (satInc32 (w.rg (scrReg (if dram = true then (↑k : Nat) + 4 else (↑k : Nat)) + 12))) else w).rf (scrReg (if dram = true then (↑k : Nat) + 4 else (↑k : Nat))) 16 10) } }.scrubWords (if dram = true then (↑k : Nat) + 4 else (↑k : Nat)) ≤ i + 1)) :=
  ⟨⟨(false : Bool), (0 : Fin 4), (s0 : State), (by decide +kernel), (by decide +kernel)⟩,
   ⟨(true : Bool), (1 : Fin 4), (sd { st := .run, filled := true, wq := [dw (2^36) 3] } { wf := 3, ag := 7 } : State), _, _, _, _, _, (by decide +kernel), (by decide +kernel), someGet2 _ (by decide +kernel), someGet _ (by decide +kernel), (by decide +kernel), pairEta2 _, (by decide +kernel)⟩,
   ⟨(false : Bool), (3 : Fin 4), (cb 0 { wf := 3 } [] (some 400) : State), _, _, _, _, _, (by decide +kernel), (by decide +kernel), someGet2 _ (by decide +kernel), someGet _ (by decide +kernel), (by decide +kernel), pairEta2 _, (by decide +kernel), (by decide +kernel)⟩,
   ⟨(false : Bool), (3 : Fin 4), (cb 524287 { wf := 3, err := 3 } [] (some 400) : State), _, _, _, _, _, (by decide +kernel), (by decide +kernel), someGet2 _ (by decide +kernel), someGet _ (by decide +kernel), (by decide +kernel), pairEta2 _, (by decide +kernel), (by decide +kernel)⟩⟩

end C0

namespace C2
def fx (e : Code) : State := { cb 0 e with regions := [((regionOf 3 0), { fixes := [{ cell := 0, word := 0, left := 3 }] })] }

theorem witness2 :
    (∃ (r : Fin 64) (s : State) (f : ScrubFix), s.dead = false ∧ s.resting (↑r : Nat) = true ∧ (s.region (↑r : Nat)).fixes = [f] ∧ f.left = 3 ∧ (s.region (↑r : Nat)).p1 = [] ∧ (s.region (↑r : Nat)).wrs = [] ∧ (s.region (↑r : Nat)).rds = [] ∧ f.found = none ∧ f.crossed = false) :=
  ⟨(36 : Fin 64), (fx { wf := 3 } : State), ((((fx { wf := 3 } : State)).region (↑((36 : Fin 64)) : Nat)).fixes).head (by all_goals decide +kernel), (by decide +kernel), (by decide +kernel), (by decide +kernel), (by decide +kernel), (by decide +kernel), (by decide +kernel), (by decide +kernel), (by decide +kernel), (by decide +kernel)⟩

end C2

namespace C3
def dw (a : Nat) (sl : BitVec 12) : DramWrite := { addr := a, slots := sl, bytes := 0, data := 0x1234567890ABCDEF1234567890ABCDEF }
def sd (d : Dram) (e : Code := {}) (pos : Nat := 0) : State := { regs := [(dramBase 1, 3#32), (scrReg 5, 0x000A0001#32), (scrReg 5 + 8, BitVec.ofNat 32 pos)], drams := [(1, d)], now := 500, scrubs := [(5, { due := some 400 })], codes := [(2^36*2/32, e)], mem := [⟨2^36*2, 5⟩] }

theorem witness3 :
    (∃ (c : Nat) (a : Nat) (s : State), ((s.drainBurst c a).dram c).st = DdrState.frozen) ∧
    (∃ (c : Nat) (a : Nat) (s : State), ((s.drainBurst c a).dram c).st ≠ DdrState.frozen ∧ ((s.drainBurst c a).dram c).unfilled (s.dramPlace a).snd = true) ∧
    (∃ (c : Nat) (a : Nat) (s : State), ((s.drainBurst c a).dram c).st ≠ DdrState.frozen ∧ ((s.drainBurst c a).dram c).unfilled (s.dramPlace a).snd = false ∧ (((s.drainBurst c a).dramTouch c (s.dramPlace a).snd).examine a).guard = true) ∧
    (∃ (c : Nat) (a : Nat) (s : State), ((s.drainBurst c a).dram c).st ≠ DdrState.frozen ∧ ((s.drainBurst c a).dram c).unfilled (s.dramPlace a).snd = false ∧ (((s.drainBurst c a).dramTouch c (s.dramPlace a).snd).examine a).guard = false ∧ (((s.drainBurst c a).dramTouch c (s.dramPlace a).snd).examine a).ue = true) ∧
    (∃ (c : Nat) (a : Nat) (s : State), ((s.drainBurst c a).dram c).st ≠ DdrState.frozen ∧ ((s.drainBurst c a).dram c).unfilled (s.dramPlace a).snd = false ∧ (((s.drainBurst c a).dramTouch c (s.dramPlace a).snd).examine a).guard = false ∧ (((s.drainBurst c a).dramTouch c (s.dramPlace a).snd).examine a).ue = false ∧ (((s.drainBurst c a).dramTouch c (s.dramPlace a).snd).examine a).ce = true) ∧
    (∃ (c : Nat) (a : Nat) (s : State), ((s.drainBurst c a).dram c).st ≠ DdrState.frozen ∧ ((s.drainBurst c a).dram c).unfilled (s.dramPlace a).snd = false ∧ (((s.drainBurst c a).dramTouch c (s.dramPlace a).snd).examine a).guard = false ∧ (((s.drainBurst c a).dramTouch c (s.dramPlace a).snd).examine a).ue = false ∧ (((s.drainBurst c a).dramTouch c (s.dramPlace a).snd).examine a).ce = false ∧ (((s.drainBurst c a).dramTouch c (s.dramPlace a).snd).examine a).flagBad = true) ∧
    (∃ (c : Nat) (a : Nat) (s : State), ((s.drainBurst c a).dram c).st ≠ DdrState.frozen ∧ ((s.drainBurst c a).dram c).unfilled (s.dramPlace a).snd = false ∧ (((s.drainBurst c a).dramTouch c (s.dramPlace a).snd).examine a).guard = false ∧ (((s.drainBurst c a).dramTouch c (s.dramPlace a).snd).examine a).ue = false ∧ (((s.drainBurst c a).dramTouch c (s.dramPlace a).snd).examine a).ce = false ∧ (((s.drainBurst c a).dramTouch c (s.dramPlace a).snd).examine a).flagBad = false) :=
  ⟨⟨(1 : Nat), (137438953472 : Nat), (sd { st := .run, filled := true, wq := [dw (2^37) 3] } { wf := 3, ag := 7 } : State), (by decide +kernel)⟩,
   ⟨(1 : Nat), (1 : Nat), (sd { st := .fill } : State), (by decide +kernel), (by decide +kernel)⟩,
   ⟨(1 : Nat), (137438953472 : Nat), (sd { st := .run, filled := true } { wf := 3, ag := 7 } : State), (by decide +kernel), (by decide +kernel), (by decide +kernel)⟩,
   ⟨(1 : Nat), (137438953472 : Nat), (sd { st := .run, filled := true } { wf := 3, err := 7 } : State), (by decide +kernel), (by decide +kernel), (by decide +kernel), (by decide +kernel)⟩,
   ⟨(1 : Nat), (137438953472 : Nat), (sd { st := .run, filled := true } { wf := 3, err := 1 } : State), (by decide +kernel), (by decide +kernel), (by decide +kernel), (by decide +kernel), (by decide +kernel)⟩,
   ⟨(1 : Nat), (137438953472 : Nat), (sd { st := .run, filled := true } { wf := 1 } : State), (by decide +kernel), (by decide +kernel), (by decide +kernel), (by decide +kernel), (by decide +kernel), (by decide +kernel)⟩,
   ⟨(1 : Nat), (1 : Nat), (sd { st := .run, filled := true, wq := [dw (2^37) 3] } { wf := 3, ag := 7 } : State), (by decide +kernel), (by decide +kernel), (by decide +kernel), (by decide +kernel), (by decide +kernel), (by decide +kernel)⟩⟩

end C3

theorem witness5 :
    (∃ (s : State), s.rb (govBase + 256) 2 = false) ∧
    (∃ (s : State), s.rb (govBase + 256) 2 = true) :=
  ⟨⟨(s0 : State), (by decide +kernel)⟩,
   ⟨(cb 7 { wf := 3 } [(govBase + 0x100, 4#32)] (some 600) : State), (by decide +kernel)⟩⟩

theorem witness6 :
    (∃ (u : Fin 8) (s : State), s.rb (scrReg (↑u : Nat)) 0 = true) ∧
    (∃ (u : Fin 8) (v : Word32) (s : State), s.rb (scrReg (↑u : Nat)) 0 = false ∧ ((fun (n : Nat) => n < 1 ∨ 1000 < n) (fld v 16 10) ∨ (fun (n : Nat) => n < 1 ∨ 1000 < n) (s.rf (scrReg (↑u : Nat) + 16) 0 10) ∨ (fun (n : Nat) => n < 1 ∨ 1000 < n) (s.rf (scrReg (↑u : Nat) + 16) 12 10) ∨ s.rf (scrReg (↑u : Nat) + 16) 0 10 < s.rf (scrReg (↑u : Nat) + 16) 12 10)) ∧
    (∃ (u : Fin 8) (v : Word32) (s : State), s.rb (scrReg (↑u : Nat)) 0 = false ∧ (¬((fun (n : Nat) => n < 1 ∨ 1000 < n) (fld v 16 10) ∨ (fun (n : Nat) => n < 1 ∨ 1000 < n) (s.rf (scrReg (↑u : Nat) + 16) 0 10) ∨ (fun (n : Nat) => n < 1 ∨ 1000 < n) (s.rf (scrReg (↑u : Nat) + 16) 12 10) ∨ s.rf (scrReg (↑u : Nat) + 16) 0 10 < s.rf (scrReg (↑u : Nat) + 16) 12 10))) :=
  ⟨⟨(3 : Fin 8), (cb 0 { wf := 3 } [] (some 400) : State), (by decide +kernel)⟩,
   ⟨(0 : Fin 8), (0x00000000#32 : Word32), (s0 : State), (by decide +kernel), (by decide +kernel)⟩,
   ⟨(5 : Fin 8), (0x00100000#32 : Word32), ({ regs := [(scrReg 5 + 0x10, 0x0200A00A#32), (govBase + 0x100, 4#32), (scrReg 5, 0x01000000#32)] } : State), (by decide +kernel), (by decide +kernel)⟩⟩

end ScrubbersVisitAdaptAndStart

/-! Witnesses of `Obligations.DramChannelsIssueAndRefresh`. -/
namespace DramChannelsIssueAndRefresh

def dw (a : Nat) (sl : BitVec 12) : DramWrite := { addr := a, slots := sl, bytes := 0, data := 0x1234567890ABCDEF1234567890ABCDEF }
def da : Nat := 2 * 2 ^ 36 + 0x400
def dm (x : Dram) (r : Map Word32 := []) (e : Code := {}) : State := { drams := [(2, { x with filled := true })], regs := [(dramBase 2, 5#32), (dramBase 2 + 0x14, 0x00080100#32), (dramBase 2 + 0x24, 0xFFFF0000#32)] ++ r, now := 5000, codes := [(da / 32, e)], mem := [⟨da, 5⟩, ⟨da+31, 6⟩] }

namespace C0
def rdm (a : Nat) (since : Nat) : Moving := { pkt := { m := .puppeteer, dest := 72, op := 1, addr := a, rlen := 1, tag := 0 }, at_ := 72 , from_ := 72, arrived := true, since := since }
def rds (q : Nat) (d : Bool) : State := { dm { st := .run, wq := [dw da 0xFFF, dw da 3], drain := d, rows := [(0, some (0, 4))] } with noc := { moving := (List.range 76).map fun t => { rdm da q with at_ := t, pkt := { (rdm da q).pkt with dest := t } } } }

theorem witness0 :
    (∃ (c : Fin 4) (s : State), (s.dram (↑c : Nat)).live = false) ∧
    (∃ (c : Fin 4) (s : State), (s.dram (↑c : Nat)).live = true ∧ ((s.dram (↑c : Nat)).wq ≠ [] ∧ s.readNext (↑c : Nat) = none)) ∧
    (∃ (c : Fin 4) (s : State), (s.dram (↑c : Nat)).live = true ∧ (¬((s.dram (↑c : Nat)).wq ≠ [] ∧ s.readNext (↑c : Nat) = none)) ∧ ((s.dram (↑c : Nat)).st = DdrState.fill ∧ s.waitPlaces (↑c : Nat) = [] ∧ ∀ (k : Nat), k < s.ranks (↑c : Nat) → ¬(fun (k : Nat) => 0 < ((s.dram (↑c : Nat)).rank k).post ∨ ((s.dram (↑c : Nat)).rank k).pull < ((s.dram (↑c : Nat)).rank k).limit) k)) ∧
    (∃ (c : Fin 4) (s : State), (s.dram (↑c : Nat)).live = true ∧ (¬((s.dram (↑c : Nat)).wq ≠ [] ∧ s.readNext (↑c : Nat) = none)) ∧ (¬((s.dram (↑c : Nat)).st = DdrState.fill ∧ s.waitPlaces (↑c : Nat) = [] ∧ ∀ (k : Nat), k < s.ranks (↑c : Nat) → ¬(fun (k : Nat) => 0 < ((s.dram (↑c : Nat)).rank k).post ∨ ((s.dram (↑c : Nat)).rank k).pull < ((s.dram (↑c : Nat)).rank k).limit) k))) ∧
    (∃ (c : Fin 4) (s : State), s.readQueue (↑c : Nat) = []) ∧
    (∃ (c : Fin 4) (s : State) (e : Nat × Moving), e ∈ s.readQueue (↑c : Nat) ∧ (s.aged (↑c : Nat) e.snd = true ∨ (s.dram (↑c : Nat)).drain = false ∨ (s.dram (↑c : Nat)).wq = [])) ∧
    (∃ (c : Fin 4) (s : State), (∀ (e : Nat × Moving), e ∈ s.readQueue (↑c : Nat) → s.aged (↑c : Nat) e.snd = false) ∧ (s.dram (↑c : Nat)).drain = true ∧ (s.dram (↑c : Nat)).wq ≠ []) :=
  ⟨⟨(0 : Fin 4), (s0 : State), (by decide +kernel)⟩,
   ⟨(2 : Fin 4), (dm { st := .run, wq := [dw da 0xFFF, dw da 3], rows := [(0, some (3, 4))] } : State), (by decide +kernel), (by decide +kernel)⟩,
   ⟨(2 : Fin 4), (dm { st := .fill, rank0 := { pull := 4 }, fillPos := 30, skip := [16, 40], rows := [(0, some (3, 4))] } [] : State), (by decide +kernel), (by decide +kernel), (by decide +kernel)⟩,
   ⟨(2 : Fin 4), (rds 1 true : State), (by decide +kernel), (by decide +kernel), (by decide +kernel)⟩,
   ⟨(0 : Fin 4), (s0 : State), (by decide +kernel)⟩,
   ⟨(0 : Fin 4), (rds 1 true : State), ((64, { pkt := { m := Sys2Proof.Master.puppeteer, dest := 64, dport := 0, vn := false, epoch := false, op := 1, addr := 137438954496, rlen := 1, rsize := 0, slots := 0x000000000000000000000000#96, bytes := 0x00000000#32, status := 0, tag := 0, data := [] }, at_ := 64, from_ := 72, arrived := true, since := 1 }) : Nat × Moving), (by decide +kernel), (by decide +kernel)⟩,
   ⟨(2 : Fin 4), (dm { st := .run, wq := [dw da 3], drain := true } : State), (by decide +kernel), (by decide +kernel), (by decide +kernel)⟩⟩

end C0

theorem witness1 :
    (∃ (c : Nat) (k : Nat) (s : State), s.rankWaits c k = true) ∧
    (∃ (c : Nat) (k : Nat) (s : State), s.rankWaits c k = false ∧ 0 < ((s.dram c).rank k).post) ∧
    (∃ (c : Nat) (k : Nat) (s : State), s.rankWaits c k = false ∧ ((s.dram c).rank k).post = 0 ∧ ((s.dram c).rank k).pull < ((s.dram c).rank k).limit) ∧
    (∃ (c : Nat) (k : Nat) (s : State), s.rankWaits c k = false ∧ ((s.dram c).rank k).post = 0 ∧ ((s.dram c).rank k).limit ≤ ((s.dram c).rank k).pull) :=
  ⟨⟨(2 : Nat), (0 : Nat), (dm { st := .run, wq := [dw da 0xFFF, dw da 3], rows := [(0, some (3, 4))] } : State), (by decide +kernel)⟩,
   ⟨(2 : Nat), (0 : Nat), (dm { st := .run, rank0 := { post := 2 }, rows := [(0, some (3, 4)), (77, some (5, 4999))], idleFrom := 1000 } : State), (by decide +kernel), (by decide +kernel)⟩,
   ⟨(0 : Nat), (0 : Nat), (s0 : State), (by decide +kernel), (by decide +kernel), (by decide +kernel)⟩,
   ⟨(2 : Nat), (0 : Nat), (dm { st := .run, rank0 := { pull := 4 }, rank1 := { pull := 1 }, rows := [(0, some (3, 4)), (77, some (5, 4999))], idleFrom := 4000 } [(dramBase 2 + 8, 0x10#32)] : State), (by decide +kernel), (by decide +kernel), (by decide +kernel)⟩⟩

theorem witness2 :
    (∃ (c : Nat) (s : State), ((s.dram c).st = DdrState.frozen ∨ (s.dram c).wq = [])) ∧
    (∃ (c : Nat) (s : State) (w : DramWrite) (rest : List DramWrite), (s.dram c).st ≠ DdrState.frozen ∧ (s.dram c).wq = w :: rest) :=
  ⟨⟨(0 : Nat), (s0 : State), (by decide +kernel)⟩,
   ⟨(2 : Nat), (dm { st := .run, wq := [dw da 0xFFF, dw da 3], rows := [(0, some (3, 4))] } : State), ((((dm { st := .run, wq := [dw da 0xFFF, dw da 3], rows := [(0, some (3, 4))] } : State)).dram ((2 : Nat))).wq).head (by all_goals decide +kernel), ((((dm { st := .run, wq := [dw da 0xFFF, dw da 3], rows := [(0, some (3, 4))] } : State)).dram ((2 : Nat))).wq).tail, (by decide +kernel), (by decide +kernel)⟩⟩

theorem witness3 :
    (∃ (w : DramWrite), w.slots = 4095#12) ∧
    (∃ (c : Nat) (w : DramWrite) (s : State), w.slots ≠ 4095#12 ∧ ((s.dramTouch c (s.dramPlace w.addr).snd).examine w.addr).guard = true) ∧
    (∃ (c : Nat) (w : DramWrite) (s : State), w.slots ≠ 4095#12 ∧ ((s.dramTouch c (s.dramPlace w.addr).snd).examine w.addr).guard = false ∧ ((s.dramTouch c (s.dramPlace w.addr).snd).examine w.addr).ue = true ∧ ((if ((s.dramTouch c (s.dramPlace w.addr).snd).examine w.addr).ce = true then (s.dramTouch c (s.dramPlace w.addr).snd).logChannel c LogKind.ce 1 w.addr ((s.dramTouch c (s.dramPlace w.addr).snd).examine w.addr).syn else if ((s.dramTouch c (s.dramPlace w.addr).snd).examine w.addr).ue = true then (s.dramTouch c (s.dramPlace w.addr).snd).logChannel c LogKind.ue 1 w.addr ((s.dramTouch c (s.dramPlace w.addr).snd).examine w.addr).syn else s.dramTouch c (s.dramPlace w.addr).snd).rb (dramBase c) 1 = true)) ∧
    (∃ (c : Nat) (w : DramWrite) (s : State), w.slots ≠ 4095#12 ∧ ((s.dramTouch c (s.dramPlace w.addr).snd).examine w.addr).guard = false ∧ (((s.dramTouch c (s.dramPlace w.addr).snd).examine w.addr).ue = false ∨ (if ((s.dramTouch c (s.dramPlace w.addr).snd).examine w.addr).ce = true then (s.dramTouch c (s.dramPlace w.addr).snd).logChannel c LogKind.ce 1 w.addr ((s.dramTouch c (s.dramPlace w.addr).snd).examine w.addr).syn else if ((s.dramTouch c (s.dramPlace w.addr).snd).examine w.addr).ue = true then (s.dramTouch c (s.dramPlace w.addr).snd).logChannel c LogKind.ue 1 w.addr ((s.dramTouch c (s.dramPlace w.addr).snd).examine w.addr).syn else s.dramTouch c (s.dramPlace w.addr).snd).rb (dramBase c) 1 = false)) :=
  ⟨⟨({ addr := 137438954496, slots := 0xfff#12, bytes := 0x00000000#32, data := 0x000000000000000000000000000000001234567890abcdef1234567890abcdef#256 } : DramWrite), (by decide +kernel)⟩,
   ⟨(2 : Nat), ({ addr := 137438954496, slots := 0x003#12, bytes := 0x00000000#32, data := 0x000000000000000000000000000000001234567890abcdef1234567890abcdef#256 } : DramWrite), ({ dm { st := .run, wq := [dw da 3, dw da 0xFFF] } [] { wf := 3, ag := 5 } with regs := [(dramBase 2, 3#32)] } : State), (by decide +kernel), (by decide +kernel)⟩,
   ⟨(2 : Nat), ({ addr := 137438954496, slots := 0x003#12, bytes := 0x00000000#32, data := 0x000000000000000000000000000000001234567890abcdef1234567890abcdef#256 } : DramWrite), ({ dm { st := .run, wq := [dw da 3] } [] { wf := 3, err := 7 } with regs := [(dramBase 2, 3#32)] } : State), (by decide +kernel), (by decide +kernel), (by decide +kernel), (by decide +kernel)⟩,
   ⟨(2 : Nat), ({ addr := 137438954496, slots := 0x003#12, bytes := 0x00000000#32, data := 0x000000000000000000000000000000001234567890abcdef1234567890abcdef#256 } : DramWrite), (s0 : State), (by decide +kernel), (by decide +kernel), (by decide +kernel)⟩⟩

theorem witness4 :
    (∃ (c : Nat) (l : Nat) (s : State), (∃ (t : Nat), mget none (s.dram c).rows (dramLoc (s.rg (dramBase c + 8)) (l / 32)).key = some ((dramLoc (s.rg (dramBase c + 8)) (l / 32)).row, t))) ∧
    (∃ (c : Nat) (l : Nat) (s : State), (¬∃ (t : Nat), mget none (s.dram c).rows (dramLoc (s.rg (dramBase c + 8)) (l / 32)).key = some ((dramLoc (s.rg (dramBase c + 8)) (l / 32)).row, t))) :=
  ⟨⟨(2 : Nat), (0 : Nat), (dm { st := .run, rows := (List.range 128).map fun k => (k, some (0, 4)) } : State), ⟨_, rfl⟩⟩,
   ⟨(0 : Nat), (0 : Nat), (s0 : State), (by nofun)⟩⟩

theorem witness5 :
    (∃ (c : Nat) (n : Nat) (s : State) (k : Nat), s.fillHits c n (32 * k)) ∧
    (∃ (c : Nat) (n : Nat) (s : State) (k : Nat), (¬s.fillHits c n (32 * k))) ∧
    (∃ (c : Nat) (k : Nat), k ≠ c) :=
  ⟨⟨(2 : Nat), (40 : Nat), (s0 : State), (4294967328 : Nat), (by unfold State.fillHits; decide +kernel)⟩,
   ⟨(2 : Nat), (2 : Nat), (s0 : State), (2 : Nat), (by unfold State.fillHits; decide +kernel)⟩,
   ⟨(2 : Nat), (40 : Nat), (by decide +kernel)⟩⟩

theorem witness6 :
    (∃ (c : Fin 4) (k : Fin 2) (s : State), (s.ranks (↑c : Nat) ≤ (↑k : Nat) ∨ (s.dram (↑c : Nat)).live = false ∧ (s.dram (↑c : Nat)).st ≠ DdrState.frozen)) ∧
    (∃ (c : Fin 4) (k : Fin 2) (s : State), (↑k : Nat) < s.ranks (↑c : Nat) ∧ (s.dram (↑c : Nat)).st = DdrState.frozen) ∧
    (∃ (c : Fin 4) (k : Fin 2) (s : State), (↑k : Nat) < s.ranks (↑c : Nat) ∧ (s.dram (↑c : Nat)).live = true ∧ 0 < ((s.dram (↑c : Nat)).rank (↑k : Nat)).pull) ∧
    (∃ (c : Fin 4) (k : Fin 2) (s : State), (↑k : Nat) < s.ranks (↑c : Nat) ∧ (s.dram (↑c : Nat)).live = true ∧ ((s.dram (↑c : Nat)).rank (↑k : Nat)).pull = 0 ∧ s.rankWaits (↑c : Nat) (↑k : Nat) = true ∧ ((s.dram (↑c : Nat)).rank (↑k : Nat)).post < ((s.dram (↑c : Nat)).rank (↑k : Nat)).limit) ∧
    (∃ (c : Fin 4) (k : Fin 2) (s : State), (↑k : Nat) < s.ranks (↑c : Nat) ∧ (s.dram (↑c : Nat)).live = true ∧ ((s.dram (↑c : Nat)).rank (↑k : Nat)).pull = 0 ∧ (s.rankWaits (↑c : Nat) (↑k : Nat) = false ∨ ((s.dram (↑c : Nat)).rank (↑k : Nat)).limit ≤ ((s.dram (↑c : Nat)).rank (↑k : Nat)).post)) :=
  ⟨⟨(0 : Fin 4), (0 : Fin 2), (s0 : State), (by decide +kernel)⟩,
   ⟨(2 : Fin 4), (0 : Fin 2), (dm { st := .frozen, rank0 := { doubled := true, pull := 1 } } : State), (by decide +kernel), (by decide +kernel)⟩,
   ⟨(2 : Fin 4), (0 : Fin 2), (dm { st := .run, rank0 := { pull := 4 }, rank1 := { pull := 1 }, rows := [(0, some (3, 4)), (77, some (5, 4999))], idleFrom := 4000 } [(dramBase 2 + 8, 0x10#32)] : State), (by decide +kernel), (by decide +kernel), (by decide +kernel)⟩,
   ⟨(2 : Fin 4), (0 : Fin 2), (dm { st := .run, wq := [dw da 0xFFF, dw da 3], rows := [(0, some (3, 4))] } : State), (by decide +kernel), (by decide +kernel), (by decide +kernel), (by decide +kernel), (by decide +kernel)⟩,
   ⟨(2 : Fin 4), (0 : Fin 2), (dm { st := .run, rank0 := { post := 2 }, rows := [(0, some (3, 4)), (77, some (5, 4999))], idleFrom := 1000 } : State), (by decide +kernel), (by decide +kernel), (by decide +kernel), (by decide +kernel)⟩⟩

theorem witness7 :
    (∃ (c : Fin 4) (k : Fin 2) (s : State), (¬((↑k : Nat) < s.ranks (↑c : Nat) ∧ ((s.dram (↑c : Nat)).live = true ∨ (s.dram (↑c : Nat)).st = DdrState.frozen)))) ∧
    (∃ (c : Fin 4) (k : Fin 2) (rate : Fin 3) (s : State), ((↑k : Nat) < s.ranks (↑c : Nat) ∧ ((s.dram (↑c : Nat)).live = true ∨ (s.dram (↑c : Nat)).st = DdrState.frozen)) ∧ rate ≠ 0 ∧ ((s.dram (↑c : Nat)).rank (↑k : Nat)).doubled = false) ∧
    (∃ (c : Fin 4) (k : Fin 2) (rate : Fin 3) (s : State), ((↑k : Nat) < s.ranks (↑c : Nat) ∧ ((s.dram (↑c : Nat)).live = true ∨ (s.dram (↑c : Nat)).st = DdrState.frozen)) ∧ rate = 0 ∧ ((s.dram (↑c : Nat)).rank (↑k : Nat)).doubled = true) ∧
    (∃ (c : Fin 4) (k : Fin 2) (rate : Fin 3) (s : State), ((↑k : Nat) < s.ranks (↑c : Nat) ∧ ((s.dram (↑c : Nat)).live = true ∨ (s.dram (↑c : Nat)).st = DdrState.frozen)) ∧ (rate ≠ 0 ↔ ((s.dram (↑c : Nat)).rank (↑k : Nat)).doubled = true)) :=
  ⟨⟨(0 : Fin 4), (0 : Fin 2), (s0 : State), (by decide +kernel)⟩,
   ⟨(2 : Fin 4), (0 : Fin 2), (1 : Fin 3), (dm { st := .run, wq := [dw da 0xFFF, dw da 3], rows := [(0, some (3, 4))] } : State), (by decide +kernel), (by decide +kernel), (by decide +kernel)⟩,
   ⟨(2 : Fin 4), (0 : Fin 2), _, (dm { st := .frozen, rank0 := { doubled := true, pull := 1 } } : State), (by decide +kernel), rfl, (by decide +kernel)⟩,
   ⟨(2 : Fin 4), (0 : Fin 2), (0 : Fin 3), (dm { st := .run, wq := [dw da 0xFFF, dw da 3], rows := [(0, some (3, 4))] } : State), (by decide +kernel), (by decide +kernel)⟩⟩

theorem witness8 :
    (∃ (c : Fin 4) (key : Fin 128) (s : State), mget none (s.dram (↑c : Nat)).rows (↑key : Nat) = none) ∧
    (∃ (c : Fin 4) (key : Fin 128) (s : State) (row : Nat) (at_ : Nat), mget none (s.dram (↑c : Nat)).rows (↑key : Nat) = some (row, at_) ∧ at_ + s.rf (dramBase (↑c : Nat) + 20) 0 13 ≤ s.now ∧ (¬∃ (p : DramLoc), p ∈ s.waitPlaces (↑c : Nat) ∧ p.key = (↑key : Nat))) ∧
    (∃ (c : Fin 4) (key : Fin 128) (s : State) (row : Nat) (at_ : Nat), mget none (s.dram (↑c : Nat)).rows (↑key : Nat) = some (row, at_) ∧ (¬at_ + s.rf (dramBase (↑c : Nat) + 20) 0 13 ≤ s.now ∨ ∃ (p : DramLoc), p ∈ s.waitPlaces (↑c : Nat) ∧ p.key = (↑key : Nat))) :=
  ⟨⟨(0 : Fin 4), (0 : Fin 128), (s0 : State), (by decide +kernel)⟩,
   ⟨(2 : Fin 4), (0 : Fin 128), (dm { st := .run, wq := [dw da 0xFFF, dw da 3], rows := [(0, some (3, 4))] } : State), _, _, someGet2 _ (by decide +kernel), (by decide +kernel), (by decide +kernel)⟩,
   ⟨(2 : Fin 4), (77 : Fin 128), (dm { st := .run, rank0 := { post := 2 }, rows := [(0, some (3, 4)), (77, some (5, 4999))], idleFrom := 1000 } : State), _, _, someGet2 _ (by decide +kernel), (by decide +kernel)⟩⟩

theorem witness9 :
    (∃ (c : Fin 4) (s : State), (¬(s.rb (dramBase (↑c : Nat)) 2 = true ∧ 1000 * s.rf (dramBase (↑c : Nat) + 20) 18 14 ≠ 0 ∧ (s.dram (↑c : Nat)).st = DdrState.run ∧ s.waitPlaces (↑c : Nat) = [] ∧ (s.dram (↑c : Nat)).idleFrom + 1000 * s.rf (dramBase (↑c : Nat) + 20) 18 14 ≤ s.now))) ∧
    (∃ (c : Fin 4) (cancelled : Bool) (s : State), (s.rb (dramBase (↑c : Nat)) 2 = true ∧ 1000 * s.rf (dramBase (↑c : Nat) + 20) 18 14 ≠ 0 ∧ (s.dram (↑c : Nat)).st = DdrState.run ∧ s.waitPlaces (↑c : Nat) = [] ∧ (s.dram (↑c : Nat)).idleFrom + 1000 * s.rf (dramBase (↑c : Nat) + 20) 18 14 ≤ s.now) ∧ cancelled = false) ∧
    (∃ (c : Fin 4) (cancelled : Bool) (s : State), (s.rb (dramBase (↑c : Nat)) 2 = true ∧ 1000 * s.rf (dramBase (↑c : Nat) + 20) 18 14 ≠ 0 ∧ (s.dram (↑c : Nat)).st = DdrState.run ∧ s.waitPlaces (↑c : Nat) = [] ∧ (s.dram (↑c : Nat)).idleFrom + 1000 * s.rf (dramBase (↑c : Nat) + 20) 18 14 ≤ s.now) ∧ cancelled = true) :=
  ⟨⟨(0 : Fin 4), (s0 : State), (by decide +kernel)⟩,
   ⟨(2 : Fin 4), _, (dm { st := .run, rank0 := { post := 2 }, rows := [(0, some (3, 4)), (77, some (5, 4999))], idleFrom := 1000 } : State), (by decide +kernel), rfl⟩,
   ⟨(2 : Fin 4), _, (dm { st := .run, rank0 := { post := 2 }, rows := [(0, some (3, 4)), (77, some (5, 4999))], idleFrom := 1000 } : State), (by decide +kernel), rfl⟩⟩

end DramChannelsIssueAndRefresh

/-! Witnesses of `Obligations.DramChannelsFreezeTrainAndStart`. -/
namespace DramChannelsFreezeTrainAndStart

def dw (a : Nat) (sl : BitVec 12) : DramWrite := { addr := a, slots := sl, bytes := 0, data := 0x1234567890ABCDEF1234567890ABCDEF }
def da : Nat := 2 * 2 ^ 36 + 0x400
def dm (x : Dram) (r : Map Word32 := []) (e : Code := {}) : State := { drams := [(2, { x with filled := false })], regs := [(dramBase 2, 4#32), (dramBase 2 + 0x14, 0x00080100#32), (dramBase 2 + 0x24, 0xFFFF0000#32)] ++ r, now := 5000, codes := [(da / 32, e)], mem := [⟨da, 5⟩, ⟨da+31, 6⟩] }

theorem witness0 :
    (∃ (c : Fin 4) (s : State), (¬((s.dram (↑c : Nat)).live = true ∨ (s.dram (↑c : Nat)).st = DdrState.sref ∨ (s.dram (↑c : Nat)).st = DdrState.frozen))) ∧
    (∃ (c : Fin 4) (s : State), ((s.dram (↑c : Nat)).live = true ∨ (s.dram (↑c : Nat)).st = DdrState.sref ∨ (s.dram (↑c : Nat)).st = DdrState.frozen) ∧ (s.rb (dramBase (↑c : Nat) + 48) 31 = false ∧ (s.dram (↑c : Nat)).st ≠ DdrState.frozen)) ∧
    (∃ (c : Fin 4) (s : State), ((s.dram (↑c : Nat)).live = true ∨ (s.dram (↑c : Nat)).st = DdrState.sref ∨ (s.dram (↑c : Nat)).st = DdrState.frozen) ∧ (¬(s.rb (dramBase (↑c : Nat) + 48) 31 = false ∧ (s.dram (↑c : Nat)).st ≠ DdrState.frozen))) :=
  ⟨⟨(0 : Fin 4), (s0 : State), (by decide +kernel)⟩,
   ⟨(2 : Fin 4), (dm { st := .run, wq := [dw da 0xFFF, dw da 3], rows := [(0, some (3, 4))] } : State), (by decide +kernel), (by decide +kernel)⟩,
   ⟨(2 : Fin 4), (dm { st := .frozen, wq := [dw da 0xFFF, dw (da + 32) 0xFFF] } [(dramBase 2 + 0x30, 0x800000F1#32)] { wf := 3 } : State), (by decide +kernel), (by decide +kernel)⟩⟩

theorem witness1 :
    (∃ (c : Nat) (s : State), (s.dram c).st = DdrState.frozen) ∧
    (∃ (c : Nat) (s : State), (s.dram c).st ≠ DdrState.frozen) :=
  ⟨⟨(2 : Nat), (dm { st := .frozen, wq := [dw da 0xFFF, dw (da + 32) 0xFFF] } [(dramBase 2 + 0x30, 0x800000F1#32)] { wf := 3 } : State), (by decide +kernel)⟩,
   ⟨(0 : Nat), (s0 : State), (by decide +kernel)⟩⟩

theorem witness2 :
    (∃ (c : Fin 4) (s : State), (s.dram (↑c : Nat)).st ≠ DdrState.frozen) ∧
    (∃ (c : Fin 4) (s : State), (s.dram (↑c : Nat)).st = DdrState.frozen) :=
  ⟨⟨(0 : Fin 4), (s0 : State), (by decide +kernel)⟩,
   ⟨(2 : Fin 4), (dm { st := .frozen, wq := [dw da 0xFFF, dw (da + 32) 0xFFF] } [(dramBase 2 + 0x30, 0x800000F1#32)] { wf := 3 } : State), (by decide +kernel)⟩⟩

theorem witness3 :
    (∃ (m : Master) (c : Fin 4) (v : Word32) (bad : List (Nat × Nat × BitVec 40)) (mrr : List (BitVec 8)) (cmd : Instr) (op : Nat), (cmd = Instr.twWrrd m c v bad ∧ op = 0 ∨ cmd = Instr.twRd m c v bad ∧ op = 1 ∨ cmd = Instr.twCmd m c v mrr ∧ op = 2) ∧ m ≠ Master.puppeteer) ∧
    (∃ (m : Master) (c : Fin 4) (v : Word32) (bad : List (Nat × Nat × BitVec 40)) (mrr : List (BitVec 8)) (cmd : Instr) (op : Nat) (s : State), (cmd = Instr.twWrrd m c v bad ∧ op = 0 ∨ cmd = Instr.twRd m c v bad ∧ op = 1 ∨ cmd = Instr.twCmd m c v mrr ∧ op = 2) ∧ m = Master.puppeteer ∧ (s.dram (↑c : Nat)).twBusy = true) ∧
    (∃ (m : Master) (c : Fin 4) (v : Word32) (bad : List (Nat × Nat × BitVec 40)) (mrr : List (BitVec 8)) (cmd : Instr) (op : Nat) (s : State), (cmd = Instr.twWrrd m c v bad ∧ op = 0 ∨ cmd = Instr.twRd m c v bad ∧ op = 1 ∨ cmd = Instr.twCmd m c v mrr ∧ op = 2) ∧ m = Master.puppeteer ∧ (s.dram (↑c : Nat)).twBusy = false ∧ (¬((s.dram (↑c : Nat)).st = DdrState.off ∨ (s.dram (↑c : Nat)).st = DdrState.frozen))) ∧
    (∃ (m : Master) (c : Fin 4) (v : Word32) (bad : List (Nat × Nat × BitVec 40)) (mrr : List (BitVec 8)) (cmd : Instr) (op : Nat) (s : State), (cmd = Instr.twWrrd m c v bad ∧ op = 0 ∨ cmd = Instr.twRd m c v bad ∧ op = 1 ∨ cmd = Instr.twCmd m c v mrr ∧ op = 2) ∧ m = Master.puppeteer ∧ (s.dram (↑c : Nat)).twBusy = false ∧ ((s.dram (↑c : Nat)).st = DdrState.off ∨ (s.dram (↑c : Nat)).st = DdrState.frozen) ∧ 2 ≤ fld v 3 2) ∧
    (∃ (m : Master) (c : Fin 4) (v : Word32) (bad : List (Nat × Nat × BitVec 40)) (mrr : List (BitVec 8)) (cmd : Instr) (op : Nat) (s : State) (o : Nat), (cmd = Instr.twWrrd m c v bad ∧ op = 0 ∨ cmd = Instr.twRd m c v bad ∧ op = 1 ∨ cmd = Instr.twCmd m c v mrr ∧ op = 2) ∧ m = Master.puppeteer ∧ (s.dram (↑c : Nat)).twBusy = false ∧ ((s.dram (↑c : Nat)).st = DdrState.off ∨ (s.dram (↑c : Nat)).st = DdrState.frozen) ∧ fld v 3 2 < 2 ∧ op = 0 ∧ (o < dramBase (↑c : Nat) + 16896 ∨ dramBase (↑c : Nat) + 17408 ≤ o)) ∧
    (∃ (m : Master) (c : Fin 4) (v : Word32) (bad : List (Nat × Nat × BitVec 40)) (mrr : List (BitVec 8)) (cmd : Instr) (op : Nat) (s : State), (cmd = Instr.twWrrd m c v bad ∧ op = 0 ∨ cmd = Instr.twRd m c v bad ∧ op = 1 ∨ cmd = Instr.twCmd m c v mrr ∧ op = 2) ∧ m = Master.puppeteer ∧ (s.dram (↑c : Nat)).twBusy = false ∧ ((s.dram (↑c : Nat)).st = DdrState.off ∨ (s.dram (↑c : Nat)).st = DdrState.frozen) ∧ fld v 3 2 < 2 ∧ op = 0 ∧ fld v 16 16 = 0 ∧ bad = []) ∧
    (∃ (m : Master) (c : Fin 4) (v : Word32) (bad : List (Nat × Nat × BitVec 40)) (mrr : List (BitVec 8)) (cmd : Instr) (op : Nat) (s : State) (o : Nat), (cmd = Instr.twWrrd m c v bad ∧ op = 0 ∨ cmd = Instr.twRd m c v bad ∧ op = 1 ∨ cmd = Instr.twCmd m c v mrr ∧ op = 2) ∧ m = Master.puppeteer ∧ (s.dram (↑c : Nat)).twBusy = false ∧ ((s.dram (↑c : Nat)).st = DdrState.off ∨ (s.dram (↑c : Nat)).st = DdrState.frozen) ∧ fld v 3 2 < 2 ∧ op = 1 ∧ (o < dramBase (↑c : Nat) + 16896 ∨ dramBase (↑c : Nat) + 17408 ≤ o)) ∧
    (∃ (m : Master) (c : Fin 4) (v : Word32) (bad : List (Nat × Nat × BitVec 40)) (mrr : List (BitVec 8)) (cmd : Instr) (op : Nat) (s : State) (i : Nat) (r : BitVec 8), (cmd = Instr.twWrrd m c v bad ∧ op = 0 ∨ cmd = Instr.twRd m c v bad ∧ op = 1 ∨ cmd = Instr.twCmd m c v mrr ∧ op = 2) ∧ m = Master.puppeteer ∧ (s.dram (↑c : Nat)).twBusy = false ∧ ((s.dram (↑c : Nat)).st = DdrState.off ∨ (s.dram (↑c : Nat)).st = DdrState.frozen) ∧ fld v 3 2 < 2 ∧ op = 2 ∧ i < 10 ∧ mrr[i]? = some r) ∧
    (∃ (m : Master) (c : Fin 4) (v : Word32) (bad : List (Nat × Nat × BitVec 40)) (mrr : List (BitVec 8)) (cmd : Instr) (op : Nat) (s : State) (o : Nat), (cmd = Instr.twWrrd m c v bad ∧ op = 0 ∨ cmd = Instr.twRd m c v bad ∧ op = 1 ∨ cmd = Instr.twCmd m c v mrr ∧ op = 2) ∧ m = Master.puppeteer ∧ (s.dram (↑c : Nat)).twBusy = false ∧ ((s.dram (↑c : Nat)).st = DdrState.off ∨ (s.dram (↑c : Nat)).st = DdrState.frozen) ∧ fld v 3 2 < 2 ∧ op = 2 ∧ (∀ (i : Nat), i < 10 → i < mrr.length → o ≠ (fun (i : Nat) => dramBase (↑c : Nat) + 18432 + 512 * (2 * b2n ((s.setRg (dramBase (↑c : Nat) + 16384) (s.rg (dramBase (↑c : Nat) + 16384) &&& ~~~4294901886#32 ||| setFld v 1 2 op &&& 4294901886#32)).rb (dramBase (↑c : Nat) + 16384) 5) + b2n ((s.setRg (dramBase (↑c : Nat) + 16384) (s.rg (dramBase (↑c : Nat) + 16384) &&& ~~~4294901886#32 ||| setFld v 1 2 op &&& 4294901886#32)).rb (dramBase (↑c : Nat) + 16384) 6)) + 4 * (92 + i)) i)) :=
  ⟨⟨(Sys2Proof.Master.core 1 : Master), (2 : Fin 4), (0x00000000#32 : Word32), ([] : List (Nat × Nat × BitVec 40)), ([] : List (BitVec 8)), (Sys2Proof.Instr.twRd (Sys2Proof.Master.core 1) 2 0x00000000#32 [] : Instr), (1 : Nat), (by decide +kernel), (by decide +kernel)⟩,
   ⟨_, (2 : Fin 4), (0x00000000#32 : Word32), ([] : List (Nat × Nat × BitVec 40)), ([] : List (BitVec 8)), (Sys2Proof.Instr.twWrrd (Sys2Proof.Master.puppeteer) 2 0x00000000#32 [] : Instr), (0 : Nat), (dm { st := .off, twBusy := true } : State), (by decide +kernel), rfl, (by decide +kernel)⟩,
   ⟨_, (2 : Fin 4), (0x00000000#32 : Word32), ([] : List (Nat × Nat × BitVec 40)), ([] : List (BitVec 8)), (Sys2Proof.Instr.twWrrd (Sys2Proof.Master.puppeteer) 2 0x00000000#32 [] : Instr), (0 : Nat), (dm { st := .run, wq := [dw da 0xFFF, dw da 3], rows := [(0, some (3, 4))] } : State), (by decide +kernel), rfl, (by decide +kernel), (by decide +kernel)⟩,
   ⟨_, (2 : Fin 4), (0x00000055#32 : Word32), ([] : List (Nat × Nat × BitVec 40)), ([] : List (BitVec 8)), (Sys2Proof.Instr.twWrrd (Sys2Proof.Master.puppeteer) 2 0x00000055#32 [] : Instr), (0 : Nat), (s0 : State), (by decide +kernel), rfl, (by decide +kernel), (by decide +kernel), (by decide +kernel)⟩,
   ⟨_, (2 : Fin 4), (0x00000000#32 : Word32), ([] : List (Nat × Nat × BitVec 40)), ([] : List (BitVec 8)), (Sys2Proof.Instr.twWrrd (Sys2Proof.Master.puppeteer) 2 0x00000000#32 [] : Instr), _, (s0 : State), (0 : Nat), (by decide +kernel), rfl, (by decide +kernel), (by decide +kernel), (by decide +kernel), rfl, (by decide +kernel)⟩,
   ⟨_, (2 : Fin 4), (0x00000000#32 : Word32), _, ([] : List (BitVec 8)), (Sys2Proof.Instr.twWrrd (Sys2Proof.Master.puppeteer) 2 0x00000000#32 [] : Instr), _, (s0 : State), (by decide +kernel), rfl, (by decide +kernel), (by decide +kernel), (by decide +kernel), rfl, (by decide +kernel), rfl⟩,
   ⟨_, (2 : Fin 4), (0x00000000#32 : Word32), ([] : List (Nat × Nat × BitVec 40)), ([] : List (BitVec 8)), (Sys2Proof.Instr.twRd (Sys2Proof.Master.puppeteer) 2 0x00000000#32 [] : Instr), _, (s0 : State), (0 : Nat), (by decide +kernel), rfl, (by decide +kernel), (by decide +kernel), (by decide +kernel), rfl, (by decide +kernel)⟩,
   ⟨_, (2 : Fin 4), (0x00000000#32 : Word32), ([] : List (Nat × Nat × BitVec 40)), ([0x00#8] : List (BitVec 8)), (Sys2Proof.Instr.twCmd (Sys2Proof.Master.puppeteer) 2 0x00000000#32 [0x00#8] : Instr), _, (s0 : State), (0 : Nat), _, (by decide +kernel), rfl, (by decide +kernel), (by decide +kernel), (by decide +kernel), rfl, (by decide +kernel), someGet _ (by decide +kernel)⟩,
   ⟨_, (2 : Fin 4), (0x00000000#32 : Word32), ([] : List (Nat × Nat × BitVec 40)), ([] : List (BitVec 8)), (Sys2Proof.Instr.twCmd (Sys2Proof.Master.puppeteer) 2 0x00000000#32 [] : Instr), _, (s0 : State), (0 : Nat), (by decide +kernel), rfl, (by decide +kernel), (by decide +kernel), (by decide +kernel), rfl, (by decide +kernel)⟩⟩

theorem witness4 :
    (∃ (c : Fin 4) (s : State), (s.dram (↑c : Nat)).twBusy = true) ∧
    (∃ (c : Fin 4) (s : State), (s.dram (↑c : Nat)).twBusy = false) :=
  ⟨⟨(2 : Fin 4), (dm { st := .off, twBusy := true } : State), (by decide +kernel)⟩,
   ⟨(0 : Fin 4), (s0 : State), (by decide +kernel)⟩⟩

theorem witness5 :
    (∃ (m : Master), (m = Master.puppeteer ∨ m = Master.loader)) ∧
    (∃ (m : Master) (c : Fin 4) (cmd : Instr), (¬(m = Master.puppeteer ∨ m = Master.loader)) ∧ (cmd = Instr.chrst m c ∨ cmd = Instr.ddrTrained m c ∨ cmd = Instr.ddrFail m c)) :=
  ⟨⟨(Sys2Proof.Master.puppeteer : Master), (by decide +kernel)⟩,
   ⟨(Sys2Proof.Master.core 1 : Master), (2 : Fin 4), (Sys2Proof.Instr.chrst (Sys2Proof.Master.core 1) 2 : Instr), (by decide +kernel), (by decide +kernel)⟩⟩

theorem witness6 :
    (∃ (c : Fin 4) (s : State), s.rb (dramBase (↑c : Nat)) 0 = true) ∧
    (∃ (c : Fin 4) (v : Word32) (s : State), s.rb (dramBase (↑c : Nat)) 0 = false ∧ ((if bit v 3 = true then (s.setRg (dramBase (↑c : Nat)) (s.rg (dramBase (↑c : Nat)) &&& ~~~6#32 ||| v &&& 6#32)).unfreeze (↑c : Nat) else s.setRg (dramBase (↑c : Nat)) (s.rg (dramBase (↑c : Nat)) &&& ~~~6#32 ||| v &&& 6#32)).ddrCheck (↑c : Nat) = [])) ∧
    (∃ (c : Fin 4) (v : Word32) (s : State) (k : Nat), s.rb (dramBase (↑c : Nat)) 0 = false ∧ (k ∈ (if bit v 3 = true then (s.setRg (dramBase (↑c : Nat)) (s.rg (dramBase (↑c : Nat)) &&& ~~~6#32 ||| v &&& 6#32)).unfreeze (↑c : Nat) else s.setRg (dramBase (↑c : Nat)) (s.rg (dramBase (↑c : Nat)) &&& ~~~6#32 ||| v &&& 6#32)).ddrCheck (↑c : Nat)) ∧ (∀ (d : Nat), d ∈ (if bit v 3 = true then (s.setRg (dramBase (↑c : Nat)) (s.rg (dramBase (↑c : Nat)) &&& ~~~6#32 ||| v &&& 6#32)).unfreeze (↑c : Nat) else s.setRg (dramBase (↑c : Nat)) (s.rg (dramBase (↑c : Nat)) &&& ~~~6#32 ||| v &&& 6#32)).ddrCheck (↑c : Nat) → k ≤ d)) :=
  ⟨⟨(2 : Fin 4), ({ dm { st := .fill, skip := [3], fillPos := 10 } with regs := [(dramBase 2, 1#32), (dramBase 2 + 0x24, 0x80000#32)] } : State), (by decide +kernel)⟩,
   ⟨(2 : Fin 4), (0x00000000#32 : Word32), (dm { st := .off } [(dramBase 2 + 0x18, 0x10102#32), (dramBase 2 + 0x20, 1#32)] : State), (by decide +kernel), (by decide +kernel)⟩,
   ⟨(0 : Fin 4), (0x00000000#32 : Word32), (s0 : State), (1540 : Nat), (by decide +kernel), (by decide +kernel), (by decide +kernel)⟩⟩

theorem witness8 :
    (∃ (c : Fin 4) (s : State), (s.dram (↑c : Nat)).st = DdrState.fill) ∧
    (∃ (c : Fin 4) (s : State), (s.dram (↑c : Nat)).st ≠ DdrState.fill) :=
  ⟨⟨(2 : Fin 4), ({ dm { st := .fill, skip := [3], fillPos := 10 } with regs := [(dramBase 2, 1#32), (dramBase 2 + 0x24, 0x80000#32)] } : State), (by decide +kernel)⟩,
   ⟨(0 : Fin 4), (s0 : State), (by decide +kernel)⟩⟩

end DramChannelsFreezeTrainAndStart

/-! Witnesses of `Obligations.PinEdgesReachTheirOwners`. -/
namespace PinEdgesReachTheirOwners

def pe (own : Nat) (w : Nat) (e : Pad) (x : Region := {}) : State := { regs := [(mioBase, 1#32), (pinReg 3, BitVec.ofNat 32 own), (tsuReg 0, BitVec.ofNat 32 (2^31 + 3)), (tsuReg 1, BitVec.ofNat 32 (2^31 + 2^24 + 3)), (tsuReg 2, BitVec.ofNat 32 (2^31 + 2^25 + 3)), (bootBase, 7#32)], pads := [(3, e)], regions := [(0, { x with a := { slotRec := [(3, BitVec.ofNat 64 (w * 2^32))] } })], now := 12345 }

theorem witness0 :
    (∃ (p : Fin 512) (d : Option Bool) (s : State), (({ s with pads := mupd { ext := none, keep := none : Pad } s.pads (↑p : Nat) fun (x : Pad) => { x with ext := d } }.keepPad (↑p : Nat)).padLevel (↑p : Nat) = s.padLevel (↑p : Nat))) ∧
    (∃ (p : Fin 512) (d : Option Bool) (s : State), (({ s with pads := mupd { ext := none, keep := none : Pad } s.pads (↑p : Nat) fun (x : Pad) => { x with ext := d } }.keepPad (↑p : Nat)).padLevel (↑p : Nat) ≠ s.padLevel (↑p : Nat))) :=
  ⟨⟨(3 : Fin 512), some false, pe 1 0x11 { ext := some false }, (by decide +kernel)⟩,
   ⟨(3 : Fin 512), some true, pe 1 0x11 { ext := some false }, (by decide +kernel)⟩⟩

theorem witness1 :
    (∃ (p : Nat) (s : State), (mget { ext := none, keep := none : Pad } s.pads p).ext = none ∧ s.padDrive p = none) ∧
    (∃ (p : Nat) (s : State), (¬((mget { ext := none, keep := none : Pad } s.pads p).ext = none ∧ s.padDrive p = none))) :=
  ⟨⟨(0 : Nat), (s0 : State), (by decide +kernel), (by decide +kernel)⟩,
   ⟨(3 : Nat), (pe 1 0x11 { ext := some false } { pinWay := [{ slot := 3, left := 2, age := 1, level := true }, { slot := 4, left := 2, level := true }] } : State), (by decide +kernel)⟩⟩

theorem witness2 :
    (∃ (p : Nat) (s : State), s.pinRegion p = none) ∧
    (∃ (p : Nat) (s : State) (r : Nat), s.pinRegion p = some r ∧ (slotFunc ((s.region r).active.slot (p % 64)) = 1 ∨ slotFunc ((s.region r).active.slot (p % 64)) = 6 ∨ slotFunc ((s.region r).active.slot (p % 64)) = 7 ∨ slotFunc ((s.region r).active.slot (p % 64)) = 8)) ∧
    (∃ (p : Nat) (s : State) (r : Nat), s.pinRegion p = some r ∧ (¬(slotFunc ((s.region r).active.slot (p % 64)) = 1 ∨ slotFunc ((s.region r).active.slot (p % 64)) = 6 ∨ slotFunc ((s.region r).active.slot (p % 64)) = 7 ∨ slotFunc ((s.region r).active.slot (p % 64)) = 8))) :=
  ⟨⟨(0 : Nat), (s0 : State), (by decide +kernel)⟩,
   ⟨(3 : Nat), (pe 1 0x11 { ext := some false } { pinWay := [{ slot := 3, left := 2, age := 1, level := true }, { slot := 4, left := 2, level := true }] } : State), _, someGet _ (by decide +kernel), (by decide +kernel)⟩,
   ⟨(3 : Nat), (pe 1 0x12 {} : State), _, someGet _ (by decide +kernel), (by decide +kernel)⟩⟩

theorem witness3 :
    (∃ (p : Nat) (level : Bool) (s : State) (k : Nat) (j : Nat), k < 8 ∧ ((fun (k : Nat) => (s.rb (tsuReg k) 31 && s.rf (tsuReg k) 0 9 == p && s.rf (tsuReg k) 24 2 == if level = true then 0 else 1) && s.pinOwn p == 9 && s.rb mioBase 0) k = true) ∧ 1 ≤ j ∧ j < 32) :=
  ⟨(3 : Nat), (false : Bool), (pe 9 0 { ext := some true } : State), (1 : Nat), (1 : Nat), (by decide +kernel), (by decide +kernel), (by decide +kernel), (by decide +kernel)⟩

end PinEdgesReachTheirOwners

/-! Witnesses of `Obligations.PinOutputsTakeTheirSamples`. -/
namespace PinOutputsTakeTheirSamples

def po (w : Nat) (x : Region) (five : Nat := 0x03170409) : State := { regs := [(mioBase, 1#32), (pinReg 3, 1#32), (tsuReg 0, BitVec.ofNat 32 (2^31 + 2^25 + 9)), (tsuReg 0 + 8, 70#32), (pinReg 9, 9#32), (bootBase, 7#32), (tsuReg 1, BitVec.ofNat 32 (2^31 + 3 * 2^24 + 9)), (tsuReg 1 + 8, 7000#32), (0, 1#32)], regions := [(0, { x with a := { slotRec := [(3, BitVec.ofNat 64 (w * 2^32 + 0x11)), (5, BitVec.ofNat 64 (five * 2^32))] } })], now := 100, pads := [(3, { ext := some true })] }
def ssi : Region := { slots := [(5, { frames := 1, ssiFrom := 8, clkOn := true })] }

theorem witness0 :
    (∃ (r : Fin 64) (s : State), s.dead = false ∧ s.resting (↑r : Nat) = false) ∧
    (∃ (r : Fin 64) (k : Fin 64) (s : State), s.dead = false ∧ s.resting (↑r : Nat) = true ∧ (∀ (g : PinStage), g ∈ (s.region (↑r : Nat)).pinOut → g.slot ≠ (↑k : Nat))) ∧
    (∃ (r : Fin 64) (k : Fin 64) (s : State) (g : PinStage), s.dead = false ∧ s.resting (↑r : Nat) = true ∧ g ∈ (s.region (↑r : Nat)).pinOut ∧ g.slot = (↑k : Nat) ∧ (∀ (h : PinStage), h ∈ (s.region (↑r : Nat)).pinOut → h.slot = (↑k : Nat) → g.left ≤ h.left)) :=
  ⟨⟨(0 : Fin 64), (po 0x1083 { st := .run, slots := [(3, { pwmRouted := some { v := 0x80 } })] } : State), (by decide +kernel), (by decide +kernel)⟩,
   ⟨(0 : Fin 64), (0 : Fin 64), (s0 : State), (by decide +kernel), (by decide +kernel), (by decide +kernel)⟩,
   ⟨(0 : Fin 64), (3 : Fin 64), (po 2 { pinOut := [{ slot := 3, left := 5, c := { v := 1 } }] } : State), ({ slot := 3, left := 5, c := { v := 0x00001#20, e := false, p := false }, park := false } : PinStage), (by decide +kernel), (by decide +kernel), (by decide +kernel), (by decide +kernel), (by decide +kernel)⟩⟩

theorem witness1 :
    (∃ (r : Fin 64) (k : Fin 64) (s : State) (g : PinStage), s.dead = false ∧ s.resting (↑r : Nat) = true ∧ (s.region (↑r : Nat)).pinOut = [g] ∧ g.slot = (↑k : Nat) ∧ 1 ≤ g.left ∧ g.park = false ∧ (s.region (↑r : Nat)).flights = [] ∧ (s.region (↑r : Nat)).fixes = [] ∧ (s.region (↑r : Nat)).rds = [] ∧ (s.region (↑r : Nat)).wrs = [] ∧ (s.region (↑r : Nat)).p1 = [] ∧ slotFunc ((s.region (↑r : Nat)).active.slot (↑k : Nat)) = 2) :=
  ⟨(0 : Fin 64), (3 : Fin 64), (po 2 { pinOut := [{ slot := 3, left := 5, c := { v := 1 } }] } : State), ((((po 2 { pinOut := [{ slot := 3, left := 5, c := { v := 1 } }] } : State)).region (↑((0 : Fin 64)) : Nat)).pinOut).head (by all_goals decide +kernel), (by decide +kernel), (by decide +kernel), (by decide +kernel), (by decide +kernel), (by decide +kernel), (by decide +kernel), (by decide +kernel), (by decide +kernel), (by decide +kernel), (by decide +kernel), (by decide +kernel), (by decide +kernel)⟩

theorem witness2 :
    (∃ (g : PinStage), g.park = true) ∧
    (∃ (r : Nat) (g : PinStage) (s : State), g.park = false ∧ slotFunc ((s.region r).active.slot g.slot) = 2) ∧
    (∃ (r : Nat) (g : PinStage) (s : State), g.park = false ∧ slotFunc ((s.region r).active.slot g.slot) = 3) ∧
    (∃ (r : Nat) (g : PinStage) (s : State), g.park = false ∧ slotFunc ((s.region r).active.slot g.slot) = 4) ∧
    (∃ (r : Nat) (g : PinStage) (s : State), g.park = false ∧ slotFunc ((s.region r).active.slot g.slot) = 9) ∧
    (∃ (r : Nat) (g : PinStage) (s : State), g.park = false ∧ isOutputFunc (slotFunc ((s.region r).active.slot g.slot)) = false) :=
  ⟨⟨({ slot := 3, left := 5, c := { v := 0x00011#20, e := false, p := false }, park := true } : PinStage), (by decide +kernel)⟩,
   ⟨(0 : Nat), ({ slot := 3, left := 5, c := { v := 0x00001#20, e := false, p := false }, park := false } : PinStage), (po 2 { pinOut := [{ slot := 3, left := 5, c := { v := 1 } }] } : State), (by decide +kernel), (by decide +kernel)⟩,
   ⟨(0 : Nat), ({ slot := 3, left := 5, c := { v := 0x00001#20, e := false, p := false }, park := false } : PinStage), (po 0x1083 { st := .run, slots := [(3, { pwmRouted := some { v := 0x80 } })] } : State), (by decide +kernel), (by decide +kernel)⟩,
   ⟨(0 : Nat), ({ slot := 3, left := 5, c := { v := 0x00001#20, e := false, p := false }, park := false } : PinStage), (po (0x4 + 256) {} : State), (by decide +kernel), (by decide +kernel)⟩,
   ⟨(0 : Nat), ({ slot := 3, left := 5, c := { v := 0x00001#20, e := false, p := false }, park := false } : PinStage), (po 9 {} : State), (by decide +kernel), (by decide +kernel)⟩,
   ⟨(0 : Nat), ({ slot := 3, left := 5, c := { v := 0x00001#20, e := false, p := false }, park := false } : PinStage), (s0 : State), (by decide +kernel), (by decide +kernel)⟩⟩

theorem witness3 :
    (∃ (y : SlotState) (half : Nat) (g : Nat), g / half ≤ y.seen / half) ∧
    (∃ (y : SlotState) (half : Nat) (g : Nat), y.seen / half < g / half ∧ y.pwmRouted = none) ∧
    (∃ (y : SlotState) (half : Nat) (g : Nat) (c : Chan), y.seen / half < g / half ∧ y.pwmRouted = some c) :=
  ⟨⟨({ level := false, presented := { v := 0x00000#20, e := false, p := false }, count := 0x00000#20, dir := false, zLatch := 0x00000#20, pwmRouted := none, pwmLoaded := { v := 0x00000#20, e := false, p := false }, clkOn := false, ssiFrom := 0, frames := 0, seen := 0, parked := false, gen := false, drive := none, routed := { v := 0x00000#20, e := false, p := false } } : SlotState), (3 : Nat), (0 : Nat), (by decide +kernel)⟩,
   ⟨({ level := false, presented := { v := 0x00000#20, e := false, p := false }, count := 0x00000#20, dir := false, zLatch := 0x00000#20, pwmRouted := none, pwmLoaded := { v := 0x00000#20, e := false, p := false }, clkOn := false, ssiFrom := 0, frames := 0, seen := 0, parked := false, gen := false, drive := none, routed := { v := 0x00000#20, e := false, p := false } } : SlotState), (3 : Nat), (3 : Nat), (by decide +kernel), (by decide +kernel)⟩,
   ⟨({ level := false, presented := { v := 0x00000#20, e := false, p := false }, count := 0x00000#20, dir := false, zLatch := 0x00000#20, pwmRouted := some { v := 0x00009#20, e := false, p := false }, pwmLoaded := { v := 0x00000#20, e := false, p := false }, clkOn := false, ssiFrom := 0, frames := 0, seen := 3, parked := false, gen := false, drive := none, routed := { v := 0x00000#20, e := false, p := false } } : SlotState), (5 : Nat), (5 : Nat), _, (by decide +kernel), someGet _ (by decide +kernel)⟩⟩

theorem witness4 :
    (∃ (v : BitVec 64), slotFunc v = 3) ∧
    (∃ (v : BitVec 64), slotFunc v = 4) ∧
    (∃ (v : BitVec 64), slotFunc v = 9) :=
  ⟨⟨(0x0317048300000000#64 : BitVec 64), (by decide +kernel)⟩,
   ⟨(0x0317048400000000#64 : BitVec 64), (by decide +kernel)⟩,
   ⟨(0x0317040900000000#64 : BitVec 64), (by decide +kernel)⟩⟩

theorem witness5 :
    (∃ (k : Nat) (g : Nat) (c : Chan) (x : Region), (slotFunc (x.active.slot k) = 9 ∧ BitVec.getLsbD c.v 0 = true ∧ c.p = false ∧ ¬((mget { level := false, presented := { v := 0, e := false, p := false : Chan }, count := 0, dir := false, zLatch := 0, pwmRouted := none, pwmLoaded := { v := 0, e := false, p := false : Chan }, clkOn := false, ssiFrom := 0, frames := 0, seen := 0, parked := false, gen := false, drive := none, routed := { v := 0, e := false, p := false : Chan } : SlotState } x.slots k).frames ≠ 0 ∧ g < (mget { level := false, presented := { v := 0, e := false, p := false : Chan }, count := 0, dir := false, zLatch := 0, pwmRouted := none, pwmLoaded := { v := 0, e := false, p := false : Chan }, clkOn := false, ssiFrom := 0, frames := 0, seen := 0, parked := false, gen := false, drive := none, routed := { v := 0, e := false, p := false : Chan } : SlotState } x.slots k).ssiFrom + slotParam (x.active.slot k) 16 5 * slotParam (x.active.slot k) 8 8 + slotParam (x.active.slot k) 8 8 / 2 + 16 * slotParam (x.active.slot k) 24 8))) ∧
    (∃ (k : Nat) (g : Nat) (c : Chan) (x : Region), (¬(slotFunc (x.active.slot k) = 9 ∧ BitVec.getLsbD c.v 0 = true ∧ c.p = false ∧ ¬((mget { level := false, presented := { v := 0, e := false, p := false : Chan }, count := 0, dir := false, zLatch := 0, pwmRouted := none, pwmLoaded := { v := 0, e := false, p := false : Chan }, clkOn := false, ssiFrom := 0, frames := 0, seen := 0, parked := false, gen := false, drive := none, routed := { v := 0, e := false, p := false : Chan } : SlotState } x.slots k).frames ≠ 0 ∧ g < (mget { level := false, presented := { v := 0, e := false, p := false : Chan }, count := 0, dir := false, zLatch := 0, pwmRouted := none, pwmLoaded := { v := 0, e := false, p := false : Chan }, clkOn := false, ssiFrom := 0, frames := 0, seen := 0, parked := false, gen := false, drive := none, routed := { v := 0, e := false, p := false : Chan } : SlotState } x.slots k).ssiFrom + slotParam (x.active.slot k) 16 5 * slotParam (x.active.slot k) 8 8 + slotParam (x.active.slot k) 8 8 / 2 + 16 * slotParam (x.active.slot k) 24 8)))) :=
  ⟨⟨(5 : Nat), (3 : Nat), ({ v := 0x00005#20, e := true, p := false } : Chan), ({ h := false, a := { ctx := [], seq := [], vec := [], konst := [], agu := [], slotRec := [(3, 0x0000000200000011#64), (5, 0x0317040900000000#64)], portRec := [], queueRec := [], startPc := 0x00#8, evtEn := 0x00#8, taskMask := 0x0000#16, markQ := 0x00#8 }, b := { ctx := [], seq := [], vec := [], konst := [], agu := [], slotRec := [], portRec := [], queueRec := [], startPc := 0x00#8, evtEn := 0x00#8, taskMask := 0x0000#16, markQ := 0x00#8 }, st := Sys2Proof.Machine.SeqState.off, pc := 0, hcause := 0, haltPc := 0, inh := false, wto := false, cxl := false, evtRet := 0, evtValid := false, stack := [], delay := none, runLeft := 0, entryLeft := 0, waited := 0, withdrawing := false, lastCycle := false, trip := false, fx := [], fp := [], agu := [], memOut := [], spoke := [], flags := [], flights := [], rds := [], wrs := [], p1 := [], p1Busy := [], fixes := [], nextCid := 0, inWay := [], inFifo := [], credUsed := [], credWay := [], lastOut := [], portWay := [], visWay := [], portVis := [], popWay := [], ports := [], pinWay := [], pinOut := [], slots := [], drl := { st := Sys2Proof.Machine.DrlState.empty, job := Sys2Proof.Machine.DrlJob.idle, recAct := 0, recInact := 0, marked := [], marks := false, subst := false, subof := false, peer := 0, wasSt := Sys2Proof.Machine.DrlState.empty, migTo := none, migFrom := none, home := none }, cycles := 0 } : Region), (by decide +kernel)⟩,
   ⟨(3 : Nat), (3 : Nat), ({ v := 0x00000#20, e := false, p := false } : Chan), ({ h := false, a := { ctx := [], seq := [], vec := [], konst := [], agu := [], slotRec := [(3, 0x0000000200000011#64), (5, 0x0317040900000000#64)], portRec := [], queueRec := [], startPc := 0x00#8, evtEn := 0x00#8, taskMask := 0x0000#16, markQ := 0x00#8 }, b := { ctx := [], seq := [], vec := [], konst := [], agu := [], slotRec := [], portRec := [], queueRec := [], startPc := 0x00#8, evtEn := 0x00#8, taskMask := 0x0000#16, markQ := 0x00#8 }, st := Sys2Proof.Machine.SeqState.off, pc := 0, hcause := 0, haltPc := 0, inh := false, wto := false, cxl := false, evtRet := 0, evtValid := false, stack := [], delay := none, runLeft := 0, entryLeft := 0, waited := 0, withdrawing := false, lastCycle := false, trip := false, fx := [], fp := [], agu := [], memOut := [], spoke := [], flags := [], flights := [], rds := [], wrs := [], p1 := [], p1Busy := [], fixes := [], nextCid := 0, inWay := [], inFifo := [], credUsed := [], credWay := [], lastOut := [], portWay := [], visWay := [], portVis := [], popWay := [], ports := [], pinWay := [], pinOut := [], slots := [], drl := { st := Sys2Proof.Machine.DrlState.empty, job := Sys2Proof.Machine.DrlJob.idle, recAct := 0, recInact := 0, marked := [], marks := false, subst := false, subof := false, peer := 0, wasSt := Sys2Proof.Machine.DrlState.empty, migTo := none, migFrom := none, home := none }, cycles := 0 } : Region), (by decide +kernel)⟩⟩

theorem witness6 :
    (∃ (row : Fin 8) (col : Fin 8) (k : Fin 64) (s : State), s.dead = false ∧ slotFunc ((s.region (8 * (↑row : Nat) + (↑col : Nat))).active.slot (↑k : Nat)) ≠ 3) ∧
    (∃ (row : Fin 8) (col : Fin 8) (k : Fin 64) (s : State), s.dead = false ∧ slotFunc ((s.region (8 * (↑row : Nat) + (↑col : Nat))).active.slot (↑k : Nat)) = 3) :=
  ⟨⟨(0 : Fin 8), (0 : Fin 8), (0 : Fin 64), (s0 : State), (by decide +kernel), (by decide +kernel)⟩,
   ⟨(0 : Fin 8), (0 : Fin 8), (3 : Fin 64), (po 0x1083 { st := .run, slots := [(3, { pwmRouted := some { v := 0x80 } })] } : State), (by decide +kernel), (by decide +kernel)⟩⟩

theorem witness7 :
    (∃ (r : Nat) (k : Nat) (s : State), s.slotPin r k = none) ∧
    (∃ (r : Nat) (k : Nat) (s : State) (p : Nat), s.slotPin r k = some p) :=
  ⟨⟨(3 : Nat), (3 : Nat), (s0 : State), (by decide +kernel)⟩,
   ⟨(0 : Nat), (3 : Nat), (po 2 { pinOut := [{ slot := 3, left := 5, c := { v := 1 } }] } : State), _, someGet _ (by decide +kernel)⟩⟩

theorem witness8 :
    (∃ (r : Fin 64) (clk : Fin 64) (s : State), s.dead = false ∧ slotFunc ((s.region (↑r : Nat)).active.slot (↑clk : Nat)) ≠ 9) ∧
    (∃ (r : Fin 64) (clk : Fin 64) (s : State), s.dead = false ∧ slotFunc ((s.region (↑r : Nat)).active.slot (↑clk : Nat)) = 9) :=
  ⟨⟨(0 : Fin 64), (0 : Fin 64), (s0 : State), (by decide +kernel), (by decide +kernel)⟩,
   ⟨(0 : Fin 64), (3 : Fin 64), (po 9 {} : State), (by decide +kernel), (by decide +kernel)⟩⟩

theorem witness9 :
    (∃ (r : Nat) (clk : Nat) (j : Nat) (s : State), (¬(slotFunc ((s.region r).active.slot j) = 10 ∧ slotParam ((s.region r).active.slot j) 8 6 = clk ∧ (mget { level := false, presented := { v := 0, e := false, p := false : Chan }, count := 0, dir := false, zLatch := 0, pwmRouted := none, pwmLoaded := { v := 0, e := false, p := false : Chan }, clkOn := false, ssiFrom := 0, frames := 0, seen := 0, parked := false, gen := false, drive := none, routed := { v := 0, e := false, p := false : Chan } : SlotState } (s.region r).slots j).frames ≠ (mget { level := false, presented := { v := 0, e := false, p := false : Chan }, count := 0, dir := false, zLatch := 0, pwmRouted := none, pwmLoaded := { v := 0, e := false, p := false : Chan }, clkOn := false, ssiFrom := 0, frames := 0, seen := 0, parked := false, gen := false, drive := none, routed := { v := 0, e := false, p := false : Chan } : SlotState } (s.region r).slots clk).frames ∧ (mget { level := false, presented := { v := 0, e := false, p := false : Chan }, count := 0, dir := false, zLatch := 0, pwmRouted := none, pwmLoaded := { v := 0, e := false, p := false : Chan }, clkOn := false, ssiFrom := 0, frames := 0, seen := 0, parked := false, gen := false, drive := none, routed := { v := 0, e := false, p := false : Chan } : SlotState } (s.region r).slots clk).ssiFrom + 5 + slotParam ((s.region r).active.slot clk) 8 8 / 2 + (slotParam ((s.region r).active.slot clk) 16 5 + 1 - 1) * slotParam ((s.region r).active.slot clk) 8 8 + slotParam ((s.region r).active.slot j) 16 4 ≤ s.grid r))) ∧
    (∃ (r : Nat) (clk : Nat) (j : Nat) (low : Bool) (s : State), (slotFunc ((s.region r).active.slot j) = 10 ∧ slotParam ((s.region r).active.slot j) 8 6 = clk ∧ (mget { level := false, presented := { v := 0, e := false, p := false : Chan }, count := 0, dir := false, zLatch := 0, pwmRouted := none, pwmLoaded := { v := 0, e := false, p := false : Chan }, clkOn := false, ssiFrom := 0, frames := 0, seen := 0, parked := false, gen := false, drive := none, routed := { v := 0, e := false, p := false : Chan } : SlotState } (s.region r).slots j).frames ≠ (mget { level := false, presented := { v := 0, e := false, p := false : Chan }, count := 0, dir := false, zLatch := 0, pwmRouted := none, pwmLoaded := { v := 0, e := false, p := false : Chan }, clkOn := false, ssiFrom := 0, frames := 0, seen := 0, parked := false, gen := false, drive := none, routed := { v := 0, e := false, p := false : Chan } : SlotState } (s.region r).slots clk).frames ∧ (mget { level := false, presented := { v := 0, e := false, p := false : Chan }, count := 0, dir := false, zLatch := 0, pwmRouted := none, pwmLoaded := { v := 0, e := false, p := false : Chan }, clkOn := false, ssiFrom := 0, frames := 0, seen := 0, parked := false, gen := false, drive := none, routed := { v := 0, e := false, p := false : Chan } : SlotState } (s.region r).slots clk).ssiFrom + 5 + slotParam ((s.region r).active.slot clk) 8 8 / 2 + (slotParam ((s.region r).active.slot clk) 16 5 + 1 - 1) * slotParam ((s.region r).active.slot clk) 8 8 + slotParam ((s.region r).active.slot j) 16 4 ≤ s.grid r) ∧ (low ^^ slotInv ((s.region r).active.slot j)) = false) ∧
    (∃ (r : Nat) (clk : Nat) (j : Nat) (low : Bool) (s : State), (slotFunc ((s.region r).active.slot j) = 10 ∧ slotParam ((s.region r).active.slot j) 8 6 = clk ∧ (mget { level := false, presented := { v := 0, e := false, p := false : Chan }, count := 0, dir := false, zLatch := 0, pwmRouted := none, pwmLoaded := { v := 0, e := false, p := false : Chan }, clkOn := false, ssiFrom := 0, frames := 0, seen := 0, parked := false, gen := false, drive := none, routed := { v := 0, e := false, p := false : Chan } : SlotState } (s.region r).slots j).frames ≠ (mget { level := false, presented := { v := 0, e := false, p := false : Chan }, count := 0, dir := false, zLatch := 0, pwmRouted := none, pwmLoaded := { v := 0, e := false, p := false : Chan }, clkOn := false, ssiFrom := 0, frames := 0, seen := 0, parked := false, gen := false, drive := none, routed := { v := 0, e := false, p := false : Chan } : SlotState } (s.region r).slots clk).frames ∧ (mget { level := false, presented := { v := 0, e := false, p := false : Chan }, count := 0, dir := false, zLatch := 0, pwmRouted := none, pwmLoaded := { v := 0, e := false, p := false : Chan }, clkOn := false, ssiFrom := 0, frames := 0, seen := 0, parked := false, gen := false, drive := none, routed := { v := 0, e := false, p := false : Chan } : SlotState } (s.region r).slots clk).ssiFrom + 5 + slotParam ((s.region r).active.slot clk) 8 8 / 2 + (slotParam ((s.region r).active.slot clk) 16 5 + 1 - 1) * slotParam ((s.region r).active.slot clk) 8 8 + slotParam ((s.region r).active.slot j) 16 4 ≤ s.grid r) ∧ (low ^^ slotInv ((s.region r).active.slot j)) = true) :=
  ⟨⟨(0 : Nat), (0 : Nat), (0 : Nat), (s0 : State), (by decide +kernel)⟩,
   ⟨(0 : Nat), (5 : Nat), (3 : Nat), (false : Bool), (po (0xA + 5 * 256 + 2^20 * 3) ssi : State), (by decide +kernel), (by decide +kernel)⟩,
   ⟨(0 : Nat), (5 : Nat), (3 : Nat), (true : Bool), (po (0xA + 5 * 256 + 2^20 * 3) ssi : State), (by decide +kernel), (by decide +kernel)⟩⟩

theorem witness10 :
    (∃ (r : Fin 64) (k : Fin 64) (s : State), s.dead = false ∧ (¬(slotFunc ((s.region (↑r : Nat)).active.slot (↑k : Nat)) = 5 ∧ slotFunc ((s.region (↑r : Nat)).active.slot (slotParam ((s.region (↑r : Nat)).active.slot (↑k : Nat)) 8 6)) = 4 ∧ (mget { level := false, presented := { v := 0, e := false, p := false : Chan }, count := 0, dir := false, zLatch := 0, pwmRouted := none, pwmLoaded := { v := 0, e := false, p := false : Chan }, clkOn := false, ssiFrom := 0, frames := 0, seen := 0, parked := false, gen := false, drive := none, routed := { v := 0, e := false, p := false : Chan } : SlotState } (s.region (↑r : Nat)).slots (slotParam ((s.region (↑r : Nat)).active.slot (↑k : Nat)) 8 6)).clkOn = true ∧ slotParam ((s.region (↑r : Nat)).active.slot (↑k : Nat)) 16 4 ≤ s.grid (↑r : Nat) ∧ (mget { level := false, presented := { v := 0, e := false, p := false : Chan }, count := 0, dir := false, zLatch := 0, pwmRouted := none, pwmLoaded := { v := 0, e := false, p := false : Chan }, clkOn := false, ssiFrom := 0, frames := 0, seen := 0, parked := false, gen := false, drive := none, routed := { v := 0, e := false, p := false : Chan } : SlotState } (s.region (↑r : Nat)).slots (slotParam ((s.region (↑r : Nat)).active.slot (↑k : Nat)) 8 6)).seen ≤ (s.grid (↑r : Nat) - slotParam ((s.region (↑r : Nat)).active.slot (↑k : Nat)) 16 4) / slotParam ((s.region (↑r : Nat)).active.slot (slotParam ((s.region (↑r : Nat)).active.slot (↑k : Nat)) 8 6)) 8 8 * slotParam ((s.region (↑r : Nat)).active.slot (slotParam ((s.region (↑r : Nat)).active.slot (↑k : Nat)) 8 6)) 8 8 ∧ (mget { level := false, presented := { v := 0, e := false, p := false : Chan }, count := 0, dir := false, zLatch := 0, pwmRouted := none, pwmLoaded := { v := 0, e := false, p := false : Chan }, clkOn := false, ssiFrom := 0, frames := 0, seen := 0, parked := false, gen := false, drive := none, routed := { v := 0, e := false, p := false : Chan } : SlotState } (s.region (↑r : Nat)).slots (↑k : Nat)).seen < (s.grid (↑r : Nat) - slotParam ((s.region (↑r : Nat)).active.slot (↑k : Nat)) 16 4) / slotParam ((s.region (↑r : Nat)).active.slot (slotParam ((s.region (↑r : Nat)).active.slot (↑k : Nat)) 8 6)) 8 8 * slotParam ((s.region (↑r : Nat)).active.slot (slotParam ((s.region (↑r : Nat)).active.slot (↑k : Nat)) 8 6)) 8 8 + slotParam ((s.region (↑r : Nat)).active.slot (↑k : Nat)) 16 4) ∨ s.slotPin (↑r : Nat) (↑k : Nat) = none)) ∧
    (∃ (r : Fin 64) (k : Fin 64) (s : State) (p : Nat), s.dead = false ∧ (slotFunc ((s.region (↑r : Nat)).active.slot (↑k : Nat)) = 5 ∧ slotFunc ((s.region (↑r : Nat)).active.slot (slotParam ((s.region (↑r : Nat)).active.slot (↑k : Nat)) 8 6)) = 4 ∧ (mget { level := false, presented := { v := 0, e := false, p := false : Chan }, count := 0, dir := false, zLatch := 0, pwmRouted := none, pwmLoaded := { v := 0, e := false, p := false : Chan }, clkOn := false, ssiFrom := 0, frames := 0, seen := 0, parked := false, gen := false, drive := none, routed := { v := 0, e := false, p := false : Chan } : SlotState } (s.region (↑r : Nat)).slots (slotParam ((s.region (↑r : Nat)).active.slot (↑k : Nat)) 8 6)).clkOn = true ∧ slotParam ((s.region (↑r : Nat)).active.slot (↑k : Nat)) 16 4 ≤ s.grid (↑r : Nat) ∧ (mget { level := false, presented := { v := 0, e := false, p := false : Chan }, count := 0, dir := false, zLatch := 0, pwmRouted := none, pwmLoaded := { v := 0, e := false, p := false : Chan }, clkOn := false, ssiFrom := 0, frames := 0, seen := 0, parked := false, gen := false, drive := none, routed := { v := 0, e := false, p := false : Chan } : SlotState } (s.region (↑r : Nat)).slots (slotParam ((s.region (↑r : Nat)).active.slot (↑k : Nat)) 8 6)).seen ≤ (s.grid (↑r : Nat) - slotParam ((s.region (↑r : Nat)).active.slot (↑k : Nat)) 16 4) / slotParam ((s.region (↑r : Nat)).active.slot (slotParam ((s.region (↑r : Nat)).active.slot (↑k : Nat)) 8 6)) 8 8 * slotParam ((s.region (↑r : Nat)).active.slot (slotParam ((s.region (↑r : Nat)).active.slot (↑k : Nat)) 8 6)) 8 8 ∧ (mget { level := false, presented := { v := 0, e := false, p := false : Chan }, count := 0, dir := false, zLatch := 0, pwmRouted := none, pwmLoaded := { v := 0, e := false, p := false : Chan }, clkOn := false, ssiFrom := 0, frames := 0, seen := 0, parked := false, gen := false, drive := none, routed := { v := 0, e := false, p := false : Chan } : SlotState } (s.region (↑r : Nat)).slots (↑k : Nat)).seen < (s.grid (↑r : Nat) - slotParam ((s.region (↑r : Nat)).active.slot (↑k : Nat)) 16 4) / slotParam ((s.region (↑r : Nat)).active.slot (slotParam ((s.region (↑r : Nat)).active.slot (↑k : Nat)) 8 6)) 8 8 * slotParam ((s.region (↑r : Nat)).active.slot (slotParam ((s.region (↑r : Nat)).active.slot (↑k : Nat)) 8 6)) 8 8 + slotParam ((s.region (↑r : Nat)).active.slot (↑k : Nat)) 16 4) ∧ s.slotPin (↑r : Nat) (↑k : Nat) = some p) :=
  ⟨⟨(0 : Fin 64), (0 : Fin 64), (s0 : State), (by decide +kernel), (by decide +kernel)⟩,
   ⟨(0 : Fin 64), (3 : Fin 64), (po (0x85 + 5 * 256) ssi 0xA04 : State), _, (by decide +kernel), (by decide +kernel), someGet _ (by decide +kernel)⟩⟩

theorem witness11 :
    (∃ (k : Fin 8) (s : State), s.dead = false ∧ (s.rb (tsuReg (↑k : Nat)) 31 = true ∧ 2 ≤ s.rf (tsuReg (↑k : Nat)) 24 2 ∧ s.pinOwn (s.rf (tsuReg (↑k : Nat)) 0 9) = 9 ∧ s.rb mioBase 0 = true ∧ ¬(↑k : Nat) ∈ s.tsuDone ∧ s.rg64 (tsuReg (↑k : Nat) + 8) ≤ s.now)) ∧
    (∃ (k : Fin 8) (s : State), s.dead = false ∧ (¬(s.rb (tsuReg (↑k : Nat)) 31 = true ∧ 2 ≤ s.rf (tsuReg (↑k : Nat)) 24 2 ∧ s.pinOwn (s.rf (tsuReg (↑k : Nat)) 0 9) = 9 ∧ s.rb mioBase 0 = true ∧ ¬(↑k : Nat) ∈ s.tsuDone ∧ s.rg64 (tsuReg (↑k : Nat) + 8) ≤ s.now))) :=
  ⟨⟨(0 : Fin 8), (po 2 { pinOut := [{ slot := 3, left := 5, c := { v := 1 } }] } : State), (by decide +kernel), (by decide +kernel)⟩,
   ⟨(0 : Fin 8), (s0 : State), (by decide +kernel), (by decide +kernel)⟩⟩

end PinOutputsTakeTheirSamples

/-! Witnesses of `Obligations.MachineIoIsEnabledAndDisabled`. -/
namespace MachineIoIsEnabledAndDisabled

theorem witness0 :
    (∃ (s : State), s.rb mioBase 0 = true) ∧
    (∃ (s : State), s.rb mioBase 0 = false ∧ s.mioCheck = []) ∧
    (∃ (s : State) (c : Nat), s.rb mioBase 0 = false ∧ c ∈ s.mioCheck ∧ (∀ (d : Nat), d ∈ s.mioCheck → c ≤ d)) :=
  ⟨⟨({ regs := [(mioBase, 1#32)] } : State), (by decide +kernel)⟩,
   ⟨(s0 : State), (by decide +kernel), (by decide +kernel)⟩,
   ⟨({ regs := [(pinReg 5, 0xA#32)] } : State), (2049 : Nat), (by decide +kernel), (by decide +kernel), (by decide +kernel)⟩⟩

theorem witness2 :
    (∃ (s : State) (c : Nat), c ∈ s.mioCheck) :=
  ⟨({ regs := [(pinReg 5, 0xA#32)] } : State), (2049 : Nat), (by decide +kernel)⟩

theorem witness3 :
    (∃ (s : State), (∃ (r : Nat), r ∈ perimeterRegions ∧ s.regionEn r = true)) ∧
    (∃ (s : State), (∀ (r : Nat), r ∈ perimeterRegions → s.regionEn r = false) ∧ s.rb mioBase 0 = true) ∧
    (∃ (s : State), (∀ (r : Nat), r ∈ perimeterRegions → s.regionEn r = false) ∧ s.rb mioBase 0 = false) :=
  ⟨⟨({ regs := [(0, 1#32), (mioBase, 1#32)] } : State), (by decide +kernel)⟩,
   ⟨({ regs := [(mioBase, 1#32)] } : State), (by decide +kernel), (by decide +kernel)⟩,
   ⟨(s0 : State), (by decide +kernel), (by decide +kernel)⟩⟩

end MachineIoIsEnabledAndDisabled

/-! Witnesses of `Obligations.CoaxpressPacketsBecomeSamples`. -/
namespace CoaxpressPacketsBecomeSamples

def cx (c : Nat) (x : CxpRx) (q : Bool := true) : State := { regs := [(cxpReg 2, BitVec.ofNat 32 (c + 1)), (cxpReg 2 + 0x18, 2#32), (cxpReg 2 + 0x1C, 3#32), (bootBase, 7#32), (cxpReg 2 + 0x44, 0xFF0000#32), (queueBase 5, 1#32), (queueBase 5 + 8, 0x2002#32), (dramBase 0, 1#32)], drams := [(0, { st := .run })], cxps := [(2, x)], queues := if q then [(5, { on := true, ll := true })] else [], now := 99 }
def nx (c : Nat) (x : CxpRx) := { cx c x false with queues := [] }
def w11 : List Chan := List.replicate 11 { v := 5 }

theorem witness0 :
    (∃ (i : Fin 16) (s : State), s.dead = false ∧ s.rb (cxpReg (↑i : Nat)) 0 = false) :=
  ⟨(0 : Fin 16), (s0 : State), (by decide +kernel), (by decide +kernel)⟩

theorem witness1 :
    (∃ (i : Fin 16) (s : State), s.dead = false ∧ s.rb (cxpReg (↑i : Nat)) 0 = true) :=
  ⟨(2 : Fin 16), (cx 0 { active := true, xsize := 5, ysize := 4 } : State), (by decide +kernel), (by decide +kernel)⟩

theorem witness2 :
    (∃ (i : Fin 16) (s : State), (s.rb (cxpReg ((↑i : Nat) / 4 * 4)) 0 = true ∧ nconnOf (s.rf (cxpReg ((↑i : Nat) / 4 * 4)) 8 2) = 4)) ∧
    (∃ (i : Fin 16) (s : State), (¬(fun (m n : Nat) => s.rb (cxpReg m) 0 = true ∧ nconnOf (s.rf (cxpReg m) 8 2) = n) ((↑i : Nat) / 4 * 4) 4) ∧ (s.rb (cxpReg ((↑i : Nat) / 2 * 2)) 0 = true ∧ nconnOf (s.rf (cxpReg ((↑i : Nat) / 2 * 2)) 8 2) = 2)) ∧
    (∃ (i : Fin 16) (s : State), (¬(fun (m n : Nat) => s.rb (cxpReg m) 0 = true ∧ nconnOf (s.rf (cxpReg m) 8 2) = n) ((↑i : Nat) / 4 * 4) 4) ∧ (¬(fun (m n : Nat) => s.rb (cxpReg m) 0 = true ∧ nconnOf (s.rf (cxpReg m) 8 2) = n) ((↑i : Nat) / 2 * 2) 2)) :=
  ⟨⟨(5 : Fin 16), ({ regs := [(cxpReg 4, 0x201#32)] } : State), (by decide +kernel)⟩,
   ⟨(6 : Fin 16), ({ regs := [(cxpReg 6, 0x101#32)] } : State), (by decide +kernel), (by decide +kernel)⟩,
   ⟨(5 : Fin 16), (s0 : State), (by decide +kernel), (by decide +kernel)⟩⟩

theorem witness4 :
    (∃ (m : Nat) (s : State), (s.cxp m).active = false) ∧
    (∃ (m : Nat) (s : State), (s.cxp m).active = true ∧ s.rb (cxpReg m) 10 = false) ∧
    (∃ (m : Nat) (s : State), (s.cxp m).active = true ∧ s.rb (cxpReg m) 10 = true ∧ (s.cxp m).half = none ∧ decide ((s.cxp m).xsize ≤ (s.cxp m).col + 1) = false) ∧
    (∃ (m : Nat) (s : State), (s.cxp m).active = true ∧ s.rb (cxpReg m) 10 = true ∧ (s.cxp m).half = none ∧ decide ((s.cxp m).xsize ≤ (s.cxp m).col + 1) = true) ∧
    (∃ (m : Nat) (s : State) (w : Nat) (wb : Bool), (s.cxp m).active = true ∧ s.rb (cxpReg m) 10 = true ∧ (s.cxp m).half = some (w, wb)) :=
  ⟨⟨(0 : Nat), (s0 : State), (by decide +kernel)⟩,
   ⟨(2 : Nat), (cx 0 { active := true, xsize := 5, ysize := 4 } : State), (by decide +kernel), (by decide +kernel)⟩,
   ⟨(2 : Nat), (cx 0x400 { active := true, xsize := 5, ysize := 4 } : State), (by decide +kernel), (by decide +kernel), (by decide +kernel), (by decide +kernel)⟩,
   ⟨(2 : Nat), (cx 0x400 { active := true, xsize := 1, ysize := 4 } : State), (by decide +kernel), (by decide +kernel), (by decide +kernel), (by decide +kernel)⟩,
   ⟨(2 : Nat), (cx 0x400 { active := true, xsize := 2, ysize := 4, col := 1, half := some (4, false) } : State), _, _, (by decide +kernel), (by decide +kernel), someGet2 _ (by decide +kernel)⟩⟩

theorem witness5 :
    (∃ (m : Nat) (s : State), (s.cxp m).dropping = true) :=
  ⟨(2 : Nat), (cx 0x400 { dropping := true } : State), (by decide +kernel)⟩

theorem witness6 :
    (∃ (m : Fin 16) (s : State), (s.cxp (↑m : Nat)).word = []) ∧
    (∃ (m : Fin 16) (s : State), (s.cxp (↑m : Nat)).word ≠ [] ∧ s.rf (cxpReg (↑m : Nat) + 24) 0 24 ≤ ((s.cxp (↑m : Nat)).idx - 1) / 12) ∧
    (∃ (m : Fin 16) (s : State) (st : Nat) (u : State), (s.cxp (↑m : Nat)).word ≠ [] ∧ ((s.cxp (↑m : Nat)).idx - 1) / 12 < s.rf (cxpReg (↑m : Nat) + 24) 0 24 ∧ ((s.onCxp (↑m : Nat) fun (x : CxpRx) => { x with word := [] }).wordPut (Master.cxp m) (BitVec.toNat (s.rg (cxpReg (↑m : Nat) + 16)) + s.rf (cxpReg (↑m : Nat) + 20) 0 8 * 2 ^ 32 + 32 * ((s.cxp (↑m : Nat)).frame % max 1 (s.rf (cxpReg (↑m : Nat) + 28) 0 16) * s.rf (cxpReg (↑m : Nat) + 24) 0 24 + ((s.cxp (↑m : Nat)).idx - 1) / 12)) (shipMask (List.map (fun (e : Chan × Nat) => (e.snd, e.fst)) (s.cxp (↑m : Nat)).word.zipIdx)) 0 (shipLine (List.map (fun (e : Chan × Nat) => (e.snd, e.fst)) (s.cxp (↑m : Nat)).word.zipIdx)) = (u, st)) ∧ st = 0) ∧
    (∃ (m : Fin 16) (s : State) (st : Nat) (u : State), (s.cxp (↑m : Nat)).word ≠ [] ∧ ((s.cxp (↑m : Nat)).idx - 1) / 12 < s.rf (cxpReg (↑m : Nat) + 24) 0 24 ∧ ((s.onCxp (↑m : Nat) fun (x : CxpRx) => { x with word := [] }).wordPut (Master.cxp m) (BitVec.toNat (s.rg (cxpReg (↑m : Nat) + 16)) + s.rf (cxpReg (↑m : Nat) + 20) 0 8 * 2 ^ 32 + 32 * ((s.cxp (↑m : Nat)).frame % max 1 (s.rf (cxpReg (↑m : Nat) + 28) 0 16) * s.rf (cxpReg (↑m : Nat) + 24) 0 24 + ((s.cxp (↑m : Nat)).idx - 1) / 12)) (shipMask (List.map (fun (e : Chan × Nat) => (e.snd, e.fst)) (s.cxp (↑m : Nat)).word.zipIdx)) 0 (shipLine (List.map (fun (e : Chan × Nat) => (e.snd, e.fst)) (s.cxp (↑m : Nat)).word.zipIdx)) = (u, st)) ∧ st ≠ 0) :=
  ⟨⟨(2 : Fin 16), (s0 : State), (by decide +kernel)⟩,
   ⟨(2 : Fin 16), (nx 0x800 { active := true, xsize := 5, ysize := 4, idx := 61, word := [{}] } : State), (by decide +kernel), (by decide +kernel)⟩,
   ⟨(2 : Fin 16), ({ nx 0x800 { active := true, xsize := 5, ysize := 4, idx := 11, word := [{ v := 5 }] } with regs := regsOf (nx 0x800 {}).regs (rt [(masterRouter (.cxp 2), 64)]) } : State), _, _, (by decide +kernel), (by decide +kernel), pairEta2 _, (by decide +kernel)⟩,
   ⟨(2 : Fin 16), (nx 0x800 { active := true, xsize := 5, ysize := 4, idx := 11, word := w11 } : State), _, _, (by decide +kernel), (by decide +kernel), pairEta2 _, (by decide +kernel)⟩⟩

theorem witness8 :
    (∃ (s : State), s.dead = false ∧ s.booted = false) ∧
    (∃ (s : State), s.dead = false ∧ s.booted = true) :=
  ⟨⟨(s0 : State), (by decide +kernel), (by decide +kernel)⟩,
   ⟨(cx 0 { active := true, xsize := 5, ysize := 4 } : State), (by decide +kernel), (by decide +kernel)⟩⟩

theorem witness9 :
    (∃ (i : Fin 16) (s : State), s.dead = false ∧ s.rb (cxpReg (↑i : Nat)) 0 = false) ∧
    (∃ (i : Fin 16) (ws : List Word32) (s : State) (k : Nat) (w : Word32), s.dead = false ∧ s.rb (cxpReg (↑i : Nat)) 0 = true ∧ k < 16 ∧ ws[k]? = some w) :=
  ⟨⟨(0 : Fin 16), (s0 : State), (by decide +kernel), (by decide +kernel)⟩,
   ⟨(2 : Fin 16), ([0x00000001#32, 0x00000002#32, 0x00000003#32] : List Word32), (cx 0 { active := true, xsize := 5, ysize := 4 } : State), (0 : Nat), _, (by decide +kernel), (by decide +kernel), (by decide +kernel), someGet _ (by decide +kernel)⟩⟩

end CoaxpressPacketsBecomeSamples

/-! Witnesses of `Obligations.FramesAreReceivedTappedAndSent`. -/
namespace FramesAreReceivedTappedAndSent

def fr : List (BitVec 8) := List.replicate 12 1 ++ [0x81, 0, 0x20, 5, 0x08, 0, 1, 2, 3, 4]
def fr3 : List (BitVec 8) := List.replicate 12 1 ++ [0x81, 0, 0x20, 6, 0xF1, 0xC1, 0, 0, 0, 7, 0x08, 0, 3, 4]
def tf0 : TapFrame := { seq := 3, odd := false, bytes := fr, good := true, due := 200 }
def et (c : Nat) (l : List (Nat × Nat)) (x : EthPort := {}) (q : List Chan := []) (qe : Nat := 0x3000) (m : Map Word32 := []) : State := { regs := l.map (fun e => (ethReg 0 + e.1, BitVec.ofNat 32 e.2)) ++ [(ethReg 0, BitVec.ofNat 32 (c + 1)), (ethReg 1, 1#32), (bootBase, 7#32), (ethReg 0 + 0xC, 0xFFF0000#32), (queueBase 5, 1#32), (queueBase 5 + 8, BitVec.ofNat 32 qe)] ++ m, eths := [(0, x)], queues := [(5, { on := true, ll := true })], taken := (List.range 80).map (fun i => (0x3000 + i, q)), now := 100 }
def pk (n : Nat) (l : List Nat) : List Chan := ([({ v := BitVec.ofNat 20 n } : Chan)] ++ l.map (fun k => ({ v := BitVec.ofNat 20 k, e := k = 99 } : Chan)))

theorem witness0 :
    (∃ (p : Fin 4) (s : State), s.ethOn (↑p : Nat) = false) ∧
    (∃ (p : Fin 4) (s : State), s.ethOn (↑p : Nat) = true) :=
  ⟨⟨(0 : Fin 4), (s0 : State), (by decide +kernel)⟩,
   ⟨(0 : Fin 4), (et 0 [(0x40, 0x80000800)] : State), (by decide +kernel)⟩⟩

theorem witness2 :
    (∃ (p : Nat) (s : State), (s.rb (ethReg (p / 2 * 2)) 4 = false ∨ s.ethOn (if p % 2 = 1 then p / 2 * 2 else p / 2 * 2 + 1) = false ∨ s.booted = false)) ∧
    (∃ (p : Nat) (f : Frame) (s : State), s.rb (ethReg (p / 2 * 2)) 4 = true ∧ (s.ethOn (if p % 2 = 1 then p / 2 * 2 else p / 2 * 2 + 1) = true) ∧ s.booted = true ∧ ((s.tapFlush (p / 2 * 2)).rb (ethReg (p / 2 * 2) + 256) 31 = true ∧ f.etype = (s.tapFlush (p / 2 * 2)).rf (ethReg (p / 2 * 2) + 256) 0 16 ∧ (s.tapFlush (p / 2 * 2)).dead = false)) ∧
    (∃ (p : Nat) (f : Frame) (s : State), s.rb (ethReg (p / 2 * 2)) 4 = true ∧ (s.ethOn (if p % 2 = 1 then p / 2 * 2 else p / 2 * 2 + 1) = true) ∧ s.booted = true ∧ (¬((s.tapFlush (p / 2 * 2)).rb (ethReg (p / 2 * 2) + 256) 31 = true ∧ f.etype = (s.tapFlush (p / 2 * 2)).rf (ethReg (p / 2 * 2) + 256) 0 16 ∧ (s.tapFlush (p / 2 * 2)).dead = false))) :=
  ⟨⟨(0 : Nat), (s0 : State), (by decide +kernel)⟩,
   ⟨(0 : Nat), (id ([0x01#8, 0x01#8, 0x01#8, 0x01#8, 0x01#8, 0x01#8, 0x01#8, 0x01#8, 0x01#8, 0x01#8, 0x01#8, 0x01#8, 0x81#8, 0x00#8, 0x20#8, 0x05#8, 0x08#8, 0x00#8, 0x01#8, 0x02#8, 0x03#8, 0x04#8]) : Frame), (et 0x10 [(0x100, 0x80100800), (0x104, 0x04020604)] : State), (by decide +kernel), (by decide +kernel), (by decide +kernel), (by decide +kernel)⟩,
   ⟨(0 : Nat), (id ([]) : Frame), (et 0x10 [] : State), (by decide +kernel), (by decide +kernel), (by decide +kernel), (by decide +kernel)⟩⟩

theorem witness3 :
    (∃ (p : Nat) (odd : Bool) (f : Frame) (s : State), ({ ((s.onEth p fun (x : EthPort) => { x with seq := (x.seq + 1) % 65536 }).count (ethReg p + 264)) with held := mset [] ((s.onEth p fun (x : EthPort) => { x with seq := (x.seq + 1) % 65536 }).count (ethReg p + 264)).held (12288 + 32 + p / 2) (mget [] ((s.onEth p fun (x : EthPort) => { x with seq := (x.seq + 1) % 65536 }).count (ethReg p + 264)).held (12288 + 32 + p / 2) ++ { v := BitVec.ofNat 20 ((if odd = true then 1 else 0) + (s.eth p).seq % 65536 * 16), e := fld (((s.onEth p fun (x : EthPort) => { x with seq := (x.seq + 1) % 65536 }).count (ethReg p + 264)).rg (ethReg p + 260)) 8 8 / 2 * 2 == 0, p := false : Chan } :: frameSamples (List.map (fun (i : Nat) => (fun (k : Nat) => f[k]?.getD (Config.tapPast k s.fresh)) (fld (((s.onEth p fun (x : EthPort) => { x with seq := (x.seq + 1) % 65536 }).count (ethReg p + 264)).rg (ethReg p + 260)) 0 8 + i)) (List.range (fld (((s.onEth p fun (x : EthPort) => { x with seq := (x.seq + 1) % 65536 }).count (ethReg p + 264)).rg (ethReg p + 260)) 8 8 / 2 * 2)))), fresh := ((s.onEth p fun (x : EthPort) => { x with seq := (x.seq + 1) % 65536 }).count (ethReg p + 264)).fresh + 1 }.captain = true)) ∧
    (∃ (p : Nat) (odd : Bool) (f : Frame) (s : State), ({ ((s.onEth p fun (x : EthPort) => { x with seq := (x.seq + 1) % 65536 }).count (ethReg p + 264)) with held := mset [] ((s.onEth p fun (x : EthPort) => { x with seq := (x.seq + 1) % 65536 }).count (ethReg p + 264)).held (12288 + 32 + p / 2) (mget [] ((s.onEth p fun (x : EthPort) => { x with seq := (x.seq + 1) % 65536 }).count (ethReg p + 264)).held (12288 + 32 + p / 2) ++ { v := BitVec.ofNat 20 ((if odd = true then 1 else 0) + (s.eth p).seq % 65536 * 16), e := fld (((s.onEth p fun (x : EthPort) => { x with seq := (x.seq + 1) % 65536 }).count (ethReg p + 264)).rg (ethReg p + 260)) 8 8 / 2 * 2 == 0, p := false : Chan } :: frameSamples (List.map (fun (i : Nat) => (fun (k : Nat) => f[k]?.getD (Config.tapPast k s.fresh)) (fld (((s.onEth p fun (x : EthPort) => { x with seq := (x.seq + 1) % 65536 }).count (ethReg p + 264)).rg (ethReg p + 260)) 0 8 + i)) (List.range (fld (((s.onEth p fun (x : EthPort) => { x with seq := (x.seq + 1) % 65536 }).count (ethReg p + 264)).rg (ethReg p + 260)) 8 8 / 2 * 2)))), fresh := ((s.onEth p fun (x : EthPort) => { x with seq := (x.seq + 1) % 65536 }).count (ethReg p + 264)).fresh + 1 }.captain = false)) :=
  ⟨⟨(0 : Nat), (false : Bool), (id ([]) : Frame), (et 0x10 [(0x100, 0x80100800), (0x104, 0x04020604)] {} [] 0x3020 [(tdmBase + 8, 0x10000000#32)] : State), (by decide +kernel)⟩,
   ⟨(0 : Nat), (false : Bool), (id ([]) : Frame), (s0 : State), (by decide +kernel)⟩⟩

theorem witness4 :
    (∃ (s : State), s.captain = true) ∧
    (∃ (s : State), s.captain = false) :=
  ⟨⟨(et 0x10 [(0x100, 0x80100800), (0x104, 0x04020604)] {} [] 0x3020 [(tdmBase + 8, 0x10000000#32)] : State), (by decide +kernel)⟩,
   ⟨(s0 : State), (by decide +kernel)⟩⟩

theorem witness5 :
    (∃ (pair : Fin 2) (s : State), (s.tapFlush (2 * (↑pair : Nat))).packet (12288 + 32 + 2 * (↑pair : Nat) / 2) = none) ∧
    (∃ (pair : Fin 2) (s : State) (cs : List Chan), (s.tapFlush (2 * (↑pair : Nat))).packet (12288 + 32 + 2 * (↑pair : Nat) / 2) = some cs) :=
  ⟨⟨(0 : Fin 2), (s0 : State), (by decide +kernel)⟩,
   ⟨(0 : Fin 2), (et 0x10 [(0x100, 0xC0100800), (0x104, 0x04020604)] { tap := [tf0] } (pk 0x30 [5, 99]) 0x30200000 [(tdmBase + 8, 0x10000000#32)] : State), _, someGet _ (by decide +kernel)⟩⟩

theorem witness6 :
    (∃ (e : Nat) (s : State) (l : List Chan), (∀ (x : Chan), x ∈ l → x.e = false) ∧ mget [] s.taken e = l) ∧
    (∃ (e : Nat) (l : List Chan) (rest : List Chan) (c : Chan) (s : State), (∀ (x : Chan), x ∈ l → x.e = false) ∧ c.e = true ∧ mget [] s.taken e = l ++ c :: rest) :=
  ⟨⟨(12288 : Nat), (s0 : State), _, (by decide +kernel), rfl⟩,
   ⟨(12288 : Nat), ([{ v := 0x00000#20, e := false, p := false }] : List Chan), ([{ v := 0x00007#20, e := false, p := false }] : List Chan), ({ v := 0x00005#20, e := true, p := false } : Chan), (et 0 [] {} [{}, { v := 5, e := true }, { v := 7 }] : State), (by decide +kernel), (by decide +kernel), (by decide +kernel)⟩⟩

theorem witness7 :
    (∃ (p : Nat) (cs : List Chan) (s : State), (List.find? (fun (t : TapFrame) => t.seq == fld ((Option.map (fun (x : Chan) => x.v) cs.head?).getD 0) 4 16) (s.eth p).tap = none ∨ s.captain = false)) ∧
    (∃ (p : Nat) (cs : List Chan) (s : State) (t : TapFrame), (List.find? (fun (t : TapFrame) => t.seq == fld ((Option.map (fun (x : Chan) => x.v) cs.head?).getD 0) 4 16) (s.eth p).tap = some t) ∧ s.captain = true ∧ cs.length ≠ 1 + fld (s.rg (ethReg p + 260)) 24 8 / 2) ∧
    (∃ (p : Nat) (cs : List Chan) (s : State) (t : TapFrame), (List.find? (fun (t : TapFrame) => t.seq == fld ((Option.map (fun (x : Chan) => x.v) cs.head?).getD 0) 4 16) (s.eth p).tap = some t) ∧ s.captain = true ∧ cs.length = 1 + fld (s.rg (ethReg p + 260)) 24 8 / 2 ∧ ((cs.any fun (x : Chan) => x.p) = false)) ∧
    (∃ (p : Nat) (cs : List Chan) (s : State) (t : TapFrame), (List.find? (fun (t : TapFrame) => t.seq == fld ((Option.map (fun (x : Chan) => x.v) cs.head?).getD 0) 4 16) (s.eth p).tap = some t) ∧ s.captain = true ∧ cs.length = 1 + fld (s.rg (ethReg p + 260)) 24 8 / 2 ∧ ((cs.any fun (x : Chan) => x.p) = true)) :=
  ⟨⟨(0 : Nat), ([] : List Chan), (s0 : State), (by decide +kernel)⟩,
   ⟨(0 : Nat), ([{ v := 0x00030#20, e := false, p := false }, { v := 0x00005#20, e := false, p := false }, { v := 0x00063#20, e := true, p := false }] : List Chan), (et 0x10 [(0x100, 0xC0100800), (0x104, 0x02020604)] { tap := [tf0] } [] 0 [(tdmBase + 8, 0x10000000#32)] : State), _, someGet _ (by decide +kernel), (by decide +kernel), (by decide +kernel)⟩,
   ⟨(0 : Nat), ([{ v := 0x00030#20, e := false, p := false }, { v := 0x00005#20, e := false, p := false }] : List Chan), (et 0x10 [(0x100, 0xC0100800), (0x104, 0x02020604)] { tap := [tf0] } [] 0 [(tdmBase + 8, 0x10000000#32)] : State), _, someGet _ (by decide +kernel), (by decide +kernel), (by decide +kernel), (by decide +kernel)⟩,
   ⟨(0 : Nat), ([{ v := 0x00030#20, e := false, p := false }, { v := 0x00005#20, e := false, p := true }] : List Chan), (et 0x10 [(0x100, 0xC0100800), (0x104, 0x02020604)] { tap := [tf0] } [] 0 [(tdmBase + 8, 0x10000000#32)] : State), _, someGet _ (by decide +kernel), (by decide +kernel), (by decide +kernel), (by decide +kernel)⟩⟩

theorem witness8 :
    (∃ (f : Frame) (i : Nat), i < List.length f) :=
  ⟨(id ([0x01#8, 0x01#8, 0x01#8, 0x01#8, 0x01#8, 0x01#8, 0x01#8, 0x01#8, 0x01#8, 0x01#8, 0x01#8, 0x01#8, 0x81#8, 0x00#8, 0x20#8, 0x05#8, 0x08#8, 0x00#8, 0x01#8, 0x02#8, 0x03#8, 0x04#8]) : Frame), (0 : Nat), (by decide +kernel)⟩

theorem witness9 :
    (∃ (f : Frame) (i : Nat) (c : Chan), (frameSamples f)[i]? = some c) :=
  ⟨(id ([0x01#8, 0x01#8, 0x01#8, 0x01#8, 0x01#8, 0x01#8, 0x01#8, 0x01#8, 0x01#8, 0x01#8, 0x01#8, 0x01#8, 0x81#8, 0x00#8, 0x20#8, 0x05#8, 0x08#8, 0x00#8, 0x01#8, 0x02#8, 0x03#8, 0x04#8]) : Frame), (0 : Nat), _, someGet _ (by decide +kernel)⟩

theorem witness10 :
    (∃ (p : Nat) (f : Frame) (s : State) (ok : Bool) (u : State), s.qciPass p f = (u, ok) ∧ ok = false) ∧
    (∃ (p : Nat) (f : Frame) (s : State) (ok : Bool) (u : State), s.qciPass p f = (u, ok) ∧ ok = true ∧ u.rxStream p f = none) ∧
    (∃ (p : Nat) (f : Frame) (s : State) (ok : Bool) (k : Nat) (passes : Bool) (u : State) (v : State), s.qciPass p f = (u, ok) ∧ ok = true ∧ u.rxStream p f = some k ∧ u.frerPass p k f = (v, passes) ∧ passes = false) ∧
    (∃ (p : Nat) (f : Frame) (s : State) (ok : Bool) (k : Nat) (passes : Bool) (u : State) (v : State), s.qciPass p f = (u, ok) ∧ ok = true ∧ u.rxStream p f = some k ∧ u.frerPass p k f = (v, passes) ∧ passes = true ∧ (32768 < (List.map (fun (k : Nat) => 2 * (mget [] v.held (12288 + 8 * p + k)).length) (List.range 4)).sum + (List.length f + 1) / 2 * 2 ∨ 2000 < List.length f ∨ f = [])) ∧
    (∃ (p : Nat) (f : Frame) (s : State) (ok : Bool) (k : Nat) (passes : Bool) (u : State) (v : State), s.qciPass p f = (u, ok) ∧ ok = true ∧ u.rxStream p f = some k ∧ u.frerPass p k f = (v, passes) ∧ passes = true ∧ ((List.map (fun (k : Nat) => 2 * (mget [] v.held (12288 + 8 * p + k)).length) (List.range 4)).sum + (List.length f + 1) / 2 * 2 ≤ 32768) ∧ List.length f ≤ 2000 ∧ f ≠ []) :=
  ⟨⟨(0 : Nat), (id ([0x01#8, 0x01#8, 0x01#8, 0x01#8, 0x01#8, 0x01#8, 0x01#8, 0x01#8, 0x01#8, 0x01#8, 0x01#8, 0x01#8, 0x81#8, 0x00#8, 0x20#8, 0x05#8, 0x08#8, 0x00#8, 0x01#8, 0x02#8, 0x03#8, 0x04#8]) : Frame), (et 0 [(0x2000, 0x90050000 - 0), (0x2000, 0), (0x40, 0x80000800)] : State), _, _, pairEta2 _, (by decide +kernel)⟩,
   ⟨(0 : Nat), (id ([]) : Frame), (s0 : State), _, _, pairEta2 _, (by decide +kernel), (by decide +kernel)⟩,
   ⟨(0 : Nat), (id ([0x01#8, 0x01#8, 0x01#8, 0x01#8, 0x01#8, 0x01#8, 0x01#8, 0x01#8, 0x01#8, 0x01#8, 0x01#8, 0x01#8, 0x81#8, 0x00#8, 0x20#8, 0x06#8, 0xf1#8, 0xc1#8, 0x00#8, 0x00#8, 0x00#8, 0x07#8, 0x08#8, 0x00#8, 0x03#8, 0x04#8]) : Frame), (et 0 [(0x40, 0x80000800), (0x3000, 0xA0060000), (0x3004, 3)] { frer := [(0, { last := some 7, hist := 1 })] } : State), _, _, _, _, _, pairEta2 _, (by decide +kernel), someGet _ (by decide +kernel), pairEta2 _, (by decide +kernel)⟩,
   ⟨(0 : Nat), (id ([0x01#8, 0x01#8, 0x01#8, 0x01#8, 0x01#8, 0x01#8, 0x01#8, 0x01#8, 0x01#8, 0x01#8, 0x01#8, 0x01#8, 0x08#8, 0x00#8, 0x05#8, 0x05#8, 0x05#8, 0x05#8, 0x05#8, 0x05#8, 0x05#8, 0x05#8, 0x05#8, 0x05#8, 0x05#8, 0x05#8, 0x05#8, 0x05#8, 0x05#8, 0x05#8, 0x05#8, 0x05#8, 0x05#8, 0x05#8, 0x05#8, 0x05#8, 0x05#8, 0x05#8, 0x05#8, 0x05#8, 0x05#8, 0x05#8, 0x05#8, 0x05#8, 0x05#8, 0x05#8, 0x05#8, 0x05#8, 0x05#8, 0x05#8, 0x05#8, 0x05#8, 0x05#8, 0x05#8, 0x05#8, 0x05#8, 0x05#8, 0x05#8, 0x05#8, 0x05#8, 0x05#8, 0x05#8, 0x05#8, 0x05#8, 0x05#8, 0x05#8, 0x05#8, 0x05#8, 0x05#8, 0x05#8, 0x05#8, 0x05#8, 0x05#8, 0x05#8, 0x05#8, 0x05#8, 0x05#8, 0x05#8, 0x05#8, 0x05#8, 0x05#8, 0x05#8, 0x05#8, 0x05#8, 0x05#8, 0x05#8, 0x05#8, 0x05#8, 0x05#8, 0x05#8, 0x05#8, 0x05#8, 0x05#8, 0x05#8, 0x05#8, 0x05#8, 0x05#8, 0x05#8, 0x05#8, 0x05#8, 0x05#8, 0x05#8, 0x05#8, 0x05#8, 0x05#8, 0x05#8, 0x05#8, 0x05#8, 0x05#8, 0x05#8, 0x05#8, 0x05#8, 0x05#8, 0x05#8, 0x05#8, 0x05#8, 0x05#8, 0x05#8, 0x05#8, 0x05#8, 0x05#8, 0x05#8, 0x05#8, 0x05#8, 0x05#8, 0x05#8, 0x05#8, 0x05#8, 0x05#8, 0x05#8, 0x05#8, 0x05#8, 0x05#8, 0x05#8, 0x05#8, 0x05#8, 0x05#8, 0x05#8, 0x05#8, 0x05#8, 0x05#8, 0x05#8, 0x05#8, 0x05#8, 0x05#8, 0x05#8, 0x05#8, 0x05#8, 0x05#8, 0x05#8, 0x05#8, 0x05#8, 0x05#8, 0x05#8, 0x05#8, 0x05#8, 0x05#8, 0x05#8, 0x05#8, 0x05#8, 0x05#8, 0x05#8, 0x05#8, 0x05#8, 0x05#8, 0x05#8, 0x05#8, 0x05#8, 0x05#8, 0x05#8, 0x05#8, 0x05#8, 0x05#8, 0x05#8, 0x05#8, 0x05#8, 0x05#8, 0x05#8, 0x05#8, 0x05#8, 0x05#8, 0x05#8, 0x05#8, 0x05#8, 0x05#8, 0x05#8, 0x05#8, 0x05#8, 0x05#8, 0x05#8, 0x05#8, 0x05#8, 0x05#8, 0x05#8, 0x05#8, 0x05#8, 0x05#8, 0x05#8, 0x05#8, 0x05#8, 0x05#8, 0x05#8, 0x05#8, 0x05#8, 0x05#8, 0x05#8, 0x05#8, 0x05#8, 0x05#8, 0x05#8, 0x05#8, 0x05#8, 0x05#8, 0x05#8, 0x05#8, 0x05#8, 0x05#8, 0x05#8, 0x05#8, 0x05#8, 0x05#8, 0x05#8, 0x05#8, 0x05#8, 0x05#8, 0x05#8, 0x05#8, 0x05#8, 0x05#8, 0x05#8, 0x05#8, 0x05#8, 0x05#8, 0x05#8, 0x05#8, 0x05#8, 0x05#8, 0x05#8, 0x05#8, 0x05#8, 0x05#8, 0x05#8, 0x05#8, 0x05#8, 0x05#8, 0x05#8, 0x05#8, 0x05#8, 0x05#8, 0x05#8, 0x05#8, 0x05#8, 0x05#8, 0x05#8, 0x05#8, 0x05#8, 0x05#8, 0x05#8, 0x05#8, 0x05#8, 0x05#8, 0x05#8, 0x05#8, 0x05#8, 0x05#8, 0x05#8, 0x05#8, 0x05#8, 0x05#8, 0x05#8, 0x05#8, 0x05#8, 0x05#8, 0x05#8, 0x05#8, 0x05#8, 0x05#8, 0x05#8, 0x05#8, 0x05#8, 0x05#8, 0x05#8, 0x05#8, 0x05#8, 0x05#8, 0x05#8, 0x05#8, 0x05#8, 0x05#8, 0x05#8, 0x05#8, 0x05#8, 0x05#8, 0x05#8, 0x05#8, 0x05#8, 0x05#8, 0x05#8, 0x05#8, 0x05#8, 0x05#8, 0x05#8, 0x05#8, 0x05#8, 0x05#8, 0x05#8, 0x05#8, 0x05#8, 0x05#8, 0x05#8, 0x05#8, 0x05#8, 0x05#8, 0x05#8, 0x05#8, 0x05#8, 0x05#8, 0x05#8, 0x05#8, 0x05#8, 0x05#8, 0x05#8, 0x05#8, 0x05#8, 0x05#8, 0x05#8, 0x05#8, 0x05#8, 0x05#8, 0x05#8, 0x05#8, 0x05#8, 0x05#8, 0x05#8, 0x05#8, 0x05#8, 0x05#8, 0x05#8, 0x05#8, 0x05#8, 0x05#8, 0x05#8, 0x05#8, 0x05#8, 0x05#8, 0x05#8, 0x05#8, 0x05#8, 0x05#8, 0x05#8, 0x05#8, 0x05#8, 0x05#8, 0x05#8, 0x05#8, 0x05#8, 0x05#8, 0x05#8, 0x05#8, 0x05#8, 0x05#8, 0x05#8, 0x05#8, 0x05#8, 0x05#8, 0x05#8, 0x05#8, 0x05#8, 0x05#8, 0x05#8, 0x05#8, 0x05#8, 0x05#8, 0x05#8, 0x05#8, 0x05#8, 0x05#8, 0x05#8, 0x05#8, 0x05#8, 0x05#8, 0x05#8, 0x05#8, 0x05#8, 0x05#8, 0x05#8, 0x05#8, 0x05#8, 0x05#8, 0x05#8, 0x05#8, 0x05#8, 0x05#8, 0x05#8, 0x05#8, 0x05#8, 0x05#8, 0x05#8, 0x05#8, 0x05#8, 0x05#8, 0x05#8, 0x05#8, 0x05#8, 0x05#8, 0x05#8, 0x05#8, 0x05#8, 0x05#8, 0x05#8, 0x05#8, 0x05#8, 0x05#8, 0x05#8, 0x05#8, 0x05#8, 0x05#8, 0x05#8, 0x05#8, 0x05#8, 0x05#8, 0x05#8, 0x05#8, 0x05#8, 0x05#8, 0x05#8, 0x05#8, 0x05#8, 0x05#8, 0x05#8, 0x05#8, 0x05#8, 0x05#8, 0x05#8, 0x05#8, 0x05#8, 0x05#8, 0x05#8, 0x05#8, 0x05#8, 0x05#8, 0x05#8, 0x05#8, 0x05#8, 0x05#8, 0x05#8, 0x05#8, 0x05#8, 0x05#8, 0x05#8, 0x05#8, 0x05#8, 0x05#8, 0x05#8, 0x05#8, 0x05#8, 0x05#8, 0x05#8, 0x05#8, 0x05#8, 0x05#8, 0x05#8, 0x05#8, 0x05#8, 0x05#8, 0x05#8, 0x05#8, 0x05#8, 0x05#8, 0x05#8, 0x05#8, 0x05#8, 0x05#8, 0x05#8, 0x05#8, 0x05#8, 0x05#8, 0x05#8, 0x05#8, 0x05#8, 0x05#8, 0x05#8, 0x05#8, 0x05#8, 0x05#8, 0x05#8, 0x05#8, 0x05#8, 0x05#8, 0x05#8, 0x05#8, 0x05#8, 0x05#8, 0x05#8, 0x05#8, 0x05#8, 0x05#8, 0x05#8, 0x05#8, 0x05#8, 0x05#8, 0x05#8, 0x05#8, 0x05#8, 0x05#8, 0x05#8, 0x05#8, 0x05#8, 0x05#8, 0x05#8, 0x05#8, 0x05#8, 0x05#8, 0x05#8, 0x05#8, 0x05#8, 0x05#8, 0x05#8, 0x05#8, 0x05#8, 0x05#8, 0x05#8, 0x05#8, 0x05#8, 0x05#8, 0x05#8, 0x05#8, 0x05#8, 0x05#8, 0x05#8, 0x05#8, 0x05#8, 0x05#8, 0x05#8, 0x05#8, 0x05#8, 0x05#8, 0x05#8, 0x05#8, 0x05#8, 0x05#8, 0x05#8, 0x05#8, 0x05#8, 0x05#8, 0x05#8, 0x05#8, 0x05#8, 0x05#8, 0x05#8, 0x05#8, 0x05#8, 0x05#8, 0x05#8, 0x05#8, 0x05#8, 0x05#8, 0x05#8, 0x05#8, 0x05#8, 0x05#8, 0x05#8, 0x05#8, 0x05#8, 0x05#8, 0x05#8, 0x05#8, 0x05#8, 0x05#8, 0x05#8, 0x05#8, 0x05#8, 0x05#8, 0x05#8, 0x05#8, 0x05#8, 0x05#8, 0x05#8, 0x05#8, 0x05#8, 0x05#8, 0x05#8, 0x05#8, 0x05#8, 0x05#8, 0x05#8, 0x05#8, 0x05#8, 0x05#8, 0x05#8, 0x05#8, 0x05#8, 0x05#8, 0x05#8, 0x05#8, 0x05#8, 0x05#8, 0x05#8, 0x05#8, 0x05#8, 0x05#8, 0x05#8, 0x05#8, 0x05#8, 0x05#8, 0x05#8, 0x05#8, 0x05#8, 0x05#8, 0x05#8, 0x05#8, 0x05#8, 0x05#8, 0x05#8, 0x05#8, 0x05#8, 0x05#8, 0x05#8, 0x05#8, 0x05#8, 0x05#8, 0x05#8, 0x05#8, 0x05#8, 0x05#8, 0x05#8, 0x05#8, 0x05#8, 0x05#8, 0x05#8, 0x05#8, 0x05#8, 0x05#8, 0x05#8, 0x05#8, 0x05#8, 0x05#8, 0x05#8, 0x05#8, 0x05#8, 0x05#8, 0x05#8, 0x05#8, 0x05#8, 0x05#8, 0x05#8, 0x05#8, 0x05#8, 0x05#8, 0x05#8, 0x05#8, 0x05#8, 0x05#8, 0x05#8, 0x05#8, 0x05#8, 0x05#8, 0x05#8, 0x05#8, 0x05#8, 0x05#8, 0x05#8, 0x05#8, 0x05#8, 0x05#8, 0x05#8, 0x05#8, 0x05#8, 0x05#8, 0x05#8, 0x05#8, 0x05#8, 0x05#8, 0x05#8, 0x05#8, 0x05#8, 0x05#8, 0x05#8, 0x05#8, 0x05#8, 0x05#8, 0x05#8, 0x05#8, 0x05#8, 0x05#8, 0x05#8, 0x05#8, 0x05#8, 0x05#8, 0x05#8, 0x05#8, 0x05#8, 0x05#8, 0x05#8, 0x05#8, 0x05#8, 0x05#8, 0x05#8, 0x05#8, 0x05#8, 0x05#8, 0x05#8, 0x05#8, 0x05#8, 0x05#8, 0x05#8, 0x05#8, 0x05#8, 0x05#8, 0x05#8, 0x05#8, 0x05#8, 0x05#8, 0x05#8, 0x05#8, 0x05#8, 0x05#8, 0x05#8, 0x05#8, 0x05#8, 0x05#8, 0x05#8, 0x05#8, 0x05#8, 0x05#8, 0x05#8, 0x05#8, 0x05#8, 0x05#8, 0x05#8, 0x05#8, 0x05#8, 0x05#8, 0x05#8, 0x05#8, 0x05#8, 0x05#8, 0x05#8, 0x05#8, 0x05#8, 0x05#8, 0x05#8, 0x05#8, 0x05#8, 0x05#8, 0x05#8, 0x05#8, 0x05#8, 0x05#8, 0x05#8, 0x05#8, 0x05#8, 0x05#8, 0x05#8, 0x05#8, 0x05#8, 0x05#8, 0x05#8, 0x05#8, 0x05#8, 0x05#8, 0x05#8, 0x05#8, 0x05#8, 0x05#8, 0x05#8, 0x05#8, 0x05#8, 0x05#8, 0x05#8, 0x05#8, 0x05#8, 0x05#8, 0x05#8, 0x05#8, 0x05#8, 0x05#8, 0x05#8, 0x05#8, 0x05#8, 0x05#8, 0x05#8, 0x05#8, 0x05#8, 0x05#8, 0x05#8, 0x05#8, 0x05#8, 0x05#8, 0x05#8, 0x05#8, 0x05#8, 0x05#8, 0x05#8, 0x05#8, 0x05#8, 0x05#8, 0x05#8, 0x05#8, 0x05#8, 0x05#8, 0x05#8, 0x05#8, 0x05#8, 0x05#8, 0x05#8, 0x05#8, 0x05#8, 0x05#8, 0x05#8, 0x05#8, 0x05#8, 0x05#8, 0x05#8, 0x05#8, 0x05#8, 0x05#8, 0x05#8, 0x05#8, 0x05#8, 0x05#8, 0x05#8, 0x05#8, 0x05#8, 0x05#8, 0x05#8, 0x05#8, 0x05#8, 0x05#8, 0x05#8, 0x05#8, 0x05#8, 0x05#8, 0x05#8, 0x05#8, 0x05#8, 0x05#8, 0x05#8, 0x05#8, 0x05#8, 0x05#8, 0x05#8, 0x05#8, 0x05#8, 0x05#8, 0x05#8, 0x05#8, 0x05#8, 0x05#8, 0x05#8, 0x05#8, 0x05#8, 0x05#8, 0x05#8, 0x05#8, 0x05#8, 0x05#8, 0x05#8, 0x05#8, 0x05#8, 0x05#8, 0x05#8, 0x05#8, 0x05#8, 0x05#8, 0x05#8, 0x05#8, 0x05#8, 0x05#8, 0x05#8, 0x05#8, 0x05#8, 0x05#8, 0x05#8, 0x05#8, 0x05#8, 0x05#8, 0x05#8, 0x05#8, 0x05#8, 0x05#8, 0x05#8, 0x05#8, 0x05#8, 0x05#8, 0x05#8, 0x05#8, 0x05#8, 0x05#8, 0x05#8, 0x05#8, 0x05#8, 0x05#8, 0x05#8, 0x05#8, 0x05#8, 0x05#8, 0x05#8, 0x05#8, 0x05#8, 0x05#8, 0x05#8, 0x05#8, 0x05#8, 0x05#8, 0x05#8, 0x05#8, 0x05#8, 0x05#8, 0x05#8, 0x05#8, 0x05#8, 0x05#8, 0x05#8, 0x05#8, 0x05#8, 0x05#8, 0x05#8, 0x05#8, 0x05#8, 0x05#8, 0x05#8, 0x05#8, 0x05#8, 0x05#8, 0x05#8, 0x05#8, 0x05#8, 0x05#8, 0x05#8, 0x05#8, 0x05#8, 0x05#8, 0x05#8, 0x05#8, 0x05#8, 0x05#8, 0x05#8, 0x05#8, 0x05#8, 0x05#8, 0x05#8, 0x05#8, 0x05#8, 0x05#8, 0x05#8, 0x05#8, 0x05#8, 0x05#8, 0x05#8, 0x05#8, 0x05#8, 0x05#8, 0x05#8, 0x05#8, 0x05#8, 0x05#8, 0x05#8, 0x05#8, 0x05#8, 0x05#8, 0x05#8, 0x05#8, 0x05#8, 0x05#8, 0x05#8, 0x05#8, 0x05#8, 0x05#8, 0x05#8, 0x05#8, 0x05#8, 0x05#8, 0x05#8, 0x05#8, 0x05#8, 0x05#8, 0x05#8, 0x05#8, 0x05#8, 0x05#8, 0x05#8, 0x05#8, 0x05#8, 0x05#8, 0x05#8, 0x05#8, 0x05#8, 0x05#8, 0x05#8, 0x05#8, 0x05#8, 0x05#8, 0x05#8, 0x05#8, 0x05#8, 0x05#8, 0x05#8, 0x05#8, 0x05#8, 0x05#8, 0x05#8, 0x05#8, 0x05#8, 0x05#8, 0x05#8, 0x05#8, 0x05#8, 0x05#8, 0x05#8, 0x05#8, 0x05#8, 0x05#8, 0x05#8, 0x05#8, 0x05#8, 0x05#8, 0x05#8, 0x05#8, 0x05#8, 0x05#8, 0x05#8, 0x05#8, 0x05#8, 0x05#8, 0x05#8, 0x05#8, 0x05#8, 0x05#8, 0x05#8, 0x05#8, 0x05#8, 0x05#8, 0x05#8, 0x05#8, 0x05#8, 0x05#8, 0x05#8, 0x05#8, 0x05#8, 0x05#8, 0x05#8, 0x05#8, 0x05#8, 0x05#8, 0x05#8, 0x05#8, 0x05#8, 0x05#8, 0x05#8, 0x05#8, 0x05#8, 0x05#8, 0x05#8, 0x05#8, 0x05#8, 0x05#8, 0x05#8, 0x05#8, 0x05#8, 0x05#8, 0x05#8, 0x05#8, 0x05#8, 0x05#8, 0x05#8, 0x05#8, 0x05#8, 0x05#8, 0x05#8, 0x05#8, 0x05#8, 0x05#8, 0x05#8, 0x05#8, 0x05#8, 0x05#8, 0x05#8, 0x05#8, 0x05#8, 0x05#8, 0x05#8, 0x05#8, 0x05#8, 0x05#8, 0x05#8, 0x05#8, 0x05#8, 0x05#8, 0x05#8, 0x05#8, 0x05#8, 0x05#8, 0x05#8, 0x05#8, 0x05#8, 0x05#8, 0x05#8, 0x05#8, 0x05#8, 0x05#8, 0x05#8, 0x05#8, 0x05#8, 0x05#8, 0x05#8, 0x05#8, 0x05#8, 0x05#8, 0x05#8, 0x05#8, 0x05#8, 0x05#8, 0x05#8, 0x05#8, 0x05#8, 0x05#8, 0x05#8, 0x05#8, 0x05#8, 0x05#8, 0x05#8, 0x05#8, 0x05#8, 0x05#8, 0x05#8, 0x05#8, 0x05#8, 0x05#8, 0x05#8, 0x05#8, 0x05#8, 0x05#8, 0x05#8, 0x05#8, 0x05#8, 0x05#8, 0x05#8, 0x05#8, 0x05#8, 0x05#8, 0x05#8, 0x05#8, 0x05#8, 0x05#8, 0x05#8, 0x05#8, 0x05#8, 0x05#8, 0x05#8, 0x05#8, 0x05#8, 0x05#8, 0x05#8, 0x05#8, 0x05#8, 0x05#8, 0x05#8, 0x05#8, 0x05#8, 0x05#8, 0x05#8, 0x05#8, 0x05#8, 0x05#8, 0x05#8, 0x05#8, 0x05#8, 0x05#8, 0x05#8, 0x05#8, 0x05#8, 0x05#8, 0x05#8, 0x05#8, 0x05#8, 0x05#8, 0x05#8, 0x05#8, 0x05#8, 0x05#8, 0x05#8, 0x05#8, 0x05#8, 0x05#8, 0x05#8, 0x05#8, 0x05#8, 0x05#8, 0x05#8, 0x05#8, 0x05#8, 0x05#8, 0x05#8, 0x05#8, 0x05#8, 0x05#8, 0x05#8, 0x05#8, 0x05#8, 0x05#8, 0x05#8, 0x05#8, 0x05#8, 0x05#8, 0x05#8, 0x05#8, 0x05#8, 0x05#8, 0x05#8, 0x05#8, 0x05#8, 0x05#8, 0x05#8, 0x05#8, 0x05#8, 0x05#8, 0x05#8, 0x05#8, 0x05#8, 0x05#8, 0x05#8, 0x05#8, 0x05#8, 0x05#8, 0x05#8, 0x05#8, 0x05#8, 0x05#8, 0x05#8, 0x05#8, 0x05#8, 0x05#8, 0x05#8, 0x05#8, 0x05#8, 0x05#8, 0x05#8, 0x05#8, 0x05#8, 0x05#8, 0x05#8, 0x05#8, 0x05#8, 0x05#8, 0x05#8, 0x05#8, 0x05#8, 0x05#8, 0x05#8, 0x05#8, 0x05#8, 0x05#8, 0x05#8, 0x05#8, 0x05#8, 0x05#8, 0x05#8, 0x05#8, 0x05#8, 0x05#8, 0x05#8, 0x05#8, 0x05#8, 0x05#8, 0x05#8, 0x05#8, 0x05#8, 0x05#8, 0x05#8, 0x05#8, 0x05#8, 0x05#8, 0x05#8, 0x05#8, 0x05#8, 0x05#8, 0x05#8, 0x05#8, 0x05#8, 0x05#8, 0x05#8, 0x05#8, 0x05#8, 0x05#8, 0x05#8, 0x05#8, 0x05#8, 0x05#8, 0x05#8, 0x05#8, 0x05#8, 0x05#8, 0x05#8, 0x05#8, 0x05#8, 0x05#8, 0x05#8, 0x05#8, 0x05#8, 0x05#8, 0x05#8, 0x05#8, 0x05#8, 0x05#8, 0x05#8, 0x05#8, 0x05#8, 0x05#8, 0x05#8, 0x05#8, 0x05#8, 0x05#8, 0x05#8, 0x05#8, 0x05#8, 0x05#8, 0x05#8, 0x05#8, 0x05#8, 0x05#8, 0x05#8, 0x05#8, 0x05#8, 0x05#8, 0x05#8, 0x05#8, 0x05#8, 0x05#8, 0x05#8, 0x05#8, 0x05#8, 0x05#8, 0x05#8, 0x05#8, 0x05#8, 0x05#8, 0x05#8, 0x05#8, 0x05#8, 0x05#8, 0x05#8, 0x05#8, 0x05#8, 0x05#8, 0x05#8, 0x05#8, 0x05#8, 0x05#8, 0x05#8, 0x05#8, 0x05#8, 0x05#8, 0x05#8, 0x05#8, 0x05#8, 0x05#8, 0x05#8, 0x05#8, 0x05#8, 0x05#8, 0x05#8, 0x05#8, 0x05#8, 0x05#8, 0x05#8, 0x05#8, 0x05#8, 0x05#8, 0x05#8, 0x05#8, 0x05#8, 0x05#8, 0x05#8, 0x05#8, 0x05#8, 0x05#8, 0x05#8, 0x05#8, 0x05#8, 0x05#8, 0x05#8, 0x05#8, 0x05#8, 0x05#8, 0x05#8, 0x05#8, 0x05#8, 0x05#8, 0x05#8, 0x05#8, 0x05#8, 0x05#8, 0x05#8, 0x05#8, 0x05#8, 0x05#8, 0x05#8, 0x05#8, 0x05#8, 0x05#8, 0x05#8, 0x05#8, 0x05#8, 0x05#8, 0x05#8, 0x05#8, 0x05#8, 0x05#8, 0x05#8, 0x05#8, 0x05#8, 0x05#8, 0x05#8, 0x05#8, 0x05#8, 0x05#8, 0x05#8, 0x05#8, 0x05#8, 0x05#8, 0x05#8, 0x05#8, 0x05#8, 0x05#8, 0x05#8, 0x05#8, 0x05#8, 0x05#8, 0x05#8, 0x05#8, 0x05#8, 0x05#8, 0x05#8, 0x05#8, 0x05#8, 0x05#8, 0x05#8, 0x05#8, 0x05#8, 0x05#8, 0x05#8, 0x05#8, 0x05#8, 0x05#8, 0x05#8, 0x05#8, 0x05#8, 0x05#8, 0x05#8, 0x05#8, 0x05#8, 0x05#8, 0x05#8, 0x05#8, 0x05#8, 0x05#8, 0x05#8, 0x05#8, 0x05#8, 0x05#8, 0x05#8, 0x05#8, 0x05#8, 0x05#8, 0x05#8, 0x05#8, 0x05#8, 0x05#8, 0x05#8, 0x05#8, 0x05#8, 0x05#8, 0x05#8, 0x05#8, 0x05#8, 0x05#8, 0x05#8, 0x05#8, 0x05#8, 0x05#8, 0x05#8, 0x05#8, 0x05#8, 0x05#8, 0x05#8, 0x05#8, 0x05#8, 0x05#8, 0x05#8, 0x05#8, 0x05#8, 0x05#8, 0x05#8, 0x05#8, 0x05#8, 0x05#8, 0x05#8, 0x05#8, 0x05#8, 0x05#8, 0x05#8, 0x05#8, 0x05#8, 0x05#8, 0x05#8, 0x05#8, 0x05#8, 0x05#8, 0x05#8, 0x05#8, 0x05#8, 0x05#8, 0x05#8, 0x05#8, 0x05#8, 0x05#8, 0x05#8, 0x05#8, 0x05#8, 0x05#8, 0x05#8, 0x05#8, 0x05#8, 0x05#8, 0x05#8, 0x05#8, 0x05#8, 0x05#8, 0x05#8, 0x05#8, 0x05#8, 0x05#8, 0x05#8, 0x05#8, 0x05#8, 0x05#8, 0x05#8, 0x05#8, 0x05#8, 0x05#8, 0x05#8, 0x05#8, 0x05#8, 0x05#8, 0x05#8, 0x05#8, 0x05#8, 0x05#8, 0x05#8, 0x05#8, 0x05#8, 0x05#8, 0x05#8, 0x05#8, 0x05#8, 0x05#8, 0x05#8, 0x05#8, 0x05#8, 0x05#8, 0x05#8, 0x05#8, 0x05#8, 0x05#8, 0x05#8, 0x05#8, 0x05#8, 0x05#8, 0x05#8, 0x05#8, 0x05#8, 0x05#8, 0x05#8, 0x05#8, 0x05#8, 0x05#8, 0x05#8, 0x05#8, 0x05#8, 0x05#8, 0x05#8, 0x05#8, 0x05#8, 0x05#8, 0x05#8, 0x05#8, 0x05#8, 0x05#8, 0x05#8, 0x05#8, 0x05#8, 0x05#8, 0x05#8, 0x05#8, 0x05#8, 0x05#8, 0x05#8, 0x05#8, 0x05#8, 0x05#8, 0x05#8, 0x05#8, 0x05#8, 0x05#8, 0x05#8, 0x05#8, 0x05#8, 0x05#8, 0x05#8, 0x05#8, 0x05#8, 0x05#8, 0x05#8, 0x05#8, 0x05#8, 0x05#8, 0x05#8, 0x05#8, 0x05#8, 0x05#8, 0x05#8, 0x05#8, 0x05#8, 0x05#8, 0x05#8, 0x05#8, 0x05#8, 0x05#8, 0x05#8, 0x05#8, 0x05#8, 0x05#8, 0x05#8, 0x05#8, 0x05#8, 0x05#8, 0x05#8, 0x05#8, 0x05#8, 0x05#8, 0x05#8, 0x05#8, 0x05#8, 0x05#8, 0x05#8, 0x05#8, 0x05#8, 0x05#8, 0x05#8, 0x05#8, 0x05#8, 0x05#8, 0x05#8, 0x05#8, 0x05#8, 0x05#8, 0x05#8, 0x05#8, 0x05#8, 0x05#8, 0x05#8, 0x05#8, 0x05#8, 0x05#8, 0x05#8, 0x05#8, 0x05#8, 0x05#8, 0x05#8, 0x05#8, 0x05#8, 0x05#8, 0x05#8, 0x05#8, 0x05#8, 0x05#8, 0x05#8, 0x05#8, 0x05#8, 0x05#8, 0x05#8, 0x05#8, 0x05#8, 0x05#8, 0x05#8, 0x05#8, 0x05#8, 0x05#8, 0x05#8, 0x05#8, 0x05#8, 0x05#8, 0x05#8, 0x05#8, 0x05#8, 0x05#8, 0x05#8, 0x05#8, 0x05#8, 0x05#8, 0x05#8, 0x05#8, 0x05#8, 0x05#8, 0x05#8, 0x05#8, 0x05#8, 0x05#8, 0x05#8, 0x05#8, 0x05#8, 0x05#8, 0x05#8, 0x05#8, 0x05#8, 0x05#8, 0x05#8, 0x05#8, 0x05#8, 0x05#8, 0x05#8, 0x05#8, 0x05#8, 0x05#8, 0x05#8, 0x05#8, 0x05#8, 0x05#8, 0x05#8, 0x05#8, 0x05#8, 0x05#8, 0x05#8, 0x05#8, 0x05#8, 0x05#8, 0x05#8, 0x05#8, 0x05#8, 0x05#8, 0x05#8, 0x05#8, 0x05#8, 0x05#8, 0x05#8, 0x05#8, 0x05#8, 0x05#8, 0x05#8, 0x05#8, 0x05#8, 0x05#8, 0x05#8, 0x05#8, 0x05#8, 0x05#8, 0x05#8, 0x05#8, 0x05#8, 0x05#8, 0x05#8, 0x05#8, 0x05#8, 0x05#8, 0x05#8, 0x05#8, 0x05#8, 0x05#8, 0x05#8, 0x05#8, 0x05#8, 0x05#8, 0x05#8, 0x05#8, 0x05#8, 0x05#8, 0x05#8, 0x05#8, 0x05#8, 0x05#8, 0x05#8, 0x05#8, 0x05#8, 0x05#8, 0x05#8, 0x05#8, 0x05#8, 0x05#8, 0x05#8, 0x05#8, 0x05#8, 0x05#8, 0x05#8, 0x05#8, 0x05#8, 0x05#8, 0x05#8, 0x05#8, 0x05#8, 0x05#8, 0x05#8, 0x05#8, 0x05#8, 0x05#8, 0x05#8, 0x05#8, 0x05#8, 0x05#8, 0x05#8, 0x05#8, 0x05#8, 0x05#8, 0x05#8, 0x05#8, 0x05#8, 0x05#8, 0x05#8, 0x05#8, 0x05#8, 0x05#8, 0x05#8, 0x05#8, 0x05#8, 0x05#8, 0x05#8, 0x05#8, 0x05#8, 0x05#8, 0x05#8, 0x05#8, 0x05#8, 0x05#8, 0x05#8, 0x05#8, 0x05#8, 0x05#8, 0x05#8, 0x05#8, 0x05#8, 0x05#8, 0x05#8, 0x05#8, 0x05#8, 0x05#8, 0x05#8, 0x05#8, 0x05#8, 0x05#8, 0x05#8, 0x05#8, 0x05#8, 0x05#8, 0x05#8, 0x05#8, 0x05#8, 0x05#8, 0x05#8, 0x05#8, 0x05#8, 0x05#8, 0x05#8, 0x05#8, 0x05#8, 0x05#8, 0x05#8, 0x05#8, 0x05#8, 0x05#8, 0x05#8, 0x05#8, 0x05#8, 0x05#8, 0x05#8, 0x05#8, 0x05#8, 0x05#8, 0x05#8, 0x05#8, 0x05#8, 0x05#8, 0x05#8, 0x05#8, 0x05#8, 0x05#8, 0x05#8, 0x05#8, 0x05#8, 0x05#8, 0x05#8, 0x05#8, 0x05#8, 0x05#8, 0x05#8, 0x05#8, 0x05#8, 0x05#8, 0x05#8, 0x05#8, 0x05#8, 0x05#8, 0x05#8, 0x05#8, 0x05#8, 0x05#8, 0x05#8, 0x05#8, 0x05#8, 0x05#8, 0x05#8, 0x05#8, 0x05#8, 0x05#8, 0x05#8, 0x05#8, 0x05#8, 0x05#8, 0x05#8, 0x05#8, 0x05#8, 0x05#8, 0x05#8, 0x05#8, 0x05#8, 0x05#8, 0x05#8, 0x05#8, 0x05#8, 0x05#8, 0x05#8, 0x05#8, 0x05#8, 0x05#8, 0x05#8, 0x05#8, 0x05#8, 0x05#8, 0x05#8, 0x05#8, 0x05#8, 0x05#8, 0x05#8, 0x05#8, 0x05#8, 0x05#8, 0x05#8, 0x05#8, 0x05#8, 0x05#8, 0x05#8, 0x05#8, 0x05#8, 0x05#8, 0x05#8, 0x05#8, 0x05#8, 0x05#8, 0x05#8, 0x05#8, 0x05#8, 0x05#8, 0x05#8, 0x05#8, 0x05#8, 0x05#8, 0x05#8, 0x05#8, 0x05#8, 0x05#8, 0x05#8, 0x05#8, 0x05#8, 0x05#8, 0x05#8, 0x05#8, 0x05#8, 0x05#8, 0x05#8, 0x05#8, 0x05#8, 0x05#8, 0x05#8, 0x05#8, 0x05#8, 0x05#8, 0x05#8, 0x05#8, 0x05#8, 0x05#8, 0x05#8, 0x05#8, 0x05#8, 0x05#8, 0x05#8, 0x05#8, 0x05#8, 0x05#8, 0x05#8, 0x05#8, 0x05#8, 0x05#8, 0x05#8, 0x05#8, 0x05#8, 0x05#8, 0x05#8, 0x05#8, 0x05#8, 0x05#8, 0x05#8, 0x05#8, 0x05#8, 0x05#8, 0x05#8]) : Frame), (et 0 [(0x40, 0x80000800)] : State), _, _, _, _, _, pairEta2 _, (by decide +kernel), someGet _ (by decide +kernel), pairEta2 _, (by decide +kernel), (by decide +kernel)⟩,
   ⟨(0 : Nat), (id ([0x01#8, 0x01#8, 0x01#8, 0x01#8, 0x01#8, 0x01#8, 0x01#8, 0x01#8, 0x01#8, 0x01#8, 0x01#8, 0x01#8, 0x81#8, 0x00#8, 0x20#8, 0x05#8, 0x08#8, 0x00#8, 0x01#8, 0x02#8, 0x03#8, 0x04#8]) : Frame), (et 0 [(0x40, 0x80000800)] : State), _, _, _, _, _, pairEta2 _, (by decide +kernel), someGet _ (by decide +kernel), pairEta2 _, (by decide +kernel), (by decide +kernel), (by decide +kernel), (by decide +kernel)⟩⟩

theorem witness11 :
    (∃ (p : Nat) (f : Frame) (s : State), (∀ (j : Nat), j < 64 → ¬(fun (j : Nat) => s.rb ((fun (j : Nat) => ethReg p + 8192 + 8 * j) j) 31 = true ∧ f.vid = some (s.rf ((fun (j : Nat) => ethReg p + 8192 + 8 * j) j) 16 12) ∧ f.pcp = s.rf ((fun (j : Nat) => ethReg p + 8192 + 8 * j) j) 28 3) j)) ∧
    (∃ (p : Nat) (i : Nat) (f : Frame) (s : State), i < 64 ∧ (s.rb ((fun (j : Nat) => ethReg p + 8192 + 8 * j) i) 31 = true ∧ f.vid = some (s.rf ((fun (j : Nat) => ethReg p + 8192 + 8 * j) i) 16 12) ∧ f.pcp = s.rf ((fun (j : Nat) => ethReg p + 8192 + 8 * j) i) 28 3) ∧ (∀ (j : Nat), j < i → ¬(fun (j : Nat) => s.rb ((fun (j : Nat) => ethReg p + 8192 + 8 * j) j) 31 = true ∧ f.vid = some (s.rf ((fun (j : Nat) => ethReg p + 8192 + 8 * j) j) 16 12) ∧ f.pcp = s.rf ((fun (j : Nat) => ethReg p + 8192 + 8 * j) j) 28 3) j) ∧ (s.rf ((fun (j : Nat) => ethReg p + 8192 + 8 * j) i + 4) 20 12 ≠ 0) ∧ (s.rf ((fun (j : Nat) => ethReg p + 8192 + 8 * j) i + 4) 20 12 < List.length f)) ∧
    (∃ (p : Nat) (i : Nat) (f : Frame) (s : State), i < 64 ∧ (s.rb ((fun (j : Nat) => ethReg p + 8192 + 8 * j) i) 31 = true ∧ f.vid = some (s.rf ((fun (j : Nat) => ethReg p + 8192 + 8 * j) i) 16 12) ∧ f.pcp = s.rf ((fun (j : Nat) => ethReg p + 8192 + 8 * j) i) 28 3) ∧ (∀ (j : Nat), j < i → ¬(fun (j : Nat) => s.rb ((fun (j : Nat) => ethReg p + 8192 + 8 * j) j) 31 = true ∧ f.vid = some (s.rf ((fun (j : Nat) => ethReg p + 8192 + 8 * j) j) 16 12) ∧ f.pcp = s.rf ((fun (j : Nat) => ethReg p + 8192 + 8 * j) j) 28 3) j) ∧ (s.rf ((fun (j : Nat) => ethReg p + 8192 + 8 * j) i + 4) 20 12 = 0 ∨ List.length f ≤ s.rf ((fun (j : Nat) => ethReg p + 8192 + 8 * j) i + 4) 20 12) ∧ (List.length f * 8000 ≤ match mget none (s.eth p).meters (s.rf ((fun (j : Nat) => ethReg p + 8192 + 8 * j) i + 4) 0 5) with | none => fld (s.rg (ethReg p + 9216 + 4 * s.rf ((fun (j : Nat) => ethReg p + 8192 + 8 * j) i + 4) 0 5)) 16 16 * 8000 | some (v, t) => min (fld (s.rg (ethReg p + 9216 + 4 * s.rf ((fun (j : Nat) => ethReg p + 8192 + 8 * j) i + 4) 0 5)) 16 16 * 8000) (v + (s.now - t) * fld (s.rg (ethReg p + 9216 + 4 * s.rf ((fun (j : Nat) => ethReg p + 8192 + 8 * j) i + 4) 0 5)) 0 16))) ∧
    (∃ (p : Nat) (i : Nat) (f : Frame) (s : State), i < 64 ∧ (s.rb ((fun (j : Nat) => ethReg p + 8192 + 8 * j) i) 31 = true ∧ f.vid = some (s.rf ((fun (j : Nat) => ethReg p + 8192 + 8 * j) i) 16 12) ∧ f.pcp = s.rf ((fun (j : Nat) => ethReg p + 8192 + 8 * j) i) 28 3) ∧ (∀ (j : Nat), j < i → ¬(fun (j : Nat) => s.rb ((fun (j : Nat) => ethReg p + 8192 + 8 * j) j) 31 = true ∧ f.vid = some (s.rf ((fun (j : Nat) => ethReg p + 8192 + 8 * j) j) 16 12) ∧ f.pcp = s.rf ((fun (j : Nat) => ethReg p + 8192 + 8 * j) j) 28 3) j) ∧ (s.rf ((fun (j : Nat) => ethReg p + 8192 + 8 * j) i + 4) 20 12 = 0 ∨ List.length f ≤ s.rf ((fun (j : Nat) => ethReg p + 8192 + 8 * j) i + 4) 20 12) ∧ ((match mget none (s.eth p).meters (s.rf ((fun (j : Nat) => ethReg p + 8192 + 8 * j) i + 4) 0 5) with | none => fld (s.rg (ethReg p + 9216 + 4 * s.rf ((fun (j : Nat) => ethReg p + 8192 + 8 * j) i + 4) 0 5)) 16 16 * 8000 | some (v, t) => min (fld (s.rg (ethReg p + 9216 + 4 * s.rf ((fun (j : Nat) => ethReg p + 8192 + 8 * j) i + 4) 0 5)) 16 16 * 8000) (v + (s.now - t) * fld (s.rg (ethReg p + 9216 + 4 * s.rf ((fun (j : Nat) => ethReg p + 8192 + 8 * j) i + 4) 0 5)) 0 16)) < List.length f * 8000)) :=
  ⟨⟨(0 : Nat), (id ([]) : Frame), (s0 : State), (by decide +kernel)⟩,
   ⟨(0 : Nat), (0 : Nat), (id ([0x01#8, 0x01#8, 0x01#8, 0x01#8, 0x01#8, 0x01#8, 0x01#8, 0x01#8, 0x01#8, 0x01#8, 0x01#8, 0x01#8, 0x81#8, 0x00#8, 0x20#8, 0x05#8, 0x08#8, 0x00#8, 0x01#8, 0x02#8, 0x03#8, 0x04#8]) : Frame), (et 0 [(0x2000, 0x80050000 + 2^28), (0x2004, 0x00500000), (0x40, 0x80000800)] : State), (by decide +kernel), (by decide +kernel), (by intro j d h; omega), (by decide +kernel), (by decide +kernel)⟩,
   ⟨(0 : Nat), (0 : Nat), (id ([0x01#8, 0x01#8, 0x01#8, 0x01#8, 0x01#8, 0x01#8, 0x01#8, 0x01#8, 0x01#8, 0x01#8, 0x01#8, 0x01#8, 0x81#8, 0x00#8, 0x20#8, 0x05#8, 0x08#8, 0x00#8, 0x01#8, 0x02#8, 0x03#8, 0x04#8]) : Frame), (et 0 [(0x2000, 0x80050000 + 2^28), (0x2400, 0x00500001), (0x40, 0x80000800)] : State), (by decide +kernel), (by decide +kernel), (by intro j d h; omega), (by decide +kernel), (by decide +kernel)⟩,
   ⟨(0 : Nat), (0 : Nat), (id ([0x01#8, 0x01#8, 0x01#8, 0x01#8, 0x01#8, 0x01#8, 0x01#8, 0x01#8, 0x01#8, 0x01#8, 0x01#8, 0x01#8, 0x81#8, 0x00#8, 0x20#8, 0x05#8, 0x08#8, 0x00#8, 0x01#8, 0x02#8, 0x03#8, 0x04#8]) : Frame), (et 0 [(0x2000, 0x90050000), (0x40, 0x80000800)] : State), (by decide +kernel), (by decide +kernel), (by intro j d h; omega), (by decide +kernel), (by decide +kernel)⟩⟩

theorem witness12 :
    (∃ (p : Nat) (f : Frame) (s : State), (∀ (j : Nat), j < 4 → ¬(fun (j : Nat) => s.rb ((fun (j : Nat) => ethReg p + 64 + 4 * j) j) 31 = true ∧ s.rf ((fun (j : Nat) => ethReg p + 64 + 4 * j) j) 0 16 = f.etype ∧ (s.rb ((fun (j : Nat) => ethReg p + 64 + 4 * j) j) 30 = true → f.vid = some (s.rf ((fun (j : Nat) => ethReg p + 64 + 4 * j) j) 16 12))) j)) ∧
    (∃ (p : Nat) (k : Nat) (f : Frame) (s : State), k < 4 ∧ (s.rb ((fun (j : Nat) => ethReg p + 64 + 4 * j) k) 31 = true ∧ s.rf ((fun (j : Nat) => ethReg p + 64 + 4 * j) k) 0 16 = f.etype ∧ (s.rb ((fun (j : Nat) => ethReg p + 64 + 4 * j) k) 30 = true → f.vid = some (s.rf ((fun (j : Nat) => ethReg p + 64 + 4 * j) k) 16 12))) ∧ (∀ (j : Nat), j < k → ¬(fun (j : Nat) => s.rb ((fun (j : Nat) => ethReg p + 64 + 4 * j) j) 31 = true ∧ s.rf ((fun (j : Nat) => ethReg p + 64 + 4 * j) j) 0 16 = f.etype ∧ (s.rb ((fun (j : Nat) => ethReg p + 64 + 4 * j) j) 30 = true → f.vid = some (s.rf ((fun (j : Nat) => ethReg p + 64 + 4 * j) j) 16 12))) j)) :=
  ⟨⟨(0 : Nat), (id ([]) : Frame), (s0 : State), (by decide +kernel)⟩,
   ⟨(0 : Nat), (0 : Nat), (id ([0x01#8, 0x01#8, 0x01#8, 0x01#8, 0x01#8, 0x01#8, 0x01#8, 0x01#8, 0x01#8, 0x01#8, 0x01#8, 0x01#8, 0x81#8, 0x00#8, 0x20#8, 0x05#8, 0x08#8, 0x00#8, 0x01#8, 0x02#8, 0x03#8, 0x04#8]) : Frame), (et 0 [(0x40, 0x80000800)] : State), (by decide +kernel), (by decide +kernel), (by decide +kernel)⟩⟩

theorem witness13 :
    (∃ (p : Nat) (k : Nat) (b : Nat) (f : Frame) (s : State), (∀ (j : Nat), j < 32 → ¬(fun (j : Nat) => s.rb ((fun (j : Nat) => ethReg (p / 2 * 2) + 12288 + 8 * j) j) 31 = true ∧ s.rb ((fun (j : Nat) => ethReg (p / 2 * 2) + 12288 + 8 * j) j) b = true ∧ s.rf ((fun (j : Nat) => ethReg (p / 2 * 2) + 12288 + 8 * j) j) 0 2 = k ∧ f.vid = some (s.rf ((fun (j : Nat) => ethReg (p / 2 * 2) + 12288 + 8 * j) j) 16 12)) j)) ∧
    (∃ (p : Nat) (k : Nat) (b : Nat) (i : Nat) (f : Frame) (s : State), i < 32 ∧ (s.rb ((fun (j : Nat) => ethReg (p / 2 * 2) + 12288 + 8 * j) i) 31 = true ∧ s.rb ((fun (j : Nat) => ethReg (p / 2 * 2) + 12288 + 8 * j) i) b = true ∧ s.rf ((fun (j : Nat) => ethReg (p / 2 * 2) + 12288 + 8 * j) i) 0 2 = k ∧ f.vid = some (s.rf ((fun (j : Nat) => ethReg (p / 2 * 2) + 12288 + 8 * j) i) 16 12)) ∧ (∀ (j : Nat), j < i → ¬(fun (j : Nat) => s.rb ((fun (j : Nat) => ethReg (p / 2 * 2) + 12288 + 8 * j) j) 31 = true ∧ s.rb ((fun (j : Nat) => ethReg (p / 2 * 2) + 12288 + 8 * j) j) b = true ∧ s.rf ((fun (j : Nat) => ethReg (p / 2 * 2) + 12288 + 8 * j) j) 0 2 = k ∧ f.vid = some (s.rf ((fun (j : Nat) => ethReg (p / 2 * 2) + 12288 + 8 * j) j) 16 12)) j)) :=
  ⟨⟨(0 : Nat), (0 : Nat), (0 : Nat), (id ([]) : Frame), (s0 : State), (by decide +kernel)⟩,
   ⟨(0 : Nat), (0 : Nat), (29 : Nat), (0 : Nat), (id ([0x01#8, 0x01#8, 0x01#8, 0x01#8, 0x01#8, 0x01#8, 0x01#8, 0x01#8, 0x01#8, 0x01#8, 0x01#8, 0x01#8, 0x81#8, 0x00#8, 0x20#8, 0x06#8, 0x08#8, 0x01#8, 0x01#8, 0x02#8, 0x03#8, 0x04#8]) : Frame), (et 0 [(0x40, 0x80000800), (0x3000, 0xA0060000), (0x3004, 3)] : State), (by decide +kernel), (by decide +kernel), (by intro j d h; omega)⟩⟩

theorem witness14 :
    (∃ (p : Nat) (k : Nat) (f : Frame) (s : State), s.frerEntry p k 29 f = none) ∧
    (∃ (p : Nat) (k : Nat) (f : Frame) (s : State) (i : Nat), s.frerEntry p k 29 f = some i ∧ f.rtag = none) ∧
    (∃ (p : Nat) (k : Nat) (f : Frame) (s : State) (i : Nat) (q : Nat) (x : Frer) (pass : Bool) (bad : Bool), s.frerEntry p k 29 f = some i ∧ f.rtag = some q ∧ (mget { next := 0, last := none, hist := 0 : Frer } (s.eth (p / 2 * 2)).frer i).recover (s.rf (ethReg (p / 2 * 2) + 12288 + 8 * i + 4) 0 5 + 1) q = (x, pass, bad)) :=
  ⟨⟨(0 : Nat), (0 : Nat), (id ([]) : Frame), (s0 : State), (by decide +kernel)⟩,
   ⟨(0 : Nat), (0 : Nat), (id ([0x01#8, 0x01#8, 0x01#8, 0x01#8, 0x01#8, 0x01#8, 0x01#8, 0x01#8, 0x01#8, 0x01#8, 0x01#8, 0x01#8, 0x81#8, 0x00#8, 0x20#8, 0x06#8, 0x08#8, 0x01#8, 0x01#8, 0x02#8, 0x03#8, 0x04#8]) : Frame), (et 0 [(0x40, 0x80000800), (0x3000, 0xA0060000), (0x3004, 3)] : State), _, someGet _ (by decide +kernel), (by decide +kernel)⟩,
   ⟨(0 : Nat), (0 : Nat), (id ([0x01#8, 0x01#8, 0x01#8, 0x01#8, 0x01#8, 0x01#8, 0x01#8, 0x01#8, 0x01#8, 0x01#8, 0x01#8, 0x01#8, 0x81#8, 0x00#8, 0x20#8, 0x06#8, 0xf1#8, 0xc1#8, 0x00#8, 0x00#8, 0x00#8, 0x07#8, 0x08#8, 0x00#8, 0x03#8, 0x04#8]) : Frame), (et 0 [(0x40, 0x80000800), (0x3000, 0xA0060000), (0x3004, 3)] : State), _, _, _, _, _, someGet _ (by decide +kernel), someGet _ (by decide +kernel), pairEta3 _⟩⟩

theorem witness15 :
    (∃ (x : Frer), x.last = none) ∧
    (∃ (x : Frer) (hist : Nat) (q : Nat) (l : Nat), x.last = some l ∧ ((↑hist : Int) ≤ sx 16 (q + 65536 - l) ∨ sx 16 (q + 65536 - l) ≤ -(↑hist : Int))) ∧
    (∃ (x : Frer) (hist : Nat) (q : Nat) (l : Nat), x.last = some l ∧ 0 < sx 16 (q + 65536 - l) ∧ sx 16 (q + 65536 - l) < (↑hist : Int)) ∧
    (∃ (x : Frer) (hist : Nat) (q : Nat) (l : Nat), x.last = some l ∧ sx 16 (q + 65536 - l) ≤ 0 ∧ -(↑hist : Int) < sx 16 (q + 65536 - l) ∧ x.hist.getLsbD (-sx 16 (q + 65536 - l)).toNat = true) ∧
    (∃ (x : Frer) (hist : Nat) (q : Nat) (l : Nat), x.last = some l ∧ sx 16 (q + 65536 - l) ≤ 0 ∧ -(↑hist : Int) < sx 16 (q + 65536 - l) ∧ x.hist.getLsbD (-sx 16 (q + 65536 - l)).toNat = false) :=
  ⟨⟨({ next := 0, last := none, hist := 0x00000000#32 } : Frer), (by decide +kernel)⟩,
   ⟨({ next := 0, last := some 5, hist := 0x00000005#32 } : Frer), (0 : Nat), (0 : Nat), _, someGet _ (by decide +kernel), (by decide +kernel)⟩,
   ⟨({ next := 0, last := some 5, hist := 0x00000005#32 } : Frer), (4 : Nat), (8 : Nat), _, someGet _ (by decide +kernel), (by decide +kernel), (by decide +kernel)⟩,
   ⟨({ next := 0, last := some 5, hist := 0x00000005#32 } : Frer), (1 : Nat), (5 : Nat), _, someGet _ (by decide +kernel), (by decide +kernel), (by decide +kernel), (by decide +kernel)⟩,
   ⟨({ next := 0, last := some 5, hist := 0x00000005#32 } : Frer), (3 : Nat), (4 : Nat), _, someGet _ (by decide +kernel), (by decide +kernel), (by decide +kernel), (by decide +kernel)⟩⟩

theorem witness16 :
    (∃ (p : Fin 4) (k : Fin 4) (s : State), (s.ethOn (↑p : Nat) = false ∨ s.running = false ∨ s.packet (12288 + 8 * (↑p : Nat) + (↑k : Nat)) = none)) ∧
    (∃ (p : Fin 4) (k : Fin 4) (s : State) (cs : List Chan), s.ethOn (↑p : Nat) = true ∧ s.running = true ∧ s.packet (12288 + 8 * (↑p : Nat) + (↑k : Nat)) = some cs ∧ (2000 < (List.flatMap (fun (x : Chan) => if BitVec.getLsbD x.v 16 = true then [BitVec.ofNat 8 (fld x.v 0 8)] else [BitVec.ofNat 8 (fld x.v 0 8), BitVec.ofNat 8 (fld x.v 8 8)]) cs).length)) ∧
    (∃ (p : Fin 4) (k : Fin 4) (s : State) (cs : List Chan), s.ethOn (↑p : Nat) = true ∧ s.running = true ∧ s.packet (12288 + 8 * (↑p : Nat) + (↑k : Nat)) = some cs ∧ ((List.flatMap (fun (x : Chan) => if BitVec.getLsbD x.v 16 = true then [BitVec.ofNat 8 (fld x.v 0 8)] else [BitVec.ofNat 8 (fld x.v 0 8), BitVec.ofNat 8 (fld x.v 8 8)]) cs).length ≤ 2000) ∧ (s.gateOpen (↑p : Nat) (s.rf (ethReg (↑p : Nat) + 80 + 4 * (↑k : Nat)) 0 3) (max 60 (List.flatMap (fun (x : Chan) => if BitVec.getLsbD x.v 16 = true then [BitVec.ofNat 8 (fld x.v 0 8)] else [BitVec.ofNat 8 (fld x.v 0 8), BitVec.ofNat 8 (fld x.v 8 8)]) cs).length) = false)) ∧
    (∃ (p : Fin 4) (k : Fin 4) (s : State) (cs : List Chan), s.ethOn (↑p : Nat) = true ∧ s.running = true ∧ s.packet (12288 + 8 * (↑p : Nat) + (↑k : Nat)) = some cs ∧ ((List.flatMap (fun (x : Chan) => if BitVec.getLsbD x.v 16 = true then [BitVec.ofNat 8 (fld x.v 0 8)] else [BitVec.ofNat 8 (fld x.v 0 8), BitVec.ofNat 8 (fld x.v 8 8)]) cs).length ≤ 2000) ∧ (s.gateOpen (↑p : Nat) (s.rf (ethReg (↑p : Nat) + 80 + 4 * (↑k : Nat)) 0 3) (max 60 (List.flatMap (fun (x : Chan) => if BitVec.getLsbD x.v 16 = true then [BitVec.ofNat 8 (fld x.v 0 8)] else [BitVec.ofNat 8 (fld x.v 0 8), BitVec.ofNat 8 (fld x.v 8 8)]) cs).length) = true) ∧ ((if (↑p : Nat) % 2 = 0 then s.frerEntry (↑p : Nat) (↑k : Nat) 30 (List.flatMap (fun (x : Chan) => if BitVec.getLsbD x.v 16 = true then [BitVec.ofNat 8 (fld x.v 0 8)] else [BitVec.ofNat 8 (fld x.v 0 8), BitVec.ofNat 8 (fld x.v 8 8)]) cs) else none) = none)) ∧
    (∃ (p : Fin 4) (k : Fin 4) (s : State) (cs : List Chan) (i : Nat), s.ethOn (↑p : Nat) = true ∧ s.running = true ∧ s.packet (12288 + 8 * (↑p : Nat) + (↑k : Nat)) = some cs ∧ ((List.flatMap (fun (x : Chan) => if BitVec.getLsbD x.v 16 = true then [BitVec.ofNat 8 (fld x.v 0 8)] else [BitVec.ofNat 8 (fld x.v 0 8), BitVec.ofNat 8 (fld x.v 8 8)]) cs).length ≤ 2000) ∧ (s.gateOpen (↑p : Nat) (s.rf (ethReg (↑p : Nat) + 80 + 4 * (↑k : Nat)) 0 3) (max 60 (List.flatMap (fun (x : Chan) => if BitVec.getLsbD x.v 16 = true then [BitVec.ofNat 8 (fld x.v 0 8)] else [BitVec.ofNat 8 (fld x.v 0 8), BitVec.ofNat 8 (fld x.v 8 8)]) cs).length) = true) ∧ ((if (↑p : Nat) % 2 = 0 then s.frerEntry (↑p : Nat) (↑k : Nat) 30 (List.flatMap (fun (x : Chan) => if BitVec.getLsbD x.v 16 = true then [BitVec.ofNat 8 (fld x.v 0 8)] else [BitVec.ofNat 8 (fld x.v 0 8), BitVec.ofNat 8 (fld x.v 8 8)]) cs) else none) = some i)) :=
  ⟨⟨(0 : Fin 4), (0 : Fin 4), (s0 : State), (by decide +kernel)⟩,
   ⟨(0 : Fin 4), (0 : Fin 4), (et 0 [] {} (pk 0x30 (List.replicate 1000 5 ++ [99])) 0x30000000 : State), _, (by decide +kernel), (by decide +kernel), someGet _ (by decide +kernel), (by decide +kernel)⟩,
   ⟨(0 : Fin 4), (0 : Fin 4), (et 0 [(0x200, 1)] { oper := some { base := 0, cycle := 1000, entries := [(0, 1000)] } } (pk 0x30 [5, 99]) 0x30000000 : State), _, (by decide +kernel), (by decide +kernel), someGet _ (by decide +kernel), (by decide +kernel), (by decide +kernel)⟩,
   ⟨(0 : Fin 4), (0 : Fin 4), (et 0x10 [(0x100, 0xC0100800), (0x104, 0x04020604)] { tap := [tf0] } (pk 0x30 [5, 99]) 0x30200000 [(tdmBase + 8, 0x10000000#32)] : State), _, (by decide +kernel), (by decide +kernel), someGet _ (by decide +kernel), (by decide +kernel), (by decide +kernel), (by decide +kernel)⟩,
   ⟨(0 : Fin 4), (0 : Fin 4), (et 0 [(0x3000, 0xC0060000)] {} (frameSamples fr3) 0x30000000 : State), _, _, (by decide +kernel), (by decide +kernel), someGet _ (by decide +kernel), (by decide +kernel), (by decide +kernel), someGet _ (by decide +kernel)⟩⟩

namespace C17
def eg (g : GateList) : State := et 0 [(0x200, 1)] { oper := some g }

theorem witness17 :
    (∃ (p : Nat) (s : State), s.rb (ethReg p + 512) 0 = false) ∧
    (∃ (p : Nat) (s : State), (s.eth p).oper = none) ∧
    (∃ (p : Nat) (s : State) (g : GateList), s.rb (ethReg p + 512) 0 = true ∧ (s.eth p).oper = some g ∧ s.now < g.base) ∧
    (∃ (p : Nat) (c : Nat) (s : State) (left : Nat) (g : GateList) (mask : BitVec 8), s.rb (ethReg p + 512) 0 = true ∧ (s.eth p).oper = some g ∧ g.base ≤ s.now ∧ g.at_ s.now = some (mask, left) ∧ mask.getLsbD c = false) ∧
    (∃ (p : Nat) (c : Nat) (n : Nat) (s : State) (left : Nat) (g : GateList) (mask : BitVec 8), s.rb (ethReg p + 512) 0 = true ∧ (s.eth p).oper = some g ∧ g.at_ s.now = some (mask, left) ∧ mask.getLsbD c = true ∧ (n + 24) * s.bytePs p / 1000 ≤ left) ∧
    (∃ (m : Nat) (g : GateList) (mask : BitVec 8) (pre : List (BitVec 8 × Nat)) (post : List (BitVec 8 × Nat)) (s : State), g.entries = pre ++ (mask, m) :: post ∧ ((List.map (fun (x : BitVec 8 × Nat) => x.snd) pre).sum ≤ (s.now - g.base) % max 1 g.cycle) ∧ post ≠ [] ∧ ((s.now - g.base) % max 1 g.cycle < (List.map (fun (x : BitVec 8 × Nat) => x.snd) pre).sum + m)) ∧
    (∃ (m : Nat) (g : GateList) (mask : BitVec 8) (pre : List (BitVec 8 × Nat)) (s : State), g.entries = pre ++ [(mask, m)] ∧ ((List.map (fun (x : BitVec 8 × Nat) => x.snd) pre).sum ≤ (s.now - g.base) % max 1 g.cycle)) :=
  ⟨⟨(0 : Nat), (s0 : State), (by decide +kernel)⟩,
   ⟨(0 : Nat), (s0 : State), (by decide +kernel)⟩,
   ⟨(0 : Nat), (eg { base := 500, cycle := 9, entries := [(3, 9)] } : State), _, (by decide +kernel), someGet _ (by decide +kernel), (by decide +kernel)⟩,
   ⟨(0 : Nat), (0 : Nat), (eg { base := 50, cycle := 90, entries := [(3, 40), (4, 20), (7, 3)] } : State), (10 : Nat), _, _, (by decide +kernel), someGet _ (by decide +kernel), (by decide +kernel), someGetFst _ (by decide +kernel) (by decide +kernel), (by decide +kernel)⟩,
   ⟨(0 : Nat), (0 : Nat), (0 : Nat), (et 0 [(0x200, 1)] { oper := some { base := 0, cycle := 1000000, entries := [(0xFF, 1000000)] } } : State), (999900 : Nat), _, _, (by decide +kernel), someGet _ (by decide +kernel), someGetFst _ (by decide +kernel) (by decide +kernel), (by decide +kernel), (by decide +kernel)⟩,
   ⟨(20 : Nat), ({ base := 50, cycle := 90, entries := [(0x03#8, 40), (0x04#8, 20), (0x07#8, 3)] } : GateList), (0x04#8 : BitVec 8), ([(0x03#8, 40)] : List (BitVec 8 × Nat)), ([(0x07#8, 3)] : List (BitVec 8 × Nat)), (eg { base := 50, cycle := 90, entries := [(3, 60), (4, 20)] } : State), (by decide +kernel), (by decide +kernel), (by decide +kernel), (by decide +kernel)⟩,
   ⟨(60 : Nat), ({ base := 50, cycle := 90, entries := [(0x03#8, 60)] } : GateList), (0x03#8 : BitVec 8), ([] : List (BitVec 8 × Nat)), (s0 : State), (by decide +kernel), (by decide +kernel)⟩⟩

end C17

end FramesAreReceivedTappedAndSent

/-! Witnesses of `Obligations.ReceiversAndPortsAreEnabledAndSwitched`. -/
namespace ReceiversAndPortsAreEnabledAndSwitched

def ee (c : Nat) (l : List (Nat × Nat)) (x : EthPort := {}) : State := { regs := l.map (fun e => (ethReg 0 + e.1, BitVec.ofNat 32 e.2)) ++ [(ethReg 0, BitVec.ofNat 32 c), (bootBase, 7#32), (ethReg 0 + 0xC, 0xFFF0000#32)], eths := [(0, x)], now := 100 }

theorem witness0 :
    (∃ (i : Fin 16) (s : State), s.dead = false ∧ s.rb (cxpReg (↑i : Nat)) 0 = true) ∧
    (∃ (i : Fin 16) (v : Word32) (s : State), s.dead = false ∧ s.rb (cxpReg (↑i : Nat)) 0 = false ∧ (s.writeFields (cxpReg (↑i : Nat)) { rw := 134158448#32, rwl := 59136#32, w1c := 0, en := cxpReg (↑i : Nat), enBit := 0 : RegSpec } (setBit v 0 true)).cxpCheck (↑i : Nat) = []) ∧
    (∃ (i : Fin 16) (v : Word32) (s : State) (c : Nat), s.dead = false ∧ s.rb (cxpReg (↑i : Nat)) 0 = false ∧ c ∈ (s.writeFields (cxpReg (↑i : Nat)) { rw := 134158448#32, rwl := 59136#32, w1c := 0, en := cxpReg (↑i : Nat), enBit := 0 : RegSpec } (setBit v 0 true)).cxpCheck (↑i : Nat) ∧ (∀ (d : Nat), d ∈ (s.writeFields (cxpReg (↑i : Nat)) { rw := 134158448#32, rwl := 59136#32, w1c := 0, en := cxpReg (↑i : Nat), enBit := 0 : RegSpec } (setBit v 0 true)).cxpCheck (↑i : Nat) → c ≤ d)) :=
  ⟨⟨(2 : Fin 16), ({ regs := [(cxpReg 2, 1#32)] } : State), (by decide +kernel), (by decide +kernel)⟩,
   ⟨(0 : Fin 16), (0x00000000#32 : Word32), (s0 : State), (by decide +kernel), (by decide +kernel), (by decide +kernel)⟩,
   ⟨(0 : Fin 16), (0x00000300#32 : Word32), (s0 : State), (2082 : Nat), (by decide +kernel), (by decide +kernel), (by decide +kernel), (by decide +kernel)⟩⟩

theorem witness1 :
    (∃ (i : Nat) (s : State) (c : Nat), c ∈ s.cxpCheck i) :=
  ⟨(2 : Nat), ({ regs := [(cxpReg 2, 0x370#32)] } : State), (2080 : Nat), (by decide +kernel)⟩

theorem witness2 :
    (∃ (i : Fin 16) (s : State) (up : Bool), s.dead = false ∧ s.rb (cxpReg (↑i : Nat) + 8) 0 = up) ∧
    (∃ (i : Fin 16) (up : Bool) (s : State), s.dead = false ∧ s.rb (cxpReg (↑i : Nat) + 8) 0 ≠ up) :=
  ⟨⟨(0 : Fin 16), (s0 : State), _, (by decide +kernel), rfl⟩,
   ⟨(0 : Fin 16), (true : Bool), (s0 : State), (by decide +kernel), (by decide +kernel)⟩⟩

theorem witness3 :
    (∃ (p : Fin 4) (s : State), s.rb (ethReg (↑p : Nat)) 0 = true) ∧
    (∃ (p : Fin 4) (v : Word32) (s : State), s.rb (ethReg (↑p : Nat)) 0 = false ∧ (s.writeFields (ethReg (↑p : Nat)) { rw := 3584#32, rwl := 28926#32, w1c := 0, en := ethReg (↑p : Nat), enBit := 0 : RegSpec } (setBit v 0 true)).ethCheck (↑p : Nat) = []) ∧
    (∃ (p : Fin 4) (v : Word32) (s : State) (c : Nat), s.rb (ethReg (↑p : Nat)) 0 = false ∧ c ∈ (s.writeFields (ethReg (↑p : Nat)) { rw := 3584#32, rwl := 28926#32, w1c := 0, en := ethReg (↑p : Nat), enBit := 0 : RegSpec } (setBit v 0 true)).ethCheck (↑p : Nat) ∧ (∀ (d : Nat), d ∈ (s.writeFields (ethReg (↑p : Nat)) { rw := 3584#32, rwl := 28926#32, w1c := 0, en := ethReg (↑p : Nat), enBit := 0 : RegSpec } (setBit v 0 true)).ethCheck (↑p : Nat) → c ≤ d)) :=
  ⟨⟨(0 : Fin 4), (ee 0x4007 [] : State), (by decide +kernel)⟩,
   ⟨(0 : Fin 4), (0x00000000#32 : Word32), (s0 : State), (by decide +kernel), (by decide +kernel)⟩,
   ⟨(0 : Fin 4), (0x00000075#32 : Word32), (s0 : State), (2064 : Nat), (by decide +kernel), (by decide +kernel), (by decide +kernel)⟩⟩

theorem witness4 :
    (∃ (p : Nat) (s : State) (c : Nat), c ∈ s.ethCheck p) :=
  ⟨(1 : Nat), ({ regs := [(ethReg 1, 0x3078#32)] } : State), (2064 : Nat), (by decide +kernel)⟩

theorem witness5 :
    (∃ (p : Fin 4) (s : State) (up : Bool), s.rb (ethReg (↑p : Nat) + 8) 0 = up) ∧
    (∃ (p : Fin 4) (up : Bool) (s : State), s.rb (ethReg (↑p : Nat) + 8) 0 ≠ up) :=
  ⟨⟨(0 : Fin 4), (s0 : State), _, rfl⟩,
   ⟨(0 : Fin 4), (true : Bool), (s0 : State), (by decide +kernel)⟩⟩

theorem witness6 :
    (∃ (p : Fin 4) (s : State), (¬(s.ethOn (↑p : Nat) = true ∧ s.rf (ethReg (↑p : Nat)) 1 3 = 3 ∧ s.rb (ethReg (↑p : Nat)) 14 = true))) ∧
    (∃ (p : Fin 4) (x : BitVec 16) (s : State), (s.ethOn (↑p : Nat) = true ∧ s.rf (ethReg (↑p : Nat)) 1 3 = 3 ∧ s.rb (ethReg (↑p : Nat)) 14 = true) ∧ ({ (if fld x 10 2 = 3 then s.setRb (ethReg (↑p : Nat) + 8) 0 (bit x 15 && bit x 12) else (s.setRb (ethReg (↑p : Nat) + 8) 0 (bit x 15 && bit x 12)).setRf (ethReg (↑p : Nat) + 8) 2 2 (2 - fld x 10 2)) with out := s.out ++ [OutMsg.sgmiiAck (↑p : Nat) x] }.rg (ethReg (↑p : Nat) + 8) = s.rg (ethReg (↑p : Nat) + 8))) ∧
    (∃ (p : Fin 4) (x : BitVec 16) (s : State), (s.ethOn (↑p : Nat) = true ∧ s.rf (ethReg (↑p : Nat)) 1 3 = 3 ∧ s.rb (ethReg (↑p : Nat)) 14 = true) ∧ ({ (if fld x 10 2 = 3 then s.setRb (ethReg (↑p : Nat) + 8) 0 (bit x 15 && bit x 12) else (s.setRb (ethReg (↑p : Nat) + 8) 0 (bit x 15 && bit x 12)).setRf (ethReg (↑p : Nat) + 8) 2 2 (2 - fld x 10 2)) with out := s.out ++ [OutMsg.sgmiiAck (↑p : Nat) x] }.rg (ethReg (↑p : Nat) + 8) ≠ s.rg (ethReg (↑p : Nat) + 8))) :=
  ⟨⟨(1 : Fin 4), (s0 : State), (by decide +kernel)⟩,
   ⟨(1 : Fin 4), (0x0c00#16 : BitVec 16), ({ regs := [(ethReg 1, 0x4007#32)] } : State), (by decide +kernel), (by decide +kernel)⟩,
   ⟨(1 : Fin 4), (0x0000#16 : BitVec 16), ({ regs := [(ethReg 1, 0x4007#32)] } : State), (by decide +kernel), (by decide +kernel)⟩⟩

theorem witness7 :
    (∃ (p : Fin 4) (s : State), (s.ethOn (↑p : Nat) = true ∧ s.running = true ∧ s.rf (ethReg (↑p : Nat)) 5 2 = 2 ∧ ∀ (t : Nat), (s.eth (↑p : Nat)).synced = some t → s.now < t ∨ t + 1000000000 / 2 ^ s.rf (ethReg (↑p : Nat)) 9 3 ≤ s.now)) ∧
    (∃ (p : Fin 4) (s : State), (¬(s.ethOn (↑p : Nat) = true ∧ s.running = true ∧ s.rf (ethReg (↑p : Nat)) 5 2 = 2 ∧ ∀ (t : Nat), (s.eth (↑p : Nat)).synced = some t → s.now < t ∨ t + 1000000000 / 2 ^ s.rf (ethReg (↑p : Nat)) 9 3 ≤ s.now))) :=
  ⟨⟨(0 : Fin 4), (ee 0x41 [] : State), (by decide +kernel)⟩,
   ⟨(0 : Fin 4), (s0 : State), (by decide +kernel)⟩⟩

theorem witness8 :
    (∃ (p : Fin 4) (s : State), (s.eth (↑p : Nat)).next ≠ none) ∧
    (∃ (p : Fin 4) (s : State), (s.eth (↑p : Nat)).next = none ∧ (s.rf (ethReg (↑p : Nat) + 512) 8 8 = 0 ∨ 128 < s.rf (ethReg (↑p : Nat) + 512) 8 8 ∨ s.rf (ethReg (↑p : Nat) + 528) 0 30 = 0 ∨ 1000000000 < s.rf (ethReg (↑p : Nat) + 528) 0 30)) ∧
    (∃ (p : Fin 4) (s : State), (s.eth (↑p : Nat)).next = none ∧ (¬(s.rf (ethReg (↑p : Nat) + 512) 8 8 = 0 ∨ 128 < s.rf (ethReg (↑p : Nat) + 512) 8 8 ∨ s.rf (ethReg (↑p : Nat) + 528) 0 30 = 0 ∨ 1000000000 < s.rf (ethReg (↑p : Nat) + 528) 0 30))) :=
  ⟨⟨(0 : Fin 4), (ee 1 [] { next := some { base := 50, cycle := 9 } } : State), (by decide +kernel)⟩,
   ⟨(0 : Fin 4), (s0 : State), (by decide +kernel), (by decide +kernel)⟩,
   ⟨(0 : Fin 4), (ee 0x1 [(0x200, 0x300), (0x210, 1000), (0x208, 50)] : State), (by decide +kernel), (by decide +kernel)⟩⟩

theorem witness9 :
    (∃ (p : Fin 4) (s : State), (∀ (g : GateList), (s.eth (↑p : Nat)).next = some g → s.now < g.base)) ∧
    (∃ (p : Fin 4) (s : State) (g : GateList), (s.eth (↑p : Nat)).next = some g ∧ g.base ≤ s.now) :=
  ⟨⟨(0 : Fin 4), (s0 : State), (by decide +kernel)⟩,
   ⟨(0 : Fin 4), (ee 1 [] { next := some { base := 50, cycle := 9 } } : State), _, someGet _ (by decide +kernel), (by decide +kernel)⟩⟩

end ReceiversAndPortsAreEnabledAndSwitched

/-! Witnesses of `Obligations.TheHostReachesItsWindows`. -/
namespace TheHostReachesItsWindows

def hb (r : Map Word32 := []) (h : HostLink := {}) : State := { regs := r ++ [(bootBase, 7#32)], host := h }
def hr (r : Map Word32 := []) (h : HostLink := {}) : State := { regs := r ++ [(bootBase, 8#32)], host := h }

theorem witness0 :
    (∃ (s : State), s.booted = false ∧ s.rescue = false) :=
  ⟨(s0 : State), (by decide +kernel), (by decide +kernel)⟩

theorem witness1 :
    (∃ (s : State), s.booted = false ∧ s.rescue = false) ∧
    (∃ (o : Nat) (s : State), s.rescue = false ∧ s.booted = true ∧ o < 16777216) ∧
    (∃ (o : Nat) (s : State), s.rescue = false ∧ s.booted = true ∧ o < 32768) ∧
    (∃ (o : Nat) (s : State), s.rescue = false ∧ s.booted = true ∧ o < 256) ∧
    (∃ (o : Nat) (s : State), s.rescue = false ∧ s.booted = true ∧ 16810240 ≤ o) ∧
    (∃ (o : Nat) (s : State), s.rescue = false ∧ s.booted = true ∧ o < 2 ^ 38) ∧
    (∃ (o : Nat) (s : State), s.rescue = false ∧ s.booted = true ∧ 2 ^ 38 ≤ o) ∧
    (∃ (o : Nat) (s : State), s.rescue = false ∧ s.booted = true ∧ o < 67108864) ∧
    (∃ (o : Nat) (s : State), s.rescue = false ∧ s.booted = true ∧ o < 8388608) ∧
    (∃ (o : Nat) (s : State), s.rescue = false ∧ s.booted = true ∧ 75497472 ≤ o) ∧
    (∃ (o : Nat) (s : State), s.rescue = true ∧ o < 4096) ∧
    (∃ (o : Nat) (s : State), s.rescue = true ∧ o < 32) ∧
    (∃ (o : Nat) (s : State), s.rescue = true ∧ o < 262144) ∧
    (∃ (o : Nat) (s : State), s.rescue = true ∧ o < 8388608) ∧
    (∃ (o : Nat) (s : State), s.rescue = true ∧ (4128 ≤ o ∧ o < 262144 ∨ 524288 ≤ o ∧ o < 8388608 ∨ 16777216 ≤ o)) ∧
    (∃ (bar : Fin 3) (s : State), s.rescue = true ∧ bar ≠ 0) :=
  ⟨⟨(s0 : State), (by decide +kernel), (by decide +kernel)⟩,
   ⟨(0 : Nat), (hb : State), (by decide +kernel), (by decide +kernel), (by decide +kernel)⟩,
   ⟨(0 : Nat), (hb : State), (by decide +kernel), (by decide +kernel), (by decide +kernel)⟩,
   ⟨(0 : Nat), (hb : State), (by decide +kernel), (by decide +kernel), (by decide +kernel)⟩,
   ⟨(16810240 : Nat), (hb : State), (by decide +kernel), (by decide +kernel), (by decide +kernel)⟩,
   ⟨(0 : Nat), (hb : State), (by decide +kernel), (by decide +kernel), (by decide +kernel)⟩,
   ⟨(274877906944 : Nat), (hb : State), (by decide +kernel), (by decide +kernel), (by decide +kernel)⟩,
   ⟨(0 : Nat), (hb : State), (by decide +kernel), (by decide +kernel), (by decide +kernel)⟩,
   ⟨(0 : Nat), (hb : State), (by decide +kernel), (by decide +kernel), (by decide +kernel)⟩,
   ⟨(274877906944 : Nat), (hb : State), (by decide +kernel), (by decide +kernel), (by decide +kernel)⟩,
   ⟨(0 : Nat), (hr : State), (by decide +kernel), (by decide +kernel)⟩,
   ⟨(0 : Nat), (hr : State), (by decide +kernel), (by decide +kernel)⟩,
   ⟨(0 : Nat), (hr : State), (by decide +kernel), (by decide +kernel)⟩,
   ⟨(0 : Nat), (hr : State), (by decide +kernel), (by decide +kernel)⟩,
   ⟨(4128 : Nat), (hr : State), (by decide +kernel), (by decide +kernel)⟩,
   ⟨(1 : Fin 3), (hr : State), (by decide +kernel), (by decide +kernel)⟩⟩

namespace C4
def hrt : Map Word32 := rt [(masterRouter .host, 0), (masterRouter .host, 64), (masterRouter .host, 72), (masterRouter .host, 73), (masterRouter .host, 74), (masterRouter .host, 75)]

theorem witness4 :
    (∃ (bar : Fin 3) (off : Addr) (s : State), (s.booted = true ∨ s.rescue = true) ∧ s.reaches bar (BitVec.toNat off) = none) ∧
    (∃ (bar : Fin 3) (off : Addr) (s : State) (k : Nat), (s.booted = true ∨ s.rescue = true) ∧ (s.reaches bar (BitVec.toNat off) = some (Window.regs k true) ∨ s.reaches bar (BitVec.toNat off) = some (Window.range k true))) ∧
    (∃ (bar : Fin 3) (off : Addr) (l : List (Option (BitVec 8))) (s : State) (k : Nat), (s.booted = true ∨ s.rescue = true) ∧ s.reaches bar (BitVec.toNat off) = some (Window.regs k false) ∧ (¬(fun (k : Nat) => regSizeOk k l.length = true ∧ (l.any fun (x : Option (BitVec 8)) => x.isNone) = false) k)) ∧
    (∃ (bar : Fin 3) (off : Addr) (l : List (Option (BitVec 8))) (ep : Bool) (s : State) (k : Nat) (u : State) (st : Nat), (s.booted = true ∨ s.rescue = true) ∧ s.reaches bar (BitVec.toNat off) = some (Window.regs k false) ∧ (regSizeOk k l.length = true ∧ (l.any fun (x : Option (BitVec 8)) => x.isNone) = false) ∧ ((if ep = true then (s.setRg (pciBase + 12) (satInc32 (s.rg (pciBase + 12)))).pciEvent 2 else s).regWrite Master.host k l.length (bytesNat (List.map (fun (x : Option (BitVec 8)) => x.getD 0) l)) ep = (u, st)) ∧ st = 0) ∧
    (∃ (bar : Fin 3) (off : Addr) (l : List (Option (BitVec 8))) (ep : Bool) (s : State) (k : Nat) (u : State) (st : Nat), (s.booted = true ∨ s.rescue = true) ∧ s.reaches bar (BitVec.toNat off) = some (Window.regs k false) ∧ (regSizeOk k l.length = true ∧ (l.any fun (x : Option (BitVec 8)) => x.isNone) = false) ∧ ((if ep = true then (s.setRg (pciBase + 12) (satInc32 (s.rg (pciBase + 12)))).pciEvent 2 else s).regWrite Master.host k l.length (bytesNat (List.map (fun (x : Option (BitVec 8)) => x.getD 0) l)) ep = (u, st)) ∧ st ≠ 0) ∧
    (∃ (bar : Fin 3) (off : Addr) (l : List (Option (BitVec 8))) (ep : Bool) (s : State) (a : Nat), (s.booted = true ∨ s.rescue = true) ∧ s.reaches bar (BitVec.toNat off) = some (Window.range a false) ∧ ((if ep = true then (s.setRg (pciBase + 12) (satInc32 (s.rg (pciBase + 12)))).pciEvent 2 else s).dumpGuards a l.length = true)) ∧
    (∃ (bar : Fin 3) (off : Addr) (l : List (Option (BitVec 8))) (ep : Bool) (s : State) (a : Nat) (u : State) (st : Nat) (n : Nat), (s.booted = true ∨ s.rescue = true) ∧ s.reaches bar (BitVec.toNat off) = some (Window.range a false) ∧ ((if ep = true then (s.setRg (pciBase + 12) (satInc32 (s.rg (pciBase + 12)))).pciEvent 2 else s).dumpGuards a l.length = false) ∧ ((if ep = true then (s.setRg (pciBase + 12) (satInc32 (s.rg (pciBase + 12)))).pciEvent 2 else s).bytesPut Master.host a l ep = (u, st, n)) ∧ st = 0) ∧
    (∃ (bar : Fin 3) (off : Addr) (l : List (Option (BitVec 8))) (ep : Bool) (s : State) (a : Nat) (u : State) (st : Nat) (n : Nat), (s.booted = true ∨ s.rescue = true) ∧ s.reaches bar (BitVec.toNat off) = some (Window.range a false) ∧ ((if ep = true then (s.setRg (pciBase + 12) (satInc32 (s.rg (pciBase + 12)))).pciEvent 2 else s).dumpGuards a l.length = false) ∧ ((if ep = true then (s.setRg (pciBase + 12) (satInc32 (s.rg (pciBase + 12)))).pciEvent 2 else s).bytesPut Master.host a l ep = (u, st, n)) ∧ st ≠ 0) ∧
    (∃ (bar : Fin 3) (off : Addr) (ep : Bool) (s : State) (k : Nat), (s.booted = true ∨ s.rescue = true) ∧ (s.reaches bar (BitVec.toNat off) = some (Window.table k) ∨ s.reaches bar (BitVec.toNat off) = some (Window.pba k) ∨ s.reaches bar (BitVec.toNat off) = some (Window.mailbox k) ∨ s.reaches bar (BitVec.toNat off) = some (Window.buffer k)) ∧ ep = true) ∧
    (∃ (bar : Fin 3) (off : Addr) (ep : Bool) (s : State) (k : Nat), (s.booted = true ∨ s.rescue = true) ∧ s.reaches bar (BitVec.toNat off) = some (Window.table k) ∧ ep = false) ∧
    (∃ (bar : Fin 3) (off : Addr) (ep : Bool) (s : State) (k : Nat), (s.booted = true ∨ s.rescue = true) ∧ s.reaches bar (BitVec.toNat off) = some (Window.pba k) ∧ ep = false) ∧
    (∃ (bar : Fin 3) (off : Addr) (ep : Bool) (s : State) (k : Nat), (s.booted = true ∨ s.rescue = true) ∧ s.reaches bar (BitVec.toNat off) = some (Window.mailbox k) ∧ ep = false ∧ k = 12) ∧
    (∃ (bar : Fin 3) (off : Addr) (ep : Bool) (s : State) (k : Nat), (s.booted = true ∨ s.rescue = true) ∧ s.reaches bar (BitVec.toNat off) = some (Window.mailbox k) ∧ ep = false ∧ k ≠ 12) ∧
    (∃ (bar : Fin 3) (off : Addr) (l : List (Option (BitVec 8))) (ep : Bool) (s : State) (k : Nat) (i : Nat) (x : BitVec 8), (s.booted = true ∨ s.rescue = true) ∧ s.reaches bar (BitVec.toNat off) = some (Window.buffer k) ∧ ep = false ∧ l[i]? = some (some x)) ∧
    (∃ (bar : Fin 3) (off : Addr) (l : List (Option (BitVec 8))) (ep : Bool) (s : State) (k : Nat) (j : Nat), (s.booted = true ∨ s.rescue = true) ∧ s.reaches bar (BitVec.toNat off) = some (Window.buffer k) ∧ ep = false ∧ (∀ (i : Nat) (x : BitVec 8), l[i]? = some (some x) → j ≠ k + i)) :=
  ⟨⟨(0 : Fin 3), (0x0001000000#40 : Addr), (hr hrt : State), (by decide +kernel), (by decide +kernel)⟩,
   ⟨(0 : Fin 3), (0x0000000000#40 : Addr), (hr hrt : State), (9437184 : Nat), (by decide +kernel), (by decide +kernel)⟩,
   ⟨(0 : Fin 3), (0x0000000000#40 : Addr), ([some 0x01#8, none, some 0x03#8, some 0x04#8] : List (Option (BitVec 8))), (hb hrt : State), (0 : Nat), (by decide +kernel), (by decide +kernel), (by decide +kernel)⟩,
   ⟨(0 : Fin 3), (0x0000000000#40 : Addr), ([some 0x01#8, some 0x02#8, some 0x03#8, some 0x04#8] : List (Option (BitVec 8))), (false : Bool), (hb hrt : State), (0 : Nat), _, _, (by decide +kernel), (by decide +kernel), (by decide +kernel), pairEta2 _, (by decide +kernel)⟩,
   ⟨(0 : Fin 3), (0x0000000000#40 : Addr), ([some 0x01#8, some 0x02#8, some 0x03#8, some 0x04#8] : List (Option (BitVec 8))), (false : Bool), (hb [(pciBase + 8, 0x140000#32), (pciBase + 0xC, 0xFFFFFFFF#32), (pciBase+0x10, 0xFFFFFFFF#32)] { pend := [(3, true), (19, true)], msixOn := true, fmask := false } : State), (0 : Nat), _, _, (by decide +kernel), (by decide +kernel), (by decide +kernel), pairEta2 _, (by decide +kernel)⟩,
   ⟨(1 : Fin 3), (0x03e0000000#40 : Addr), ([some 0x01#8, some 0x02#8, some 0x03#8, some 0x04#8] : List (Option (BitVec 8))), (false : Bool), ({ regs := [(bootBase, 7#32), (0xB00044, 0x20000000#32), (dramBase 0, 1#32), (dramBase 0 + 0x20, 1#32)], drams := [(0, { st := .run })] } : State), (16642998272 : Nat), (by decide +kernel), (by decide +kernel), (by decide +kernel)⟩,
   ⟨(1 : Fin 3), (0x0000000000#40 : Addr), ([some 0x01#8, some 0x02#8, some 0x03#8, some 0x04#8] : List (Option (BitVec 8))), (false : Bool), ({ regs := regsOf [(bootBase, 7#32), (dramBase 0, 1#32)] hrt, drams := [(0, { st := .run, filled := true })] } : State), (0 : Nat), _, _, _, (by decide +kernel), (by decide +kernel), (by decide +kernel), pairEta3 _, (by decide +kernel)⟩,
   ⟨(1 : Fin 3), (0x0000000000#40 : Addr), ([some 0x01#8, some 0x02#8, some 0x03#8, some 0x04#8] : List (Option (BitVec 8))), (false : Bool), (hb hrt : State), (0 : Nat), _, _, _, (by decide +kernel), (by decide +kernel), (by decide +kernel), pairEta3 _, (by decide +kernel)⟩,
   ⟨(0 : Fin 3), (0x0001000000#40 : Addr), _, (hb hrt : State), (0 : Nat), (by decide +kernel), (by decide +kernel), rfl⟩,
   ⟨(0 : Fin 3), (0x0001000000#40 : Addr), _, (hb hrt : State), (0 : Nat), (by decide +kernel), (by decide +kernel), rfl⟩,
   ⟨(0 : Fin 3), (0x0001008000#40 : Addr), _, (hb hrt : State), (0 : Nat), (by decide +kernel), (by decide +kernel), rfl⟩,
   ⟨(0 : Fin 3), (0x000000100c#40 : Addr), _, (hr hrt : State), _, (by decide +kernel), (by decide +kernel), rfl, rfl⟩,
   ⟨(0 : Fin 3), (0x0000001010#40 : Addr), _, (hr hrt : State), (16 : Nat), (by decide +kernel), (by decide +kernel), rfl, (by decide +kernel)⟩,
   ⟨(0 : Fin 3), (0x0000040000#40 : Addr), ([some 0x01#8, some 0x02#8, some 0x03#8, some 0x04#8] : List (Option (BitVec 8))), _, (hr hrt : State), (0 : Nat), (0 : Nat), (((([some 0x01#8, some 0x02#8, some 0x03#8, some 0x04#8] : List (Option (BitVec 8))))[((0 : Nat))]?).get (by all_goals decide +kernel)).get (by all_goals decide +kernel), (by decide +kernel), (by decide +kernel), rfl, (by decide +kernel)⟩,
   ⟨(0 : Fin 3), (0x0000040000#40 : Addr), ([some 0x01#8, some 0x02#8, some 0x03#8, some 0x04#8] : List (Option (BitVec 8))), _, (hr hrt : State), (0 : Nat), (4 : Nat), (by decide +kernel), (by decide +kernel), rfl, (fun i x h => by have := (List.getElem?_eq_some_iff.mp h).1; simp at this; omega)⟩⟩

end C4

theorem witness5 :
    (∃ (o : Nat), o % 4 = 0) :=
  ⟨(0 : Nat), (by decide +kernel)⟩

theorem witness7 :
    (∃ (s : State), (s.booted = true ∨ s.rescue = true)) :=
  ⟨(hb : State), (by decide +kernel)⟩

theorem witness8 :
    (∃ (o : Nat), o = 176) ∧
    (∃ (o : Nat) (k : Nat), o ≠ 176 ∧ k ≠ o) :=
  ⟨⟨_, rfl⟩,
   ⟨(0 : Nat), (4 : Nat), (by decide +kernel), (by decide +kernel)⟩⟩

theorem witness9 :
    (∃ (e : Nat × Nat), e ∈ [(64, 1), (80, 16), (176, 17)]) ∧
    (∃ (e : Nat × Nat), e ∈ [(256, 3), (272, 1), (352, 25), (416, 37), (432, 38), (480, 42), (528, 49), (576, 39), (688, 46)]) ∧
    (∃ (s : State), s.rescue = false) ∧
    (∃ (s : State), s.rescue = true) :=
  ⟨⟨((64, 1) : Nat × Nat), (by decide +kernel)⟩,
   ⟨((256, 3) : Nat × Nat), (by decide +kernel)⟩,
   ⟨(s0 : State), (by decide +kernel)⟩,
   ⟨(hr : State), (by decide +kernel)⟩⟩

theorem witness10 :
    (∃ (s : State), s.booted = false ∧ s.rescue = false) ∧
    (∃ (s : State), (s.booted = true ∨ s.rescue = true)) :=
  ⟨⟨(s0 : State), (by decide +kernel), (by decide +kernel)⟩,
   ⟨(hb : State), (by decide +kernel)⟩⟩

namespace C11
def hrt : Map Word32 := rt [(masterRouter .host, 0), (masterRouter .host, 64)]

theorem witness11 :
    (∃ (bar : Fin 3) (off : Addr) (s : State), s.reaches bar (BitVec.toNat off) = none) ∧
    (∃ (bar : Fin 3) (off : Addr) (len : Fin 4097) (s : State) (k : Nat) (ro : Bool), s.reaches bar (BitVec.toNat off) = some (Window.regs k ro) ∧ regSizeOk k (↑len : Nat) = false) ∧
    (∃ (bar : Fin 3) (off : Addr) (len : Fin 4097) (s : State) (k : Nat) (ro : Bool) (u : State) (st : Nat) (v : Nat), s.reaches bar (BitVec.toNat off) = some (Window.regs k ro) ∧ regSizeOk k (↑len : Nat) = true ∧ s.regRead Master.host k (↑len : Nat) = (u, st, v)) ∧
    (∃ (bar : Fin 3) (off : Addr) (s : State) (k : Nat), s.reaches bar (BitVec.toNat off) = some (Window.table k)) ∧
    (∃ (bar : Fin 3) (off : Addr) (s : State) (k : Nat), s.reaches bar (BitVec.toNat off) = some (Window.mailbox k)) ∧
    (∃ (bar : Fin 3) (off : Addr) (len : Fin 4097) (s : State) (k : Nat) (i : Nat) (j : Nat), s.reaches bar (BitVec.toNat off) = some (Window.pba k) ∧ i < (↑len : Nat) ∧ j < 8) ∧
    (∃ (bar : Fin 3) (off : Addr) (s : State) (k : Nat), s.reaches bar (BitVec.toNat off) = some (Window.buffer k)) ∧
    (∃ (bar : Fin 3) (off : Addr) (s : State) (a : Nat) (ro : Bool), s.reaches bar (BitVec.toNat off) = some (Window.range a ro)) :=
  ⟨⟨(0 : Fin 3), (0x000100000c#40 : Addr), (hr hrt : State), (by decide +kernel)⟩,
   ⟨(0 : Fin 3), (0x0000000000#40 : Addr), (0 : Fin 4097), (hb hrt : State), (0 : Nat), (false : Bool), (by decide +kernel), (by decide +kernel)⟩,
   ⟨(0 : Fin 3), (0x0000000000#40 : Addr), (4 : Fin 4097), (hb hrt : State), (0 : Nat), (false : Bool), _, _, _, (by decide +kernel), (by decide +kernel), pairEta3 _⟩,
   ⟨(0 : Fin 3), (0x000100000c#40 : Addr), (hb hrt : State), (12 : Nat), (by decide +kernel)⟩,
   ⟨(0 : Fin 3), (0x0000001010#40 : Addr), (hr hrt : State), (16 : Nat), (by decide +kernel)⟩,
   ⟨(0 : Fin 3), (0x0001008000#40 : Addr), (4 : Fin 4097), (hb hrt : State), (0 : Nat), (0 : Nat), (0 : Nat), (by decide +kernel), (by decide +kernel), (by decide +kernel)⟩,
   ⟨(0 : Fin 3), (0x0000040000#40 : Addr), (hr hrt : State), (0 : Nat), (by decide +kernel)⟩,
   ⟨(1 : Fin 3), (0x0000000000#40 : Addr), (hb hrt : State), (0 : Nat), (false : Bool), (by decide +kernel)⟩⟩

end C11

namespace C12
def hrt : Map Word32 := rt [(masterRouter .host, 0), (masterRouter .host, 64)]

theorem witness12 :
    (∃ (a : Nat) (n : Nat) (s : State) (x : BytesAns) (u : State), 0 < n ∧ s.bytesGet Master.host a (min n (64 - a % 64)) = (u, x) ∧ x.status ≠ 0) ∧
    (∃ (a : Nat) (n : Nat) (s : State) (x : BytesAns) (u : State), 0 < n ∧ s.bytesGet Master.host a (min n (64 - a % 64)) = (u, x) ∧ x.status = 0) :=
  ⟨⟨(0 : Nat), (1 : Nat), (s0 : State), _, _, (by decide +kernel), pairEta2 _, (by decide +kernel)⟩,
   ⟨(0 : Nat), (1 : Nat), ({ regs := regsOf [(bootBase, 7#32), (dramBase 0, 1#32)] hrt, drams := [(0, { st := .run, filled := true })] } : State), _, _, (by decide +kernel), pairEta2 _, (by decide +kernel)⟩⟩

end C12

theorem witness16 :
    (∃ (s : State) (k : Nat), k < 16 ∧ s.rf (dmaReg k + 28) 0 3 = 2) ∧
    (∃ (s : State) (k : Nat), (¬(k < 16 ∧ (fun (k : Nat) => s.rf (dmaReg k + 28) 0 3 = 2) k))) ∧
    (∃ (o : Nat), o < 16384) ∧
    (∃ (o : Nat), msixBase ≤ o ∧ o < msixBase + 32768) ∧
    (∃ (s : State) (o : Nat), (¬(msixBase ≤ o ∧ o < msixBase + 32768)) ∧ (¬o ∈ List.flatMap (fun (k : Nat) => [dmaReg k + 4, dmaReg k + 28, dmaReg k + 32, dmaReg k + 36]) (List.filter (fun (k : Nat) => decide ((fun (k : Nat) => s.rf (dmaReg k + 28) 0 3 = 2) k)) (List.range 16)))) :=
  ⟨⟨({ hb [(msixBase + 12, 1#32), (msixBase + 60, 1#32), (pciBase, 0x541#32), (dmaReg 3 + 0x1C, 2#32), (dmaReg 3, 1#32), (dmaReg 3 + 0x24, 0x20000#32)] { pend := [(0, true), (3, true)], msixOn := true, fmask := true, jobs := [(3, some { desc := { op := 1, irq := false, stope := false, len := 64, haddr := 0, iaddr := 0 }, done := 5 })] } with mem := [⟨0x4F00, 9⟩], noc := { outstanding := [{ m := .host, tag := 1, dest := 0, addr := 0, op := 0, epoch := false, sent := 3 }, { m := .puppeteer, tag := 1, dest := 0, addr := 0, op := 0, epoch := false, sent := 3 }] } } : State), (3 : Nat), (by decide +kernel), (by decide +kernel)⟩,
   ⟨(s0 : State), (0 : Nat), (by decide +kernel)⟩,
   ⟨(0 : Nat), (by decide +kernel)⟩,
   ⟨(16777216 : Nat), (by decide +kernel), (by decide +kernel)⟩,
   ⟨(s0 : State), (0 : Nat), (by decide +kernel), (by decide +kernel)⟩⟩

end TheHostReachesItsWindows

/-! Witnesses of `Obligations.DmaDescriptorsMoveData`. -/
namespace DmaDescriptorsMoveData

def dj (j : DmaJob) (r : Map Word32 := []) (q : Queue := {}) (m : List Host.Cell := []) (tk : List Chan := []) : State := { regs := [(dmaReg 3, 1#32), (dmaReg 3 + 8, 0x12345660#32), (dmaReg 3 + 0x10, 4#32), (dmaReg 3 + 0x14, 15#32), (dmaReg 3 + 0x1C, 2#32), (bootBase, 7#32)] ++ r, host := { jobs := [(3, some j)] }, queues := [(5, q)], mem := m, codes := [(0x4000000100 / 32, { wf := 3 })], taken := [(0x4003, tk)] }
def ds (o : Nat) (i s : Bool) (l : Nat) (ia : Nat) : Desc := { op := o, irq := i, stope := s, len := l, haddr := 0x8000, iaddr := ia }
def qr (p : Bool) : Map Word32 := [(queueBase 5, 1#32), (queueBase 5 + 8, if p then 0x4003#32 else 0x40030000#32)]
def drt : Map Word32 := (memctl 0 0, 9#32) :: rt [(masterRouter (.dma 3), 0), (masterRouter (.dma 3), 64)]

theorem witness1 :
    (∃ (c : Fin 16) (s : State), s.dead = false ∧ (¬(s.rb (dmaReg (↑c : Nat)) 0 = true ∧ s.rf (dmaReg (↑c : Nat) + 20) 0 16 ≠ s.rf (dmaReg (↑c : Nat) + 24) 0 16 % 2 ^ s.rf (dmaReg (↑c : Nat) + 16) 0 5 ∧ s.rf (dmaReg (↑c : Nat) + 28) 0 3 = 1))) ∧
    (∃ (c : Fin 16) (d : Option (BitVec 256)) (s : State), s.dead = false ∧ (s.rb (dmaReg (↑c : Nat)) 0 = true ∧ s.rf (dmaReg (↑c : Nat) + 20) 0 16 ≠ s.rf (dmaReg (↑c : Nat) + 24) 0 16 % 2 ^ s.rf (dmaReg (↑c : Nat) + 16) 0 5 ∧ s.rf (dmaReg (↑c : Nat) + 28) 0 3 = 1) ∧ d = none) ∧
    (∃ (c : Fin 16) (s : State) (d : Option (BitVec 256)) (v : BitVec 256), s.dead = false ∧ (s.rb (dmaReg (↑c : Nat)) 0 = true ∧ s.rf (dmaReg (↑c : Nat) + 20) 0 16 ≠ s.rf (dmaReg (↑c : Nat) + 24) 0 16 % 2 ^ s.rf (dmaReg (↑c : Nat) + 16) 0 5 ∧ s.rf (dmaReg (↑c : Nat) + 28) 0 3 = 1) ∧ d = some v ∧ (s.setRf (dmaReg (↑c : Nat) + 28) 0 3 2).descCodes (↑c : Nat) (descOf v).fst (descOf v).snd = []) ∧
    (∃ (c : Fin 16) (s : State) (code : Nat) (d : Option (BitVec 256)) (v : BitVec 256), s.dead = false ∧ (s.rb (dmaReg (↑c : Nat)) 0 = true ∧ s.rf (dmaReg (↑c : Nat) + 20) 0 16 ≠ s.rf (dmaReg (↑c : Nat) + 24) 0 16 % 2 ^ s.rf (dmaReg (↑c : Nat) + 16) 0 5 ∧ s.rf (dmaReg (↑c : Nat) + 28) 0 3 = 1) ∧ d = some v ∧ code ∈ (s.setRf (dmaReg (↑c : Nat) + 28) 0 3 2).descCodes (↑c : Nat) (descOf v).fst (descOf v).snd ∧ (∀ (e : Nat), e ∈ (s.setRf (dmaReg (↑c : Nat) + 28) 0 3 2).descCodes (↑c : Nat) (descOf v).fst (descOf v).snd → code ≤ e)) :=
  ⟨⟨(0 : Fin 16), (s0 : State), (by decide +kernel), (by decide +kernel)⟩,
   ⟨(3 : Fin 16), _, ({ regs := [(dmaReg 3, 1#32), (dmaReg 3 + 8, 0x12345660#32), (dmaReg 3 + 0x10, 4#32), (dmaReg 3 + 0x14, 15#32), (dmaReg 3 + 0x18, 2#32), (dmaReg 3 + 0x1C, 1#32), (dmaReg 3 + 0x24, 0x30000#32)] } : State), (by decide +kernel), (by decide +kernel), rfl⟩,
   ⟨(3 : Fin 16), ({ regs := [(dmaReg 3, 1#32), (dmaReg 3 + 8, 0x12345660#32), (dmaReg 3 + 0x10, 4#32), (dmaReg 3 + 0x14, 15#32), (dmaReg 3 + 0x18, 2#32), (dmaReg 3 + 0x1C, 1#32), (dmaReg 3 + 0x24, 0x30000#32)] } : State), (some 0x0000000000000000000000400000000000000000000001000000004000000101#256 : Option (BitVec 256)), _, (by decide +kernel), (by decide +kernel), someGet _ (by decide +kernel), (by decide +kernel)⟩,
   ⟨(3 : Fin 16), ({ regs := [(dmaReg 3, 1#32), (dmaReg 3 + 8, 0x12345660#32), (dmaReg 3 + 0x10, 4#32), (dmaReg 3 + 0x14, 15#32), (dmaReg 3 + 0x18, 2#32), (dmaReg 3 + 0x1C, 1#32), (dmaReg 3 + 0x24, 0x30000#32)] } : State), (1840 : Nat), (some 0x0000000000000000000000000000000000000000000001000000000000000109#256 : Option (BitVec 256)), _, (by decide +kernel), (by decide +kernel), someGet _ (by decide +kernel), (by decide +kernel), (by decide +kernel)⟩⟩

theorem witness3 :
    (∃ (c : Nat) (d : Desc) (reserved : Bool) (s : State) (k : Nat), k ∈ s.descCodes c d reserved) :=
  ⟨(0 : Nat), ({ op := 1, irq := true, stope := false, hro := false, len := 8, haddr := 32768, iaddr := 274877907200 } : Desc), (true : Bool), (s0 : State), (1840 : Nat), (by decide +kernel)⟩

theorem witness5 :
    (∃ (c : Fin 16) (s : State), s.dead = false ∧ s.job (↑c : Nat) = none) ∧
    (∃ (c : Fin 16) (s : State) (j : DmaJob), s.dead = false ∧ s.job (↑c : Nat) = some j ∧ j.desc.op ≠ 1 ∧ j.desc.op ≠ 3) ∧
    (∃ (c : Fin 16) (r : Option (List (BitVec 8) × Bool)) (s : State) (j : DmaJob), s.dead = false ∧ s.job (↑c : Nat) = some j ∧ r = none ∧ j.desc.op = 1) ∧
    (∃ (c : Fin 16) (r : Option (List (BitVec 8) × Bool)) (s : State) (j : DmaJob), s.dead = false ∧ s.job (↑c : Nat) = some j ∧ r = none ∧ j.desc.op = 3) ∧
    (∃ (c : Fin 16) (s : State) (j : DmaJob) (st : Nat) (r : Option (List (BitVec 8) × Bool)) (l : List (BitVec 8)) (ep : Bool) (u : State) (n : Nat), s.dead = false ∧ s.job (↑c : Nat) = some j ∧ j.desc.op = 1 ∧ r = some (l, ep) ∧ s.bytesPut (Master.dma c) (j.desc.iaddr + j.done) (List.map some (List.take (j.desc.len - j.done) l)) ep = (u, st, n) ∧ st = 0) ∧
    (∃ (c : Fin 16) (s : State) (j : DmaJob) (r : Option (List (BitVec 8) × Bool)) (l : List (BitVec 8)) (ep : Bool) (u : State) (st : Nat) (n : Nat), s.dead = false ∧ s.job (↑c : Nat) = some j ∧ j.desc.op = 1 ∧ r = some (l, ep) ∧ s.bytesPut (Master.dma c) (j.desc.iaddr + j.done) (List.map some (List.take (j.desc.len - j.done) l)) ep = (u, st, n) ∧ st ≠ 0) ∧
    (∃ (c : Fin 16) (s : State) (j : DmaJob) (r : Option (List (BitVec 8) × Bool)) (l : List (BitVec 8)) (ep : Bool), s.dead = false ∧ s.job (↑c : Nat) = some j ∧ r = some (l, ep) ∧ j.desc.op = 3) :=
  ⟨⟨(0 : Fin 16), (s0 : State), (by decide +kernel), (by decide +kernel)⟩,
   ⟨(3 : Fin 16), (dj { desc := ds 2 true false 8 0x4000000100 } drt {} [⟨0x4000000101, 7⟩] : State), _, (by decide +kernel), someGet _ (by decide +kernel), (by decide +kernel), (by decide +kernel)⟩,
   ⟨(3 : Fin 16), _, (dj { desc := ds 1 true false 8 0x4000000100, done := 4 } drt : State), _, (by decide +kernel), someGet _ (by decide +kernel), rfl, (by decide +kernel)⟩,
   ⟨(3 : Fin 16), _, (dj { desc := ds 3 true false 8 0, got := 1 } (qr true) { on := true, ll := true } : State), _, (by decide +kernel), someGet _ (by decide +kernel), rfl, (by decide +kernel)⟩,
   ⟨(3 : Fin 16), (dj { desc := ds 1 true false 8 0x4000000100, done := 4 } drt : State), _, _, (some ([0x01#8, 0x02#8, 0x03#8, 0x04#8, 0x05#8], false) : Option (List (BitVec 8) × Bool)), _, _, _, _, (by decide +kernel), someGet _ (by decide +kernel), (by decide +kernel), someGet2 _ (by decide +kernel), pairEta3 _, (by decide +kernel)⟩,
   ⟨(3 : Fin 16), (dj { desc := ds 1 true false 8 0x4100000100, done := 4 } : State), _, (some ([0x01#8, 0x02#8, 0x03#8, 0x04#8, 0x05#8], false) : Option (List (BitVec 8) × Bool)), _, _, _, _, _, (by decide +kernel), someGet _ (by decide +kernel), (by decide +kernel), someGet2 _ (by decide +kernel), pairEta3 _, (by decide +kernel)⟩,
   ⟨(3 : Fin 16), (dj { desc := ds 3 true false 8 0, got := 1 } (qr true) { on := true, ll := true } : State), _, (some ([0x01#8, 0x02#8, 0x03#8, 0x04#8, 0x05#8], false) : Option (List (BitVec 8) × Bool)), _, _, (by decide +kernel), someGet _ (by decide +kernel), someGet2 _ (by decide +kernel), (by decide +kernel)⟩⟩

theorem witness6 :
    (∃ (c : Fin 16) (s : State), s.dead = false ∧ s.job (↑c : Nat) = none) ∧
    (∃ (c : Fin 16) (s : State) (j : DmaJob), s.dead = false ∧ s.job (↑c : Nat) = some j ∧ j.desc.op = 1 ∧ j.done = j.desc.len) ∧
    (∃ (c : Fin 16) (s : State) (j : DmaJob), s.dead = false ∧ s.job (↑c : Nat) = some j ∧ j.desc.op = 1 ∧ j.done ≠ j.desc.len) ∧
    (∃ (c : Fin 16) (s : State) (j : DmaJob), s.dead = false ∧ s.job (↑c : Nat) = some j ∧ j.desc.op = 3 ∧ (4 * j.got = j.desc.len ∧ (mget [] s.held (16384 + (↑c : Nat))).length = 0)) ∧
    (∃ (c : Fin 16) (s : State) (j : DmaJob), s.dead = false ∧ s.job (↑c : Nat) = some j ∧ j.desc.op = 3 ∧ (¬(4 * j.got = j.desc.len ∧ (mget [] s.held (16384 + (↑c : Nat))).length = 0))) ∧
    (∃ (c : Fin 16) (s : State) (j : DmaJob) (u : State) (k : DmaJob) (st : Nat), s.dead = false ∧ s.job (↑c : Nat) = some j ∧ j.desc.op = 2 ∧ s.d2hUnits (↑c : Nat) (j.desc.len / 512 + 1) j = (u, k, st) ∧ st = 0) ∧
    (∃ (c : Fin 16) (s : State) (j : DmaJob) (u : State) (k : DmaJob) (st : Nat), s.dead = false ∧ s.job (↑c : Nat) = some j ∧ j.desc.op = 2 ∧ s.d2hUnits (↑c : Nat) (j.desc.len / 512 + 1) j = (u, k, st) ∧ st ≠ 0) ∧
    (∃ (c : Fin 16) (s : State) (j : DmaJob), s.dead = false ∧ s.job (↑c : Nat) = some j ∧ j.desc.op = 4 ∧ q2hWhole j.desc (q2hTake j.desc (mget [] s.taken (16384 + (↑c : Nat)))) = false) ∧
    (∃ (c : Fin 16) (s : State) (j : DmaJob) (u : State) (k : DmaJob), s.dead = false ∧ s.job (↑c : Nat) = some j ∧ j.desc.op = 4 ∧ q2hWhole j.desc (q2hTake j.desc (mget [] s.taken (16384 + (↑c : Nat)))) = true ∧ s.q2hWrite (↑c : Nat) j (q2hTake j.desc (mget [] s.taken (16384 + (↑c : Nat)))) = (u, k)) :=
  ⟨⟨(0 : Fin 16), (s0 : State), (by decide +kernel), (by decide +kernel)⟩,
   ⟨(3 : Fin 16), (dj { desc := ds 1 true false 8 0x4100000100, done := 8, pois := true } : State), _, (by decide +kernel), someGet _ (by decide +kernel), (by decide +kernel), (by decide +kernel)⟩,
   ⟨(3 : Fin 16), (dj { desc := ds 1 true false 8 0x4000000100, done := 4 } drt : State), _, (by decide +kernel), someGet _ (by decide +kernel), (by decide +kernel), (by decide +kernel)⟩,
   ⟨(3 : Fin 16), (dj { desc := ds 3 true false 8 0, got := 2, pois := true } (qr true) { on := true, ll := true } : State), _, (by decide +kernel), someGet _ (by decide +kernel), (by decide +kernel), (by decide +kernel)⟩,
   ⟨(3 : Fin 16), (dj { desc := ds 3 true false 8 0, got := 1 } (qr true) { on := true, ll := true } : State), _, (by decide +kernel), someGet _ (by decide +kernel), (by decide +kernel), (by decide +kernel)⟩,
   ⟨(3 : Fin 16), (dj { desc := ds 2 true false 8 0x4000000100 } drt {} [⟨0x4000000101, 7⟩] : State), _, _, _, _, (by decide +kernel), someGet _ (by decide +kernel), (by decide +kernel), pairEta3 _, (by decide +kernel)⟩,
   ⟨(3 : Fin 16), (dj { desc := ds 2 true false 8 0x3F00000000 } : State), _, _, _, _, (by decide +kernel), someGet _ (by decide +kernel), (by decide +kernel), pairEta3 _, (by decide +kernel)⟩,
   ⟨(3 : Fin 16), (dj { desc := ds 4 true false 8 0, got := 0 } (qr false) { on := true, ll := true } [] [{ v := 5 }] : State), _, (by decide +kernel), someGet _ (by decide +kernel), (by decide +kernel), (by decide +kernel)⟩,
   ⟨(3 : Fin 16), (dj { desc := ds 4 true false 8 0, got := 0 } (qr false) { on := true, ll := true } [] [{ v := 5 }, { v := 6, p := true }, { v := 7 }] : State), _, _, _, (by decide +kernel), someGet _ (by decide +kernel), (by decide +kernel), (by decide +kernel), pairEta2 _⟩⟩

theorem witness7 :
    (∃ (j : DmaJob), j.desc.len ≤ j.done) ∧
    (∃ (c : Nat) (j : DmaJob) (s : State) (x : BytesAns) (u : State), j.done < j.desc.len ∧ s.bytesGet (Master.dma (Fin.ofNat 16 c)) (j.desc.iaddr + j.done) (min 512 (j.desc.len - j.done)) = (u, x) ∧ x.status ≠ 0) ∧
    (∃ (c : Nat) (j : DmaJob) (s : State) (x : BytesAns) (u : State), j.done < j.desc.len ∧ s.bytesGet (Master.dma (Fin.ofNat 16 c)) (j.desc.iaddr + j.done) (min 512 (j.desc.len - j.done)) = (u, x) ∧ x.status = 0) :=
  ⟨⟨({ desc := { op := 2, irq := true, stope := false, hro := false, len := 8, haddr := 32768, iaddr := 274877907200 }, done := 8, pois := false, got := 0 } : DmaJob), (by decide +kernel)⟩,
   ⟨(3 : Nat), ({ desc := { op := 2, irq := true, stope := false, hro := false, len := 8, haddr := 32768, iaddr := 274877907200 }, done := 0, pois := false, got := 0 } : DmaJob), (s0 : State), _, _, (by decide +kernel), pairEta2 _, (by decide +kernel)⟩,
   ⟨(3 : Nat), ({ desc := { op := 2, irq := true, stope := false, hro := false, len := 8, haddr := 32768, iaddr := 274877907200 }, done := 0, pois := false, got := 0 } : DmaJob), (dj { desc := ds 2 true false 8 0x4000000100 } drt {} [⟨0x4000000101, 7⟩] : State), _, _, (by decide +kernel), pairEta2 _, (by decide +kernel)⟩⟩

theorem witness9 :
    (∃ (l : List Chan), l = []) ∧
    (∃ (l : List Chan), l ≠ []) :=
  ⟨⟨_, rfl⟩,
   ⟨([{ v := 0x00005#20, e := false, p := true }] : List Chan), (by decide +kernel)⟩⟩

theorem witness10 :
    (∃ (d : Desc), d.stope = false) ∧
    (∃ (d : Desc) (l : List Chan) (i : Nat) (x : Chan), d.stope = true ∧ (q2hTake d l)[i]? = some x ∧ x.e = true) ∧
    (∃ (d : Desc) (l : List Chan), d.stope = true ∧ (∀ (x : Chan), x ∈ q2hTake d l → x.e = false)) :=
  ⟨⟨({ op := 1, irq := true, stope := false, hro := false, len := 8, haddr := 32768, iaddr := 274877907200 } : Desc), (by decide +kernel)⟩,
   ⟨({ op := 2, irq := false, stope := true, hro := false, len := 8, haddr := 32768, iaddr := 274878955516 } : Desc), ([{ v := 0x00005#20, e := true, p := false }, { v := 0x00006#20, e := false, p := true }, { v := 0x00007#20, e := false, p := false }] : List Chan), (0 : Nat), _, (by decide +kernel), someGet _ (by decide +kernel), (by decide +kernel)⟩,
   ⟨({ op := 2, irq := false, stope := true, hro := false, len := 8, haddr := 32768, iaddr := 274878955516 } : Desc), ([] : List Chan), (by decide +kernel), (by decide +kernel)⟩⟩

theorem witness11 :
    (∃ (c : Fin 16) (s : State), s.dead = false ∧ s.job (↑c : Nat) = none) ∧
    (∃ (c : Fin 16) (s : State) (j : DmaJob), s.dead = false ∧ s.job (↑c : Nat) = some j ∧ j.desc.op = 1) ∧
    (∃ (c : Fin 16) (n : Fin 8388608) (s : State) (j : DmaJob) (u : State) (k : DmaJob) (st : Nat), s.dead = false ∧ s.job (↑c : Nat) = some j ∧ j.desc.op = 2 ∧ s.d2hUnits (↑c : Nat) (↑n : Nat) j = (u, k, st)) ∧
    (∃ (c : Fin 16) (s : State) (j : DmaJob), s.dead = false ∧ s.job (↑c : Nat) = some j ∧ j.desc.op = 3) ∧
    (∃ (c : Fin 16) (s : State) (j : DmaJob) (u : State) (k : DmaJob), s.dead = false ∧ s.job (↑c : Nat) = some j ∧ j.desc.op = 4 ∧ s.q2hWrite (↑c : Nat) j (q2hTake j.desc (mget [] s.taken (16384 + (↑c : Nat)))) = (u, k)) :=
  ⟨⟨(0 : Fin 16), (s0 : State), (by decide +kernel), (by decide +kernel)⟩,
   ⟨(3 : Fin 16), (dj { desc := ds 1 true false 8 0x4000000100, done := 4 } drt : State), _, (by decide +kernel), someGet _ (by decide +kernel), (by decide +kernel)⟩,
   ⟨(3 : Fin 16), (0 : Fin 8388608), (dj { desc := ds 2 true false 8 0x4000000100 } drt {} [⟨0x4000000101, 7⟩] : State), _, _, _, _, (by decide +kernel), someGet _ (by decide +kernel), (by decide +kernel), pairEta3 _⟩,
   ⟨(3 : Fin 16), (dj { desc := ds 3 true false 8 0, got := 1 } (qr true) { on := true, ll := true } : State), _, (by decide +kernel), someGet _ (by decide +kernel), (by decide +kernel)⟩,
   ⟨(3 : Fin 16), (dj { desc := ds 4 true false 8 0, got := 0 } (qr false) { on := true, ll := true } [] [{ v := 5 }, { v := 6, p := true }, { v := 7 }] : State), _, _, _, (by decide +kernel), someGet _ (by decide +kernel), (by decide +kernel), pairEta2 _⟩⟩

theorem witness12 :
    (∃ (c : Fin 16) (s : State), s.dead = false ∧ s.rf (dmaReg (↑c : Nat) + 28) 0 3 = 3) ∧
    (∃ (c : Fin 16) (s : State), s.dead = false ∧ s.rf (dmaReg (↑c : Nat) + 28) 0 3 ≠ 3) :=
  ⟨⟨(3 : Fin 16), ({ regs := [(dmaReg 3 + 0x10, 4#32), (dmaReg 3 + 8, 0x40#32), (dmaReg 3 + 0x1C, 3#32), (dmaReg 3 + 0x14, 15#32)] } : State), (by decide +kernel), (by decide +kernel)⟩,
   ⟨(0 : Fin 16), (s0 : State), (by decide +kernel), (by decide +kernel)⟩⟩

theorem witness13 :
    (∃ (c : Fin 16) (v : Word32) (s : State), s.dead = false ∧ ((if BitVec.getLsbD v 2 = true then (if BitVec.getLsbD v 1 = true then s.dmaAbort (↑c : Nat) 0 else s).dmaResume (↑c : Nat) else if BitVec.getLsbD v 1 = true then s.dmaAbort (↑c : Nat) 0 else s).rb (dmaReg (↑c : Nat)) 0 = true)) ∧
    (∃ (c : Fin 16) (v : Word32) (s : State), s.dead = false ∧ ((if BitVec.getLsbD v 2 = true then (if BitVec.getLsbD v 1 = true then s.dmaAbort (↑c : Nat) 0 else s).dmaResume (↑c : Nat) else if BitVec.getLsbD v 1 = true then s.dmaAbort (↑c : Nat) 0 else s).rb (dmaReg (↑c : Nat)) 0 = false) ∧ ((fun (u : State) => u.rf (dmaReg (↑c : Nat) + 16) 0 5) (if BitVec.getLsbD v 2 = true then (if BitVec.getLsbD v 1 = true then s.dmaAbort (↑c : Nat) 0 else s).dmaResume (↑c : Nat) else if BitVec.getLsbD v 1 = true then s.dmaAbort (↑c : Nat) 0 else s) < 2 ∨ 16 < (fun (u : State) => u.rf (dmaReg (↑c : Nat) + 16) 0 5) (if BitVec.getLsbD v 2 = true then (if BitVec.getLsbD v 1 = true then s.dmaAbort (↑c : Nat) 0 else s).dmaResume (↑c : Nat) else if BitVec.getLsbD v 1 = true then s.dmaAbort (↑c : Nat) 0 else s))) ∧
    (∃ (c : Fin 16) (v : Word32) (s : State), s.dead = false ∧ ((if BitVec.getLsbD v 2 = true then (if BitVec.getLsbD v 1 = true then s.dmaAbort (↑c : Nat) 0 else s).dmaResume (↑c : Nat) else if BitVec.getLsbD v 1 = true then s.dmaAbort (↑c : Nat) 0 else s).rb (dmaReg (↑c : Nat)) 0 = false) ∧ (2 ≤ (fun (u : State) => u.rf (dmaReg (↑c : Nat) + 16) 0 5) (if BitVec.getLsbD v 2 = true then (if BitVec.getLsbD v 1 = true then s.dmaAbort (↑c : Nat) 0 else s).dmaResume (↑c : Nat) else if BitVec.getLsbD v 1 = true then s.dmaAbort (↑c : Nat) 0 else s)) ∧ ((fun (u : State) => u.rf (dmaReg (↑c : Nat) + 16) 0 5) (if BitVec.getLsbD v 2 = true then (if BitVec.getLsbD v 1 = true then s.dmaAbort (↑c : Nat) 0 else s).dmaResume (↑c : Nat) else if BitVec.getLsbD v 1 = true then s.dmaAbort (↑c : Nat) 0 else s) ≤ 16) ∧ ((if BitVec.getLsbD v 2 = true then (if BitVec.getLsbD v 1 = true then s.dmaAbort (↑c : Nat) 0 else s).dmaResume (↑c : Nat) else if BitVec.getLsbD v 1 = true then s.dmaAbort (↑c : Nat) 0 else s).rf (dmaReg (↑c : Nat) + 8) 0 5 ≠ 0)) ∧
    (∃ (c : Fin 16) (v : Word32) (s : State), s.dead = false ∧ ((if BitVec.getLsbD v 2 = true then (if BitVec.getLsbD v 1 = true then s.dmaAbort (↑c : Nat) 0 else s).dmaResume (↑c : Nat) else if BitVec.getLsbD v 1 = true then s.dmaAbort (↑c : Nat) 0 else s).rb (dmaReg (↑c : Nat)) 0 = false) ∧ (2 ≤ (fun (u : State) => u.rf (dmaReg (↑c : Nat) + 16) 0 5) (if BitVec.getLsbD v 2 = true then (if BitVec.getLsbD v 1 = true then s.dmaAbort (↑c : Nat) 0 else s).dmaResume (↑c : Nat) else if BitVec.getLsbD v 1 = true then s.dmaAbort (↑c : Nat) 0 else s)) ∧ ((fun (u : State) => u.rf (dmaReg (↑c : Nat) + 16) 0 5) (if BitVec.getLsbD v 2 = true then (if BitVec.getLsbD v 1 = true then s.dmaAbort (↑c : Nat) 0 else s).dmaResume (↑c : Nat) else if BitVec.getLsbD v 1 = true then s.dmaAbort (↑c : Nat) 0 else s) ≤ 16) ∧ ((if BitVec.getLsbD v 2 = true then (if BitVec.getLsbD v 1 = true then s.dmaAbort (↑c : Nat) 0 else s).dmaResume (↑c : Nat) else if BitVec.getLsbD v 1 = true then s.dmaAbort (↑c : Nat) 0 else s).rf (dmaReg (↑c : Nat) + 8) 0 5 = 0)) :=
  ⟨⟨(3 : Fin 16), (0x00000000#32 : Word32), ({ regs := [(dmaReg 3, 1#32), (dmaReg 3 + 8, 0x12345660#32), (dmaReg 3 + 0x10, 4#32), (dmaReg 3 + 0x14, 15#32), (dmaReg 3 + 0x18, 2#32), (dmaReg 3 + 0x1C, 1#32), (dmaReg 3 + 0x24, 0x30000#32)] } : State), (by decide +kernel), (by decide +kernel)⟩,
   ⟨(0 : Fin 16), (0x00000000#32 : Word32), (s0 : State), (by decide +kernel), (by decide +kernel), (by decide +kernel)⟩,
   ⟨(3 : Fin 16), (0x00000000#32 : Word32), ({ regs := [(dmaReg 3 + 0x10, 4#32), (dmaReg 3 + 8, 0x43#32)] } : State), (by decide +kernel), (by decide +kernel), (by decide +kernel), (by decide +kernel), (by decide +kernel)⟩,
   ⟨(3 : Fin 16), (0x00000000#32 : Word32), ({ regs := [(dmaReg 3 + 0x10, 4#32), (dmaReg 3 + 8, 0x40#32), (dmaReg 3 + 0x1C, 3#32), (dmaReg 3 + 0x14, 15#32)] } : State), (by decide +kernel), (by decide +kernel), (by decide +kernel), (by decide +kernel), (by decide +kernel)⟩⟩

end DmaDescriptorsMoveData

/-! Witnesses of `Obligations.StagingAttestationAndRecovery`. -/
namespace StagingAttestationAndRecovery

def st (r : Map Word32 := []) (h : HostLink := {}) (m : List Host.Cell := []) : State := { regs := [(bootBase, 7#32), (bootBase + 0x20, 0x01010101#32)] ++ r, host := h, mem := m }
def rc (h : HostLink) (r : Map Word32 := []) (f : Map (BitVec 8) := []) : State := { regs := (bootBase, 8#32) :: r, host := h, flash := f }
def dr : Map Word32 := [(dramBase 0, 5#32), (dramBase 0 + 8, 0x10#32), (dramBase 0 + 0x14, 0x00080100#32)]

theorem witness0 :
    (∃ (s : State), s.dead = false ∧ s.host.staging ≠ none) ∧
    (∃ (s : State), s.dead = false ∧ s.host.staging = none) :=
  ⟨⟨({ st (dr ++ [(pciBase + 8, 0x800000#32)]) { staging := some (0x1000, 3) } with drams := [(0, { filled := true, st := .run })] } : State), (by decide +kernel), (by decide +kernel)⟩,
   ⟨(s0 : State), (by decide +kernel), (by decide +kernel)⟩⟩

theorem witness2 :
    (∃ (s : State), s.dead = false ∧ s.host.staging = none) :=
  ⟨(s0 : State), (by decide +kernel), (by decide +kernel)⟩

theorem witness3 :
    (∃ (s : State) (a : Nat) (n : Nat), s.dead = false ∧ s.host.staging = some (a, n) ∧ (¬(a % 32 = 0 ∧ a < 2 ^ 38 ∧ s.dramWithin a 15488 = true))) ∧
    (∃ (s : State) (a : Nat) (n : Nat) (u : State) (x : BytesAns), s.dead = false ∧ (a % 32 = 0 ∧ a < 2 ^ 38 ∧ s.dramWithin a 15488 = true) ∧ s.host.staging = some (a, n) ∧ ({ s with host := { s.host with staging := none } }.setRb (pciBase + 44) 31 false).bytesGet Master.puppeteer a 15488 = (u, x) ∧ x.status ≠ 0) :=
  ⟨⟨(st [(pciBase + 8, 0x800000#32)] { staging := some (0x1001, 3) } : State), _, _, (by decide +kernel), someGet2 _ (by decide +kernel), (by decide +kernel)⟩,
   ⟨({ st (dr ++ [(pciBase + 8, 0x800000#32)]) { staging := some (0x1000, 3) } with drams := [(0, { filled := true, st := .run })] } : State), (((({ st (dr ++ [(pciBase + 8, 0x800000#32)]) { staging := some (0x1000, 3) } with drams := [(0, { filled := true, st := .run })] } : State)).host.staging).get (by all_goals decide +kernel)).1, (((({ st (dr ++ [(pciBase + 8, 0x800000#32)]) { staging := some (0x1000, 3) } with drams := [(0, { filled := true, st := .run })] } : State)).host.staging).get (by all_goals decide +kernel)).2, (({ (({ st (dr ++ [(pciBase + 8, 0x800000#32)]) { staging := some (0x1000, 3) } with drams := [(0, { filled := true, st := .run })] } : State)) with host := { (({ st (dr ++ [(pciBase + 8, 0x800000#32)]) { staging := some (0x1000, 3) } with drams := [(0, { filled := true, st := .run })] } : State)).host with staging := none } }.setRb (pciBase + 44) 31 false).bytesGet Master.puppeteer ((((({ st (dr ++ [(pciBase + 8, 0x800000#32)]) { staging := some (0x1000, 3) } with drams := [(0, { filled := true, st := .run })] } : State)).host.staging).get (by all_goals decide +kernel)).1) 15488).1, (({ (({ st (dr ++ [(pciBase + 8, 0x800000#32)]) { staging := some (0x1000, 3) } with drams := [(0, { filled := true, st := .run })] } : State)) with host := { (({ st (dr ++ [(pciBase + 8, 0x800000#32)]) { staging := some (0x1000, 3) } with drams := [(0, { filled := true, st := .run })] } : State)).host with staging := none } }.setRb (pciBase + 44) 31 false).bytesGet Master.puppeteer ((((({ st (dr ++ [(pciBase + 8, 0x800000#32)]) { staging := some (0x1000, 3) } with drams := [(0, { filled := true, st := .run })] } : State)).host.staging).get (by all_goals decide +kernel)).1) 15488).2, (by decide +kernel), (by decide +kernel), (by first | decide +kernel | exact someGet2 _ (by decide +kernel)), (by first | decide +kernel | exact pairEta2 _), (by decide +kernel)⟩⟩

namespace C4
def mani (n dev : Nat) (p : Bool) : List (BitVec 8 × Bool) := ([0x4B, 0x57, 0x52, 0x53, 1, 0, BitVec.ofNat 8 n, 0] ++ natBytes 4 dev ++ [1, 0, 0, 0] ++ List.replicate (0x3C80 - 16) 0).map (fun b => (b, p))

theorem witness4 :
    (∃ (n : Nat) (l : List (BitVec 8 × Bool)), (manifestGood (List.map (fun (x : BitVec 8 × Bool) => x.fst) l) n = false)) ∧
    (∃ (n : Nat) (l : List (BitVec 8 × Bool)), (manifestGood (List.map (fun (x : BitVec 8 × Bool) => x.fst) l) n = true) ∧ (¬(numAt (List.map (fun (x : BitVec 8 × Bool) => x.fst) l) 8 4 = 2047903808 ∧ numAt (List.map (fun (x : BitVec 8 × Bool) => x.fst) l) 12 4 % 2 = 1))) ∧
    (∃ (n : Nat) (l : List (BitVec 8 × Bool)), (manifestGood (List.map (fun (x : BitVec 8 × Bool) => x.fst) l) n = true) ∧ (numAt (List.map (fun (x : BitVec 8 × Bool) => x.fst) l) 8 4 = 2047903808 ∧ numAt (List.map (fun (x : BitVec 8 × Bool) => x.fst) l) 12 4 % 2 = 1) ∧ (((List.take 8256 l ++ List.drop 12896 l).any fun (x : BitVec 8 × Bool) => x.snd) = true)) ∧
    (∃ (n : Nat) (l : List (BitVec 8 × Bool)) (s : State), (manifestGood (List.map (fun (x : BitVec 8 × Bool) => x.fst) l) n = true) ∧ (numAt (List.map (fun (x : BitVec 8 × Bool) => x.fst) l) 8 4 = 2047903808 ∧ numAt (List.map (fun (x : BitVec 8 × Bool) => x.fst) l) 12 4 % 2 = 1) ∧ (((List.take 8256 l ++ List.drop 12896 l).any fun (x : BitVec 8 × Bool) => x.snd) = false) ∧ (s.otp.keySlot (slice (List.map (fun (x : BitVec 8 × Bool) => x.fst) l) 12896 2592) = none)) :=
  ⟨⟨(2 : Nat), ([] : List (BitVec 8 × Bool)), (by decide +kernel)⟩,
   ⟨(2 : Nat), mani 2 5 false, (by decide +kernel), (by decide +kernel)⟩,
   ⟨(2 : Nat), mani 2 0x7A108840 true, (by decide +kernel), (by decide +kernel), (by decide +kernel)⟩,
   ⟨(2 : Nat), mani 2 0x7A108840 false, (s0 : State), (by decide +kernel), (by decide +kernel), (by decide +kernel), (by decide +kernel)⟩⟩

end C4

theorem witness6 :
    (∃ (s : State), s.booted = false ∧ s.rescue = false) ∧
    (∃ (vendor : BitVec 16) (type : BitVec 8) (ws : List Word32) (s : State), (s.booted = true ∨ s.rescue = true) ∧ (vendor = 1 ∧ type = 0 ∧ ws.length = 1)) ∧
    (∃ (vendor : BitVec 16) (type : BitVec 8) (ws : List Word32) (s : State), (s.booted = true ∨ s.rescue = true) ∧ (vendor = 7997 ∧ type = 1 ∧ ws.length = 16) ∧ s.host.doe = none) ∧
    (∃ (vendor : BitVec 16) (type : BitVec 8) (ws : List Word32) (s : State), (s.booted = true ∨ s.rescue = true) ∧ (vendor = 7997 ∧ type = 1 ∧ ws.length = 16) ∧ s.host.doe ≠ none) ∧
    (∃ (vendor : BitVec 16) (type : BitVec 8) (ws : List Word32) (s : State), (s.booted = true ∨ s.rescue = true) ∧ (¬(vendor = 1 ∧ type = 0 ∧ ws.length = 1)) ∧ (¬(vendor = 7997 ∧ type = 1 ∧ ws.length = 16))) :=
  ⟨⟨(s0 : State), (by decide +kernel), (by decide +kernel)⟩,
   ⟨(0x0001#16 : BitVec 16), (0x00#8 : BitVec 8), ([0x00000001#32] : List Word32), ({ st (dr ++ [(pciBase + 8, 0x800000#32)]) { staging := some (0x1000, 3) } with drams := [(0, { filled := true, st := .run })] } : State), (by decide +kernel), (by decide +kernel)⟩,
   ⟨(0x1f3d#16 : BitVec 16), (0x01#8 : BitVec 8), ([0x01020304#32, 0x01020304#32, 0x01020304#32, 0x01020304#32, 0x01020304#32, 0x01020304#32, 0x01020304#32, 0x01020304#32, 0x01020304#32, 0x01020304#32, 0x01020304#32, 0x01020304#32, 0x01020304#32, 0x01020304#32, 0x01020304#32, 0x01020304#32] : List Word32), ({ st (dr ++ [(pciBase + 8, 0x800000#32)]) { staging := some (0x1000, 3) } with drams := [(0, { filled := true, st := .run })] } : State), (by decide +kernel), (by decide +kernel), (by decide +kernel)⟩,
   ⟨(0x1f3d#16 : BitVec 16), (0x01#8 : BitVec 8), ([0x01020304#32, 0x01020304#32, 0x01020304#32, 0x01020304#32, 0x01020304#32, 0x01020304#32, 0x01020304#32, 0x01020304#32, 0x01020304#32, 0x01020304#32, 0x01020304#32, 0x01020304#32, 0x01020304#32, 0x01020304#32, 0x01020304#32, 0x01020304#32] : List Word32), (st [] { doe := some { nonce := 5, flags := 0, at_ := 0 } } : State), (by decide +kernel), (by decide +kernel), (by decide +kernel)⟩,
   ⟨(0x0001#16 : BitVec 16), (0x00#8 : BitVec 8), ([] : List Word32), ({ st (dr ++ [(pciBase + 8, 0x800000#32)]) { staging := some (0x1000, 3) } with drams := [(0, { filled := true, st := .run })] } : State), (by decide +kernel), (by decide +kernel), (by decide +kernel)⟩⟩

theorem witness7 :
    (∃ (s : State), s.host.doe = none) :=
  ⟨(s0 : State), (by decide +kernel)⟩

theorem witness8 :
    (∃ (s : State) (q : DoeReq) (u : State) (v : State) (dirs : List (Option (List (BitVec 8)))) (sig : Option (List (BitVec 8))), s.host.doe = some q ∧ ((if BitVec.getLsbD q.flags 0 = true then { s with host := { s.host with doe := none } }.dirDigests else ({ s with host := { s.host with doe := none } }, [])) = (u, dirs)) ∧ u.signs [75#8, 87#8, 65#8, 84#8] (sha3Of512 (u.reportBody q dirs)) = (v, sig)) :=
  ⟨(st [] { doe := some { nonce := 5, flags := 0, at_ := 0 } } : State), _, _, _, _, _, someGet _ (by decide +kernel), pairEta2 _, pairEta2 _⟩

theorem witness10 :
    (∃ (r : Nat), r < 64) ∧
    (∃ (n : Nat), n < 64) ∧
    (∃ (dirs : List (Option (List (BitVec 8)))), dirs = []) :=
  ⟨⟨(0 : Nat), (by decide +kernel)⟩,
   ⟨(0 : Nat), (by decide +kernel)⟩,
   ⟨_, rfl⟩⟩

theorem witness11 :
    (∃ (n : Nat) (s : State) (u : State) (x : BytesAns), s.bytesGet Master.puppeteer (s.dirAddr n) 8192 = (u, x)) :=
  ⟨(0 : Nat), (s0 : State), _, _, pairEta2 _⟩

theorem witness13 :
    (∃ (slot : Bool) (off : Word32) (len : Word32) (c : Instr) (op : Nat) (s : State), (c = Instr.erase slot off len ∧ op = 1 ∨ c = Instr.program slot off len ∧ op = 2 ∨ c = Instr.readFlash slot off len ∧ op = 3) ∧ s.rescue = true ∧ s.host.rmb = none) ∧
    (∃ (slot : Bool) (off : Word32) (len : Word32) (c : Instr) (op : Nat) (s : State), (c = Instr.erase slot off len ∧ op = 1 ∨ c = Instr.program slot off len ∧ op = 2 ∨ c = Instr.readFlash slot off len ∧ op = 3) ∧ (s.rescue = false ∨ s.host.rmb ≠ none)) :=
  ⟨⟨(false : Bool), (0x00000000#32 : Word32), (0x003f0001#32 : Word32), (Sys2Proof.Instr.program false 0x00000000#32 0x003f0001#32 : Instr), (2 : Nat), (rc {} : State), (by decide +kernel), (by decide +kernel), (by decide +kernel)⟩,
   ⟨(false : Bool), (0x00000000#32 : Word32), (0x003f0001#32 : Word32), (Sys2Proof.Instr.program false 0x00000000#32 0x003f0001#32 : Instr), (2 : Nat), (s0 : State), (by decide +kernel), (by decide +kernel)⟩⟩

theorem witness14 :
    (∃ (s : State), s.host.rmb = none) :=
  ⟨(s0 : State), (by decide +kernel)⟩

theorem witness15 :
    (∃ (s : State) (x : Rmb), s.host.rmb = some x ∧ (¬(x.off + x.len ≤ 268435456 ∧ (x.op = 1 → x.off % 65536 = 0 ∧ x.len % 65536 = 0) ∧ (x.op = 2 → x.off % 256 = 0 ∧ x.len % 256 = 0) ∧ (x.op ≠ 1 → x.len ≤ 262144)))) ∧
    (∃ (err : Bool) (s : State) (x : Rmb), s.host.rmb = some x ∧ (x.off + x.len ≤ 268435456 ∧ (x.op = 1 → x.off % 65536 = 0 ∧ x.len % 65536 = 0) ∧ (x.op = 2 → x.off % 256 = 0 ∧ x.len % 256 = 0) ∧ (x.op ≠ 1 → x.len ≤ 262144)) ∧ err = true) ∧
    (∃ (err : Bool) (s : State) (x : Rmb), s.host.rmb = some x ∧ (x.off + x.len ≤ 268435456 ∧ (x.op = 1 → x.off % 65536 = 0 ∧ x.len % 65536 = 0) ∧ (x.op = 2 → x.off % 256 = 0 ∧ x.len % 256 = 0) ∧ (x.op ≠ 1 → x.len ≤ 262144)) ∧ err = false) :=
  ⟨⟨(rc { rmb := some { op := 1, slot := true, off := 0x10001, len := 0x10000 } } : State), _, someGet _ (by decide +kernel), (by decide +kernel)⟩,
   ⟨_, (rc { rmb := some { op := 1, slot := true, off := 0x10000, len := 0x10000 } } [] [(0x10010005, 7), (0x10000005, 8)] : State), _, someGet _ (by decide +kernel), (by decide +kernel), rfl⟩,
   ⟨_, (rc { rmb := some { op := 1, slot := true, off := 0x10000, len := 0x10000 } } [] [(0x10010005, 7), (0x10000005, 8)] : State), _, someGet _ (by decide +kernel), (by decide +kernel), rfl⟩⟩

theorem witness16 :
    (∃ (s : State), s.msixOpen 0 = true) ∧
    (∃ (s : State), s.msixOpen 0 = false) :=
  ⟨⟨({ rc { msixOn := true } with regs := [(msixBase + 12, 0#32)] } : State), (by decide +kernel)⟩,
   ⟨(s0 : State), (by decide +kernel)⟩⟩

end StagingAttestationAndRecovery

/-! Witnesses of `Obligations.BootResetAndTheFatalPath`. -/
namespace BootResetAndTheFatalPath

def hd : List (BitVec 8) := [0x4B, 0x57, 0x43, 0x4E, 1, 0, 1, 0] ++ List.replicate 0x18 0 ++ [0, 0, 0x70, 0, 0x43, 0, 0, 0] ++ List.replicate 0x10 0 ++ [4,0,0,0,0,0,0,0] ++ [5,0,0,0, 0,0x40,0,0, 12,0,0,0] ++ List.replicate 20 0
def lm (o : Nat) (l : List (BitVec 8)) : List Host.Cell := (l.zipIdx.filter (fun e => e.1 != 0)).map (fun e => ⟨logbookAddr + o + e.2, e.1⟩)

theorem witness1 :
    (∃ (s : State), s.signals.porN = true) ∧
    (∃ (s : State), s.signals.porN = false) ∧
    (∃ (s : State), s.rescue = false) ∧
    (∃ (s : State), s.rescue = true) :=
  ⟨⟨({ s0 with otp := { prov := true, keyv := 3, lock := true, hash := [(1, 5)] }, signals := { porN := true } } : State), (by decide +kernel)⟩,
   ⟨(s0 : State), (by decide +kernel)⟩,
   ⟨(s0 : State), (by decide +kernel)⟩,
   ⟨({ regs := [(bootBase, 8#32)] } : State), (by decide +kernel)⟩⟩

theorem witness2 :
    (∃ (op : BootOp), (∃ (e : Checker × Fin 10), e ∈ op.checks ∧ ∃ (n : Nat), e.fst = Checker.other n)) ∧
    (∃ (role : Bool) (op : BootOp) (s : State), (¬∃ (e : Checker × Fin 10), e ∈ op.checks ∧ ∃ (n : Nat), e.fst = Checker.other n) ∧ ((List.foldl (fun (v : State) (e : Checker × Fin 10) => v.checkFails e.fst (↑e.snd : Nat)) ({ s.powered with signals := { s.powered.signals with porN := true, role := role } }.setRb bootBase 12 role).logbookOpen op.checks).otp.prov = false ∨ (List.foldl (fun (v : State) (e : Checker × Fin 10) => v.checkFails e.fst (↑e.snd : Nat)) ({ s.powered with signals := { s.powered.signals with porN := true, role := role } }.setRb bootBase 12 role).logbookOpen op.checks).otp.keyv = 0)) ∧
    (∃ (role : Bool) (op : BootOp) (s : State) (r : Option Nat) (u : State), (¬∃ (e : Checker × Fin 10), e ∈ op.checks ∧ ∃ (n : Nat), e.fst = Checker.other n) ∧ (¬((List.foldl (fun (v : State) (e : Checker × Fin 10) => v.checkFails e.fst (↑e.snd : Nat)) ({ s.powered with signals := { s.powered.signals with porN := true, role := role } }.setRb bootBase 12 role).logbookOpen op.checks).otp.prov = false ∨ (List.foldl (fun (v : State) (e : Checker × Fin 10) => v.checkFails e.fst (↑e.snd : Nat)) ({ s.powered with signals := { s.powered.signals with porN := true, role := role } }.setRb bootBase 12 role).logbookOpen op.checks).otp.keyv = 0)) ∧ ((List.foldl (fun (v : State) (e : Checker × Fin 10) => v.checkFails e.fst (↑e.snd : Nat)) ({ s.powered with signals := { s.powered.signals with porN := true, role := role } }.setRb bootBase 12 role).logbookOpen op.checks).bootSlot false op.a = (u, r))) :=
  ⟨⟨({ checks := [(Sys2Proof.Checker.other 3, 1)], a := { flash := none, untrained := [], checks := [], stageBad := false }, b := { flash := none, untrained := [], checks := [], stageBad := false } } : BootOp), ⟨(.other 3, 1), by simp, 3, rfl⟩⟩,
   ⟨(false : Bool), ({ checks := [], a := { flash := none, untrained := [], checks := [], stageBad := false }, b := { flash := none, untrained := [], checks := [], stageBad := false } } : BootOp), (s0 : State), (fun ⟨_, h, _⟩ => nomatch h), (by decide +kernel)⟩,
   ⟨(false : Bool), ({ checks := [], a := { flash := none, untrained := [], checks := [], stageBad := false }, b := { flash := none, untrained := [], checks := [], stageBad := false } } : BootOp), ({ s0 with otp := { prov := true, keyv := 3 } } : State), _, _, (fun ⟨_, h, _⟩ => nomatch h), (by decide +kernel), pairEta2 _⟩⟩

theorem witness3 :
    (∃ (c : Nat) (x : BootTry) (s : State) (res : Option Nat) (u : State), (s.setRg (bootBase + 4) (BitVec.ofNat 32 c)).slotReset.bootSlot true x = (u, res)) :=
  ⟨(3 : Nat), ({ flash := none, untrained := [], checks := [], stageBad := false } : BootTry), (s0 : State), _, _, pairEta2 _⟩

theorem witness4 :
    (∃ (o : Nat), (6291456 ≤ o ∧ o < 6553600 ∨ 4194304 ≤ o ∧ o < 4456448 ∧ o % 65536 = 53280 ∨ o = testBase + 52 ∨ o = bootBase ∨ o = bootBase + 4 ∨ o = bootBase + 12)) ∧
    (∃ (o : Nat), (¬(fun (o : Nat) => 6291456 ≤ o ∧ o < 6553600 ∨ 4194304 ≤ o ∧ o < 4456448 ∧ o % 65536 = 53280 ∨ o = testBase + 52 ∨ o = bootBase ∨ o = bootBase + 4 ∨ o = bootBase + 12) o)) :=
  ⟨⟨(9437184 : Nat), (by decide +kernel)⟩,
   ⟨(0 : Nat), (by decide +kernel)⟩⟩

theorem witness5 :
    (∃ (a : Nat), (a < logbookAddr ∨ logbookAddr + 12 ≤ a)) :=
  ⟨(0 : Nat), (by decide +kernel)⟩

theorem witness6 :
    (∃ (i : Nat) (q : Nat) (s : State), q < bytesAt s.mem (logbookAddr + 65536 + 32 * i) 4) ∧
    (∃ (i : Nat) (q : Nat) (s : State), bytesAt s.mem (logbookAddr + 65536 + 32 * i) 4 ≤ q) :=
  ⟨⟨(0 : Nat), (0 : Nat), ({ s0 with mem := lm 0x10000 [9] } : State), (by decide +kernel)⟩,
   ⟨(0 : Nat), (0 : Nat), (s0 : State), (by decide +kernel)⟩⟩

theorem witness7 :
    (∃ (x : BootTry), (∃ (k : Fin 12), x.flash = some k ∧ (↑k : Nat) ≤ 3)) ∧
    (∃ (slotB : Bool) (x : BootTry) (s : State) (k : Nat), (¬(fun (n : Nat) => ∃ (k : Fin 12), x.flash = some k ∧ (↑k : Nat) ≤ n) 3) ∧ (k ∈ (((s.setRf bootBase 4 1 (if slotB = true then 1 else 0)).setRb bootBase (if slotB = true then 9 else 8) true).setRf bootBase 0 4 1).imageCodes ((((s.setRf bootBase 4 1 (if slotB = true then 1 else 0)).setRb bootBase (if slotB = true then 9 else 8) true).setRf bootBase 0 4 1).flashBytes slotB 0 16384) false) ∧ (∀ (j : Nat), j ∈ (((s.setRf bootBase 4 1 (if slotB = true then 1 else 0)).setRb bootBase (if slotB = true then 9 else 8) true).setRf bootBase 0 4 1).imageCodes ((((s.setRf bootBase 4 1 (if slotB = true then 1 else 0)).setRb bootBase (if slotB = true then 9 else 8) true).setRf bootBase 0 4 1).flashBytes slotB 0 16384) false → k ≤ j)) :=
  ⟨⟨({ flash := some 2, untrained := [], checks := [], stageBad := false } : BootTry), (by decide +kernel)⟩,
   ⟨(false : Bool), ({ flash := none, untrained := [], checks := [], stageBad := false } : BootTry), (s0 : State), (2305 : Nat), (by decide +kernel), (by decide +kernel), (by decide +kernel)⟩⟩

theorem witness8 :
    (∃ (h : List (BitVec 8)) (late : Bool) (s : State) (c : Nat), c ∈ s.imageCodes h late) :=
  ⟨([] : List (BitVec 8)), (false : Bool), (s0 : State), (2305 : Nat), (by decide +kernel)⟩

theorem witness9 :
    (∃ (o : Otp) (key : List (BitVec 8)), (∀ (j : Nat), j < 4 → ¬(fun (j : Nat) => o.keyv.getLsbD j = true ∧ o.keyrev.getLsbD j = false ∧ (mget 0 o.hash j).toNat = bytesNat (sha3Of512 key)) j)) ∧
    (∃ (o : Otp) (key : List (BitVec 8)) (k : Nat), k < 4 ∧ (o.keyv.getLsbD k = true ∧ o.keyrev.getLsbD k = false ∧ (mget 0 o.hash k).toNat = bytesNat (sha3Of512 key)) ∧ (∀ (j : Nat), j < k → ¬(fun (j : Nat) => o.keyv.getLsbD j = true ∧ o.keyrev.getLsbD j = false ∧ (mget 0 o.hash j).toNat = bytesNat (sha3Of512 key)) j)) :=
  ⟨⟨({ seed := 0x0000000000000000000000000000000000000000000000000000000000000000#256, prov := false, hash := [], keyv := 0x0#4, keyrev := 0x0#4, svnf := 0, lock := false } : Otp), ([] : List (BitVec 8)), (by decide +kernel)⟩,
   ⟨({ seed := 0x0000000000000000000000000000000000000000000000000000000000000000#256, prov := false, hash := [(0, 0x26cd1d2886857501e3d3b6959d1900f558c53a2c40e9e3114cf9f5f13a12b215a6805c47c1dcd1e05958e24f1682c9976e755a18dc67b5c8c59a3aa2cc739fa6#512), (1, 0xcbaa27ea73a38cfe6ac1375c46156e0f91fcab6574410699faabdf4c0cff8e209d700bfa30a9252c58ddd196f228ff821e907f7a66cf476d6e971801761c6ed2#512)], keyv := 0x3#4, keyrev := 0x0#4, svnf := 0, lock := false } : Otp), ([] : List (BitVec 8)), (0 : Nat), (by decide +kernel), (by decide +kernel), (by decide +kernel)⟩⟩

theorem witness11 :
    (∃ (x : BootTry), (∃ (k : Fin 12), x.flash = some k ∧ (↑k : Nat) ≤ 6)) ∧
    (∃ (slotB : Bool) (h : List (BitVec 8)) (x : BootTry) (s : State) (y : BytesAns) (u : State), (¬∃ (k : Fin 12), x.flash = some k ∧ (↑k : Nat) ≤ 6) ∧ (((s.setRf bootBase 0 4 3).bytesPut Master.loader (numAt h 32 8) (List.map some ((s.setRf bootBase 0 4 3).flashBytes slotB 0 (numAt h 16 4))) false).fst.setRf bootBase 0 4 4).bytesGet Master.loader (numAt h 32 8) (numAt h 16 4) = (u, y) ∧ (y.status ≠ 0 ∨ (y.bytes.any fun (x : BitVec 8 × Bool) => x.snd) = true ∨ x.stageBad = true)) ∧
    (∃ (slotB : Bool) (h : List (BitVec 8)) (x : BootTry) (s : State) (y : BytesAns) (u : State), (¬∃ (k : Fin 12), x.flash = some k ∧ (↑k : Nat) ≤ 6) ∧ (((s.setRf bootBase 0 4 3).bytesPut Master.loader (numAt h 32 8) (List.map some ((s.setRf bootBase 0 4 3).flashBytes slotB 0 (numAt h 16 4))) false).fst.setRf bootBase 0 4 4).bytesGet Master.loader (numAt h 32 8) (numAt h 16 4) = (u, y) ∧ (¬(y.status ≠ 0 ∨ (y.bytes.any fun (x : BitVec 8 × Bool) => x.snd) = true ∨ x.stageBad = true))) :=
  ⟨⟨({ flash := some 2, untrained := [], checks := [], stageBad := false } : BootTry), (by decide +kernel)⟩,
   ⟨(false : Bool), ([0x4b#8, 0x57#8, 0x43#8, 0x4e#8, 0x01#8, 0x00#8, 0x01#8, 0x00#8, 0x00#8, 0x00#8, 0x00#8, 0x00#8, 0x00#8, 0x00#8, 0x00#8, 0x00#8, 0x00#8, 0x00#8, 0x00#8, 0x00#8, 0x00#8, 0x00#8, 0x00#8, 0x00#8, 0x00#8, 0x00#8, 0x00#8, 0x00#8, 0x00#8, 0x00#8, 0x00#8, 0x00#8, 0x00#8, 0x00#8, 0x70#8, 0x00#8, 0x43#8, 0x00#8, 0x00#8, 0x00#8, 0x00#8, 0x00#8, 0x00#8, 0x00#8, 0x00#8, 0x00#8, 0x00#8, 0x00#8, 0x00#8, 0x00#8, 0x00#8, 0x00#8, 0x00#8, 0x00#8, 0x00#8, 0x00#8, 0x04#8, 0x00#8, 0x00#8, 0x00#8, 0x00#8, 0x00#8, 0x00#8, 0x00#8, 0x05#8, 0x00#8, 0x00#8, 0x00#8, 0x00#8, 0x40#8, 0x00#8, 0x00#8, 0x0c#8, 0x00#8, 0x00#8, 0x00#8, 0x00#8, 0x00#8, 0x00#8, 0x00#8, 0x00#8, 0x00#8, 0x00#8, 0x00#8, 0x00#8, 0x00#8, 0x00#8, 0x00#8, 0x00#8, 0x00#8, 0x00#8, 0x00#8, 0x00#8, 0x00#8, 0x00#8, 0x00#8] : List (BitVec 8)), ({ flash := none, untrained := [], checks := [], stageBad := true } : BootTry), (s0 : State), _, _, (by decide +kernel), pairEta2 _, (by decide +kernel)⟩,
   ⟨(false : Bool), ([0x4b#8, 0x57#8, 0x43#8, 0x4e#8, 0x01#8, 0x00#8, 0x01#8, 0x00#8, 0x00#8, 0x00#8, 0x00#8, 0x00#8, 0x00#8, 0x00#8, 0x00#8, 0x00#8, 0x00#8, 0x00#8, 0x00#8, 0x00#8, 0x00#8, 0x00#8, 0x00#8, 0x00#8, 0x00#8, 0x00#8, 0x00#8, 0x00#8, 0x00#8, 0x00#8, 0x00#8, 0x00#8, 0x00#8, 0x00#8, 0x70#8, 0x00#8, 0x43#8, 0x00#8, 0x00#8, 0x00#8, 0x00#8, 0x00#8, 0x00#8, 0x00#8, 0x00#8, 0x00#8, 0x00#8, 0x00#8, 0x00#8, 0x00#8, 0x00#8, 0x00#8, 0x00#8, 0x00#8, 0x00#8, 0x00#8, 0x04#8, 0x00#8, 0x00#8, 0x00#8, 0x00#8, 0x00#8, 0x00#8, 0x00#8, 0x05#8, 0x00#8, 0x00#8, 0x00#8, 0x00#8, 0x40#8, 0x00#8, 0x00#8, 0x0c#8, 0x00#8, 0x00#8, 0x00#8, 0x00#8, 0x00#8, 0x00#8, 0x00#8, 0x00#8, 0x00#8, 0x00#8, 0x00#8, 0x00#8, 0x00#8, 0x00#8, 0x00#8, 0x00#8, 0x00#8, 0x00#8, 0x00#8, 0x00#8, 0x00#8, 0x00#8, 0x00#8] : List (BitVec 8)), ({ flash := none, untrained := [], checks := [], stageBad := false } : BootTry), (s0 : State), _, _, (by decide +kernel), pairEta2 _, (by decide +kernel)⟩⟩

theorem witness12 :
    (∃ (o : Nat) (v : Nat) (s : State) (st : Nat) (u : State), s.regWrite Master.loader o 4 v false = (u, st)) :=
  ⟨(0 : Nat), (0 : Nat), (s0 : State), _, _, pairEta2 _⟩

theorem witness13 :
    (∃ (h : List (BitVec 8)) (x : Sect) (s : State) (y : BytesAns) (u : State), s.bytesGet Master.loader (numAt h 32 8 + x.off) x.size = (u, y) ∧ (x.flags % 2 = 1 ∨ x.type = 4 ∨ x.type = 5)) ∧
    (∃ (h : List (BitVec 8)) (x : Sect) (s : State) (y : BytesAns) (u : State), s.bytesGet Master.loader (numAt h 32 8 + x.off) x.size = (u, y) ∧ x.flags % 2 ≠ 1 ∧ x.type = 1) ∧
    (∃ (h : List (BitVec 8)) (x : Sect) (s : State) (y : BytesAns) (u : State) (v : State) (st : Nat) (n : Nat), x.flags % 2 ≠ 1 ∧ x.type = 2 ∧ s.bytesGet Master.loader (numAt h 32 8 + x.off) x.size = (u, y) ∧ (u.bytesPut Master.loader x.target (List.map some (List.map (fun (x : BitVec 8 × Bool) => x.fst) y.bytes)) false = (v, st, n))) :=
  ⟨⟨([0x4b#8, 0x57#8, 0x43#8, 0x4e#8, 0x01#8, 0x00#8, 0x01#8, 0x00#8, 0x00#8, 0x00#8, 0x00#8, 0x00#8, 0x00#8, 0x00#8, 0x00#8, 0x00#8, 0x00#8, 0x00#8, 0x00#8, 0x00#8, 0x00#8, 0x00#8, 0x00#8, 0x00#8, 0x00#8, 0x00#8, 0x00#8, 0x00#8, 0x00#8, 0x00#8, 0x00#8, 0x00#8, 0x00#8, 0x00#8, 0x70#8, 0x00#8, 0x43#8, 0x00#8, 0x00#8, 0x00#8, 0x00#8, 0x00#8, 0x00#8, 0x00#8, 0x00#8, 0x00#8, 0x00#8, 0x00#8, 0x00#8, 0x00#8, 0x00#8, 0x00#8, 0x00#8, 0x00#8, 0x00#8, 0x00#8, 0x04#8, 0x00#8, 0x00#8, 0x00#8, 0x00#8, 0x00#8, 0x00#8, 0x00#8, 0x05#8, 0x00#8, 0x00#8, 0x00#8, 0x00#8, 0x40#8, 0x00#8, 0x00#8, 0x0c#8, 0x00#8, 0x00#8, 0x00#8, 0x00#8, 0x00#8, 0x00#8, 0x00#8, 0x00#8, 0x00#8, 0x00#8, 0x00#8, 0x00#8, 0x00#8, 0x00#8, 0x00#8, 0x00#8, 0x00#8, 0x00#8, 0x00#8, 0x00#8, 0x00#8, 0x00#8, 0x00#8] : List (BitVec 8)), ({ type := 1, flags := 1, arg := 0, off := 16416, size := 16, target := 256 } : Sect), (s0 : State), _, _, pairEta2 _, (by decide +kernel)⟩,
   ⟨([0x4b#8, 0x57#8, 0x43#8, 0x4e#8, 0x01#8, 0x00#8, 0x01#8, 0x00#8, 0x00#8, 0x00#8, 0x00#8, 0x00#8, 0x00#8, 0x00#8, 0x00#8, 0x00#8, 0x00#8, 0x00#8, 0x00#8, 0x00#8, 0x00#8, 0x00#8, 0x00#8, 0x00#8, 0x00#8, 0x00#8, 0x00#8, 0x00#8, 0x00#8, 0x00#8, 0x00#8, 0x00#8, 0x00#8, 0x00#8, 0x70#8, 0x00#8, 0x43#8, 0x00#8, 0x00#8, 0x00#8, 0x00#8, 0x00#8, 0x00#8, 0x00#8, 0x00#8, 0x00#8, 0x00#8, 0x00#8, 0x00#8, 0x00#8, 0x00#8, 0x00#8, 0x00#8, 0x00#8, 0x00#8, 0x00#8, 0x04#8, 0x00#8, 0x00#8, 0x00#8, 0x00#8, 0x00#8, 0x00#8, 0x00#8, 0x05#8, 0x00#8, 0x00#8, 0x00#8, 0x00#8, 0x40#8, 0x00#8, 0x00#8, 0x0c#8, 0x00#8, 0x00#8, 0x00#8, 0x00#8, 0x00#8, 0x00#8, 0x00#8, 0x00#8, 0x00#8, 0x00#8, 0x00#8, 0x00#8, 0x00#8, 0x00#8, 0x00#8, 0x00#8, 0x00#8, 0x00#8, 0x00#8, 0x00#8, 0x00#8, 0x00#8, 0x00#8] : List (BitVec 8)), ({ type := 1, flags := 0, arg := 0, off := 16384, size := 16, target := 0 } : Sect), (s0 : State), _, _, pairEta2 _, (by decide +kernel), (by decide +kernel)⟩,
   ⟨([0x4b#8, 0x57#8, 0x43#8, 0x4e#8, 0x01#8, 0x00#8, 0x01#8, 0x00#8, 0x00#8, 0x00#8, 0x00#8, 0x00#8, 0x00#8, 0x00#8, 0x00#8, 0x00#8, 0x00#8, 0x00#8, 0x00#8, 0x00#8, 0x00#8, 0x00#8, 0x00#8, 0x00#8, 0x00#8, 0x00#8, 0x00#8, 0x00#8, 0x00#8, 0x00#8, 0x00#8, 0x00#8, 0x00#8, 0x00#8, 0x70#8, 0x00#8, 0x43#8, 0x00#8, 0x00#8, 0x00#8, 0x00#8, 0x00#8, 0x00#8, 0x00#8, 0x00#8, 0x00#8, 0x00#8, 0x00#8, 0x00#8, 0x00#8, 0x00#8, 0x00#8, 0x00#8, 0x00#8, 0x00#8, 0x00#8, 0x04#8, 0x00#8, 0x00#8, 0x00#8, 0x00#8, 0x00#8, 0x00#8, 0x00#8, 0x05#8, 0x00#8, 0x00#8, 0x00#8, 0x00#8, 0x40#8, 0x00#8, 0x00#8, 0x0c#8, 0x00#8, 0x00#8, 0x00#8, 0x00#8, 0x00#8, 0x00#8, 0x00#8, 0x00#8, 0x00#8, 0x00#8, 0x00#8, 0x00#8, 0x00#8, 0x00#8, 0x00#8, 0x00#8, 0x00#8, 0x00#8, 0x00#8, 0x00#8, 0x00#8, 0x00#8, 0x00#8] : List (BitVec 8)), ({ type := 2, flags := 0, arg := 0, off := 16384, size := 32, target := 536870912 } : Sect), (s0 : State), _, _, _, _, _, (by decide +kernel), (by decide +kernel), pairEta2 _, pairEta3 _⟩⟩

theorem witness14 :
    (∃ (s : State), (s.boot = none ∨ ∃ (b : BootRun), s.boot = some b ∧ ∃ (c : Nat), c ∈ imgChannels b.head ∧ (s.dram c).filled = false)) :=
  ⟨(s0 : State), (by decide +kernel)⟩

theorem witness15 :
    (∃ (s : State) (b : BootRun) (u : State) (v : State) (l : List (Nat × Nat × Nat)) (e : EnableEnd), (∀ (c : Nat), c ∈ imgChannels b.head → (s.dram c).filled = true) ∧ s.boot = some b ∧ (s.setRf bootBase 0 4 6).enableEntries b.head = (u, l) ∧ u.enableAll b.entry b.planes (List.drop b.entry l) = (v, e)) :=
  ⟨({ boot := some { slotB := false, head := hd.take 6 }, regs := [(bootBase, 6#32)] } : State), ((({ boot := some { slotB := false, head := hd.take 6 }, regs := [(bootBase, 6#32)] } : State)).boot).get (by all_goals decide +kernel), (((({ boot := some { slotB := false, head := hd.take 6 }, regs := [(bootBase, 6#32)] } : State)).setRf bootBase 0 4 6).enableEntries (((({ boot := some { slotB := false, head := hd.take 6 }, regs := [(bootBase, 6#32)] } : State)).boot).get (by all_goals decide +kernel)).head).1, (((((({ boot := some { slotB := false, head := hd.take 6 }, regs := [(bootBase, 6#32)] } : State)).setRf bootBase 0 4 6).enableEntries (((({ boot := some { slotB := false, head := hd.take 6 }, regs := [(bootBase, 6#32)] } : State)).boot).get (by all_goals decide +kernel)).head).1).enableAll (((({ boot := some { slotB := false, head := hd.take 6 }, regs := [(bootBase, 6#32)] } : State)).boot).get (by all_goals decide +kernel)).entry (((({ boot := some { slotB := false, head := hd.take 6 }, regs := [(bootBase, 6#32)] } : State)).boot).get (by all_goals decide +kernel)).planes (List.drop (((({ boot := some { slotB := false, head := hd.take 6 }, regs := [(bootBase, 6#32)] } : State)).boot).get (by all_goals decide +kernel)).entry ((((({ boot := some { slotB := false, head := hd.take 6 }, regs := [(bootBase, 6#32)] } : State)).setRf bootBase 0 4 6).enableEntries (((({ boot := some { slotB := false, head := hd.take 6 }, regs := [(bootBase, 6#32)] } : State)).boot).get (by all_goals decide +kernel)).head).2))).1, (((({ boot := some { slotB := false, head := hd.take 6 }, regs := [(bootBase, 6#32)] } : State)).setRf bootBase 0 4 6).enableEntries (((({ boot := some { slotB := false, head := hd.take 6 }, regs := [(bootBase, 6#32)] } : State)).boot).get (by all_goals decide +kernel)).head).2, (((((({ boot := some { slotB := false, head := hd.take 6 }, regs := [(bootBase, 6#32)] } : State)).setRf bootBase 0 4 6).enableEntries (((({ boot := some { slotB := false, head := hd.take 6 }, regs := [(bootBase, 6#32)] } : State)).boot).get (by all_goals decide +kernel)).head).1).enableAll (((({ boot := some { slotB := false, head := hd.take 6 }, regs := [(bootBase, 6#32)] } : State)).boot).get (by all_goals decide +kernel)).entry (((({ boot := some { slotB := false, head := hd.take 6 }, regs := [(bootBase, 6#32)] } : State)).boot).get (by all_goals decide +kernel)).planes (List.drop (((({ boot := some { slotB := false, head := hd.take 6 }, regs := [(bootBase, 6#32)] } : State)).boot).get (by all_goals decide +kernel)).entry ((((({ boot := some { slotB := false, head := hd.take 6 }, regs := [(bootBase, 6#32)] } : State)).setRf bootBase 0 4 6).enableEntries (((({ boot := some { slotB := false, head := hd.take 6 }, regs := [(bootBase, 6#32)] } : State)).boot).get (by all_goals decide +kernel)).head).2))).2, (by decide +kernel), (by first | decide +kernel | exact someGet _ (by decide +kernel)), (by first | decide +kernel | exact pairEta2 _), (by first | decide +kernel | exact pairEta2 _)⟩

theorem witness16 :
    (∃ (ps : List Nat) (o : Nat) (s : State), (o < 4194304 ∨ 4456448 ≤ o) ∧ (∃ (p : Nat), p ∈ ps ∧ s.rb (planeBase p + 57348) 31 = true)) ∧
    (∃ (ps : List Nat) (o : Nat) (v : Nat) (r : Nat) (s : State) (c : Option Nat) (u : State), (¬((o < 4194304 ∨ 4456448 ≤ o) ∧ ∃ (p : Nat), p ∈ ps ∧ s.rb (planeBase p + 57348) 31 = true)) ∧ s.enableEntry (o, v, r) = (u, c)) ∧
    (∃ (o : Nat) (v : Nat) (s : State) (st : Nat) (u : State), s.regWrite Master.loader o 4 v false = (u, st) ∧ st ≠ 0) ∧
    (∃ (st : Nat) (o : Nat) (v : Nat) (r : Nat) (s : State) (u : State) (y : State) (sr : Nat) (n : Nat), st = 0 ∧ s.regWrite Master.loader o 4 v false = (u, st) ∧ u.regRead Master.loader r 4 = (y, sr, n)) :=
  ⟨⟨([0] : List Nat), (0 : Nat), ({ regs := [(planeBase 0 + 0xE004, 0x80000000#32)] } : State), (by decide +kernel), (by decide +kernel)⟩,
   ⟨([] : List Nat), (0 : Nat), (0 : Nat), (0 : Nat), (s0 : State), _, _, (by decide +kernel), pairEta2 _⟩,
   ⟨(1 : Nat), (0 : Nat), (s0 : State), _, _, pairEta2 _, (by decide +kernel)⟩,
   ⟨_, (0 : Nat), (0 : Nat), (0 : Nat), (s0 : State), (((s0 : State)).regWrite Master.loader ((0 : Nat)) 4 ((0 : Nat)) false).1, _, _, _, rfl, (by decide +kernel), pairEta3 _⟩⟩

theorem witness17 :
    (∃ (b : BootRun), b.slotB = true) :=
  ⟨({ slotB := true, head := [], entry := 0, planes := [] } : BootRun), (by decide +kernel)⟩

theorem witness18 :
    (∃ (h : List (BitVec 8)) (slot : Nat) (s : State), ({ s.otp with keyrev := s.otp.keyrev ||| setBit (BitVec.ofNat 4 (numAt h 26 1)) slot false, svnf := if numAt h 27 1 % 2 = 1 ∧ s.otp.svnf < numAt h 25 1 then min 64 (numAt h 25 1) else s.otp.svnf } = s.otp)) ∧
    (∃ (h : List (BitVec 8)) (slot : Nat) (s : State), ({ s.otp with keyrev := s.otp.keyrev ||| setBit (BitVec.ofNat 4 (numAt h 26 1)) slot false, svnf := if numAt h 27 1 % 2 = 1 ∧ s.otp.svnf < numAt h 25 1 then min 64 (numAt h 25 1) else s.otp.svnf } ≠ s.otp)) :=
  ⟨⟨([] : List (BitVec 8)), (0 : Nat), (s0 : State), (by decide +kernel)⟩,
   ⟨([0x01#8, 0x01#8, 0x01#8, 0x01#8, 0x01#8, 0x01#8, 0x01#8, 0x01#8, 0x01#8, 0x01#8, 0x01#8, 0x01#8, 0x01#8, 0x01#8, 0x01#8, 0x01#8, 0x01#8, 0x01#8, 0x01#8, 0x01#8, 0x01#8, 0x01#8, 0x01#8, 0x01#8, 0x01#8, 0x01#8, 0x01#8, 0x01#8, 0x01#8, 0x01#8, 0x01#8, 0x01#8, 0x01#8, 0x01#8, 0x01#8, 0x01#8, 0x01#8, 0x01#8, 0x01#8, 0x01#8, 0x01#8, 0x01#8, 0x01#8, 0x01#8, 0x01#8, 0x01#8, 0x01#8, 0x01#8, 0x01#8, 0x01#8, 0x01#8, 0x01#8, 0x01#8, 0x01#8, 0x01#8, 0x01#8, 0x01#8, 0x01#8, 0x01#8, 0x01#8, 0x01#8, 0x01#8, 0x01#8, 0x01#8] : List (BitVec 8)), (0 : Nat), (s0 : State), (by decide +kernel)⟩⟩

theorem witness19 :
    (∃ (s : State), s.otp.lock = true) ∧
    (∃ (s : State), s.otp.lock = false) :=
  ⟨⟨({ s0 with otp := { prov := true, keyv := 3, lock := true, hash := [(1, 5)] }, signals := { porN := true } } : State), (by decide +kernel)⟩,
   ⟨(s0 : State), (by decide +kernel)⟩⟩

theorem witness20 :
    (∃ (m : Master), m ≠ Master.puppeteer) ∧
    (∃ (m : Master) (v : Word32), m = Master.puppeteer ∧ fld v 0 16 < 32768) ∧
    (∃ (m : Master) (v : Word32), m = Master.puppeteer ∧ 32768 ≤ fld v 0 16) :=
  ⟨⟨(Sys2Proof.Master.host : Master), (by decide +kernel)⟩,
   ⟨_, (0x00000000#32 : Word32), rfl, (by decide +kernel)⟩,
   ⟨_, (0x00008001#32 : Word32), rfl, (by decide +kernel)⟩⟩

theorem witness21 :
    (∃ (kind : Nat) (s : State), ((if s.lbSecond.fst = s.now / 1000000000 then s.lbSecond.snd else 0) < 1000 ∨ kind = 240)) ∧
    (∃ (kind : Nat) (s : State), ((if s.lbSecond.fst = s.now / 1000000000 then s.lbSecond.snd else 0) = 1000) ∧ kind ≠ 240) ∧
    (∃ (kind : Nat) (s : State), (1000 < if s.lbSecond.fst = s.now / 1000000000 then s.lbSecond.snd else 0) ∧ kind ≠ 240) :=
  ⟨⟨(5 : Nat), (s0 : State), (by decide +kernel)⟩,
   ⟨(5 : Nat), ({ lbIdx := 194559, regs := [(testBase + 0x34, 77#32), (testBase + 0x20, 0x5555#32), (testBase + 0x10, 0x40000#32)], lbSecond := (3, 1000), now := 3000000001, mem := lm 0x14 [9] } : State), (by decide +kernel), (by decide +kernel)⟩,
   ⟨(5 : Nat), ({ lbIdx := 0, regs := [(testBase + 0x34, 77#32)], lbSecond := (3, 1001), now := 3000000001, mem := lm 0x14 [9] } : State), (by decide +kernel), (by decide +kernel)⟩⟩

theorem witness22 :
    (∃ (s : State), s.lbHead = some (s.now / 1000000000)) ∧
    (∃ (s : State), s.lbHead ≠ some (s.now / 1000000000)) :=
  ⟨⟨({ s0 with lbHead := some 0, lbIdx := 5 } : State), (by decide +kernel)⟩,
   ⟨(s0 : State), (by decide +kernel)⟩⟩

theorem witness23 :
    (∃ (m : Master), m ≠ Master.puppeteer) ∧
    (∃ (m : Master), m = Master.puppeteer) :=
  ⟨⟨(Sys2Proof.Master.host : Master), (by decide +kernel)⟩,
   ⟨_, rfl⟩⟩

theorem witness24 :
    (∃ (s : State), s.dead = true) ∧
    (∃ (s : State), s.dead = false ∧ s.rb tdmBase 0 = true ∧ s.rf (tdmBase + 8) 24 3 ≠ 0) ∧
    (∃ (s : State) (n : Nat), s.dead = false ∧ n < 17) ∧
    (∃ (s : State) (p : Nat), s.dead = false ∧ p < 4 ∧ s.rb (planeBase p + 57348) 31 = true) :=
  ⟨⟨(sDead : State), (by decide +kernel)⟩,
   ⟨({ regs := [(tdmBase, 1#32), (tdmBase + 8, 0x14000000#32)], now := 55 } : State), (by decide +kernel), (by decide +kernel), (by decide +kernel)⟩,
   ⟨(s0 : State), (1 : Nat), (by decide +kernel), (by decide +kernel)⟩,
   ⟨({ regs := [(planeBase 2 + 0xE004, 0x80000000#32)] } : State), (2 : Nat), (by decide +kernel), (by decide +kernel), (by decide +kernel)⟩⟩

theorem witness25 :
    (∃ (s : State), (s.dead = false ∨ s.rf (testBase + 68) 29 3 = 4 ∨ (s.core 16).st = CoreState.fatal)) ∧
    (∃ (s : State) (a : Nat), (¬(s.dead = false ∨ s.rf (testBase + 68) 29 3 = 4 ∨ (s.core 16).st = CoreState.fatal)) ∧ a < 2 ^ 38) ∧
    (∃ (s : State), (¬(s.dead = false ∨ s.rf (testBase + 68) 29 3 = 4 ∨ (s.core 16).st = CoreState.fatal)) ∧ s.lbIdx < 194560) :=
  ⟨⟨(s0 : State), (by decide +kernel)⟩,
   ⟨({ regs := [(testBase + 0x44, 0x2005000F#32), (testBase + 0x40, 5#32)], mem := lm 0x14 [15] } : State), (0 : Nat), (by decide +kernel), (by decide +kernel)⟩,
   ⟨({ regs := [(testBase + 0x44, 0x2005000F#32), (testBase + 0x40, 5#32)], mem := lm 0x14 [15] } : State), (by decide +kernel), (by decide +kernel)⟩⟩

theorem witness26 :
    (∃ (p : Piece), p.off + p.size ≤ 536870912 ∧ 0 < p.size) :=
  ⟨({ off := 0, val := 5, size := 4 } : Piece), (by decide +kernel), (by decide +kernel)⟩

end BootResetAndTheFatalPath

/-! Witnesses of `Obligations.TheTandemPairsComparesAndHandsOver`. -/
namespace TheTandemPairsComparesAndHandsOver

def tb : Nat := tdmBase
def tq (r : Map Word32) (td : Tandem := {}) (q : Queue := { on := true, ll := true }) : State := { regs := r ++ [(tb + 0x18, 5#32), (queueBase 5, 1#32), (bootBase + 0x24, 7#32), (tb + 0x10, 9#32), (tb + 0x1C, 0x100001#32), (bootBase, 7#32), (bootBase + 0x28, 0xFF#32)], tandem := td, queues := [(5, q)], now := 50000 }
def rcd (i : Nat) (pl : Nat := 0) : TRec := { bits := BitVec.ofNat 120 (0x7700000000000000000000 + i), poison := false, placed := pl }
def smp (v : Nat) (e : Bool) : QSamp := let c : Chan := { v := BitVec.ofNat 20 v, e := e }; { c := c, par := (ones c.v 20 + b2n c.e) % 2 == 1 }
def six : List QSamp := [smp 5 false, smp 1 false, smp 2 false, smp 3 false, smp 4 false, smp 6 true]
def ts (st : Nat) (capt : Bool) (lanes miss : Nat) : Word32 := BitVec.ofNat 32 (st * 2^29 + (if capt then 2^28 else 0) + lanes * 2^24 + miss * 2^16)

theorem witness0 :
    (∃ (s : State), s.dead = false ∧ s.rb tdmBase 0 = true) ∧
    (∃ (v : Word32) (s : State), s.dead = false ∧ s.rb tdmBase 0 = false ∧ (s.writeFields tdmBase { rw := 4278190080#32, rwl := 3211264#32, w1c := 0, en := tdmBase, enBit := 0 : RegSpec } (setBit v 0 true)).tdmCheck (setBit v 0 true) = []) ∧
    (∃ (v : Word32) (s : State) (c : Nat), s.dead = false ∧ c ∈ (s.writeFields tdmBase { rw := 4278190080#32, rwl := 3211264#32, w1c := 0, en := tdmBase, enBit := 0 : RegSpec } (setBit v 0 true)).tdmCheck (setBit v 0 true) ∧ s.rb tdmBase 0 = false ∧ (∀ (d : Nat), d ∈ (s.writeFields tdmBase { rw := 4278190080#32, rwl := 3211264#32, w1c := 0, en := tdmBase, enBit := 0 : RegSpec } (setBit v 0 true)).tdmCheck (setBit v 0 true) → c ≤ d)) :=
  ⟨⟨({ tq [(tb, 1#32), (tb + 8, ts 1 false 4 0), (tb+0x30, 0x7FF0000#32)] with signals := { role := true } } : State), (by decide +kernel), (by decide +kernel)⟩,
   ⟨(0x00000000#32 : Word32), (tq [] : State), (by decide +kernel), (by decide +kernel), (by decide +kernel)⟩,
   ⟨(0x00000000#32 : Word32), (s0 : State), (2562 : Nat), (by decide +kernel), (by decide +kernel), (by decide +kernel), (by decide +kernel)⟩⟩

theorem witness1 :
    (∃ (v : Word32) (s : State) (c : Nat), c ∈ s.tdmCheck v) :=
  ⟨(0x00000000#32 : Word32), (s0 : State), (2562 : Nat), (by decide +kernel)⟩

theorem witness3 :
    (∃ (s : State), s.dead = false ∧ (¬(s.rb tdmBase 0 = true ∧ s.rf (tdmBase + 8) 29 3 = 1 ∧ s.rf (tdmBase + 8) 24 3 ≠ 0))) ∧
    (∃ (pairid : Word32) (hash : BitVec 64) (roles : BitVec 8) (capt : Bool) (solo : Bool) (s : State), s.dead = false ∧ (s.rb tdmBase 0 = true ∧ s.rf (tdmBase + 8) 29 3 = 1 ∧ s.rf (tdmBase + 8) 24 3 ≠ 0) ∧ s.helloCodes { pairid := pairid, hash := hash, roles := roles, captain := capt, solo := solo : HelloMsg } = []) ∧
    (∃ (pairid : Word32) (hash : BitVec 64) (roles : BitVec 8) (capt : Bool) (solo : Bool) (s : State) (c : Nat), s.dead = false ∧ c ∈ s.helloCodes { pairid := pairid, hash := hash, roles := roles, captain := capt, solo := solo : HelloMsg } ∧ (s.rb tdmBase 0 = true ∧ s.rf (tdmBase + 8) 29 3 = 1 ∧ s.rf (tdmBase + 8) 24 3 ≠ 0) ∧ (∀ (d : Nat), d ∈ s.helloCodes { pairid := pairid, hash := hash, roles := roles, captain := capt, solo := solo : HelloMsg } → c ≤ d)) :=
  ⟨⟨(s0 : State), (by decide +kernel), (by decide +kernel)⟩,
   ⟨(0x00000007#32 : Word32), (0x0000000000000009#64 : BitVec 64), (0x03#8 : BitVec 8), (false : Bool), (false : Bool), ({ tq [(tb, 1#32), (tb + 8, ts 1 false 4 0), (tb+0x30, 0x7FF0000#32)] with signals := { role := true } } : State), (by decide +kernel), (by decide +kernel), (by decide +kernel)⟩,
   ⟨(0x00000000#32 : Word32), (0x0000000000000009#64 : BitVec 64), (0x03#8 : BitVec 8), (false : Bool), (false : Bool), ({ tq [(tb, 1#32), (tb + 8, ts 1 false 4 0), (tb+0x30, 0x7FF0000#32)] with signals := { role := true } } : State), (2564 : Nat), (by decide +kernel), (by decide +kernel), (by decide +kernel), (by decide +kernel)⟩⟩

theorem witness4 :
    (∃ (s : State), s.dead = false ∧ (¬(s.rb tdmBase 0 = true ∧ s.rf (tdmBase + 8) 24 3 ≠ 0 ∧ s.now % 10000 = 0))) ∧
    (∃ (s : State), s.dead = false ∧ (s.rb tdmBase 0 = true ∧ s.rf (tdmBase + 8) 24 3 ≠ 0 ∧ s.now % 10000 = 0)) :=
  ⟨⟨(s0 : State), (by decide +kernel), (by decide +kernel)⟩,
   ⟨({ tq [(tb, 1#32), (tb + 8, ts 1 false 4 0), (tb+0x30, 0x7FF0000#32)] with signals := { role := true } } : State), (by decide +kernel), (by decide +kernel)⟩⟩

theorem witness5 :
    (∃ (s : State), s.dead = false ∧ (¬(s.rb tdmBase 0 = true ∧ s.rf (tdmBase + 8) 24 3 ≠ 0))) ∧
    (∃ (time : BitVec 64) (s : State), s.dead = false ∧ (s.rb tdmBase 0 = true ∧ s.rf (tdmBase + 8) 24 3 ≠ 0) ∧ ((↑time.toNat : Int) + 500 - (↑s.now : Int)).natAbs ≤ s.rf (tdmBase + 28) 16 16) ∧
    (∃ (time : BitVec 64) (s : State), s.dead = false ∧ (s.rb tdmBase 0 = true ∧ s.rf (tdmBase + 8) 24 3 ≠ 0) ∧ s.rf (tdmBase + 28) 16 16 < ((↑time.toNat : Int) + 500 - (↑s.now : Int)).natAbs) :=
  ⟨⟨(s0 : State), (by decide +kernel), (by decide +kernel)⟩,
   ⟨(0x000000000000c166#64 : BitVec 64), ({ tq [(tb, 1#32), (tb + 8, ts 1 false 4 0), (tb+0x30, 0x7FF0000#32)] with signals := { role := true } } : State), (by decide +kernel), (by decide +kernel), (by decide +kernel)⟩,
   ⟨(0x0000000000000009#64 : BitVec 64), ({ tq [(tb, 1#32), (tb + 8, ts 1 false 4 0), (tb+0x30, 0x7FF0000#32)] with signals := { role := true } } : State), (by decide +kernel), (by decide +kernel), (by decide +kernel)⟩⟩

theorem witness6 :
    (∃ (s : State), s.dead = false ∧ (¬(s.rb tdmBase 0 = true ∧ (s.rf (tdmBase + 8) 29 3 = 2 ∨ s.tandem.beat ≠ 0) ∧ s.rf (tdmBase + 8) 16 2 ≠ 3 ∧ s.tandem.beat + 12000 + 10000 * s.rf (tdmBase + 8) 16 2 ≤ s.now))) ∧
    (∃ (s : State), s.dead = false ∧ (s.rb tdmBase 0 = true ∧ (s.rf (tdmBase + 8) 29 3 = 2 ∨ s.tandem.beat ≠ 0) ∧ s.rf (tdmBase + 8) 16 2 ≠ 3 ∧ s.tandem.beat + 12000 + 10000 * s.rf (tdmBase + 8) 16 2 ≤ s.now) ∧ s.rf (tdmBase + 8) 16 2 ≠ 2) ∧
    (∃ (s : State), s.dead = false ∧ (s.rb tdmBase 0 = true ∧ (s.rf (tdmBase + 8) 29 3 = 2 ∨ s.tandem.beat ≠ 0) ∧ s.rf (tdmBase + 8) 16 2 ≠ 3 ∧ s.tandem.beat + 12000 + 10000 * s.rf (tdmBase + 8) 16 2 ≤ s.now) ∧ s.rf (tdmBase + 8) 16 2 = 2) :=
  ⟨⟨(s0 : State), (by decide +kernel), (by decide +kernel)⟩,
   ⟨(tq [(tb, 1#32), (tb + 8, ts 2 false 1 0)] { mine := [rcd 5 45000] } : State), (by decide +kernel), (by decide +kernel), (by decide +kernel)⟩,
   ⟨(tq [(tb, 1#32), (tb + 8, ts 2 true 4 2)] { mine := [rcd 5], part := [{ v := 1 }] } : State), (by decide +kernel), (by decide +kernel), (by decide +kernel)⟩⟩

theorem witness7 :
    (∃ (s : State), s.dead = false ∧ (¬(s.rb tdmBase 0 = true ∧ s.rf (tdmBase + 8) 29 3 = 2))) ∧
    (∃ (s : State), s.dead = false ∧ s.rb tdmBase 0 = true ∧ s.rf (tdmBase + 8) 29 3 = 2) :=
  ⟨⟨(s0 : State), (by decide +kernel), (by decide +kernel)⟩,
   ⟨(tq [(tb, 1#32), (tb + 8, ts 2 true 4 2)] { mine := [rcd 5], part := [{ v := 1 }] } : State), (by decide +kernel), (by decide +kernel), (by decide +kernel)⟩⟩

theorem witness8 :
    (∃ (s : State), s.rf (tdmBase + 8) 29 3 ≠ 2) ∧
    (∃ (s : State), s.rf (tdmBase + 8) 29 3 = 2 ∧ s.rb (tdmBase + 8) 28 = true) ∧
    (∃ (s : State), s.rf (tdmBase + 8) 29 3 = 2 ∧ s.rb (tdmBase + 8) 28 = false ∧ s.rb tdmBase 16 = true) ∧
    (∃ (s : State), s.rf (tdmBase + 8) 29 3 = 2 ∧ s.rb (tdmBase + 8) 28 = false ∧ s.rb tdmBase 16 = false) :=
  ⟨⟨(s0 : State), (by decide +kernel)⟩,
   ⟨(tq [(tb, 1#32), (tb + 8, ts 2 true 4 2)] { mine := [rcd 5], part := [{ v := 1 }] } : State), (by decide +kernel), (by decide +kernel)⟩,
   ⟨(tq [(tb, 0x00010001#32), (tb + 8, ts 2 false 4 2)] { mine := [rcd 5], theirs := [rcd 6] } : State), (by decide +kernel), (by decide +kernel), (by decide +kernel)⟩,
   ⟨(tq [(tb, 1#32), (tb + 8, ts 2 false 2 2)] { mine := [rcd 5] } : State), (by decide +kernel), (by decide +kernel), (by decide +kernel)⟩⟩

theorem witness9 :
    (∃ (s : State), s.dead = false ∧ s.rf (tdmBase + 8) 24 3 = 0) ∧
    (∃ (s : State), s.dead = false ∧ 2 < s.rf (tdmBase + 8) 24 3) ∧
    (∃ (s : State), s.dead = false ∧ s.rf (tdmBase + 8) 24 3 = 2) ∧
    (∃ (s : State), s.dead = false ∧ s.rf (tdmBase + 8) 24 3 = 1) :=
  ⟨⟨(s0 : State), (by decide +kernel), (by decide +kernel)⟩,
   ⟨(tq [(tb + 8, ts 0 false 4 0)] : State), (by decide +kernel), (by decide +kernel)⟩,
   ⟨(tq [(tb, 1#32), (tb + 8, ts 2 false 2 2)] { mine := [rcd 5] } : State), (by decide +kernel), (by decide +kernel)⟩,
   ⟨(tq [(tb, 1#32), (tb + 8, ts 2 false 1 0)] { mine := [rcd 5 45000] } : State), (by decide +kernel), (by decide +kernel)⟩⟩

theorem witness10 :
    (∃ (lanes : Fin 5) (s : State), s.dead = false ∧ (¬(s.rb tdmBase 0 = true ∧ lanes ≠ 0 ∧ (s.rf (tdmBase + 8) 29 3 = 1 ∨ s.rf (tdmBase + 8) 29 3 = 3)))) ∧
    (∃ (lanes : Fin 5) (s : State), s.dead = false ∧ (s.rb tdmBase 0 = true ∧ lanes ≠ 0 ∧ (s.rf (tdmBase + 8) 29 3 = 1 ∨ s.rf (tdmBase + 8) 29 3 = 3))) :=
  ⟨⟨(0 : Fin 5), (s0 : State), (by decide +kernel), (by decide +kernel)⟩,
   ⟨(1 : Fin 5), ({ tq [(tb, 1#32), (tb + 8, ts 1 false 4 0), (tb+0x30, 0x7FF0000#32)] with signals := { role := true } } : State), (by decide +kernel), (by decide +kernel)⟩⟩

theorem witness11 :
    (∃ (s : State), s.dead = false ∧ (¬(s.compares = true ∧ s.tandem.theirs.length < 256))) ∧
    (∃ (bits : BitVec 120) (s : State), s.dead = false ∧ (s.compares = true ∧ s.tandem.theirs.length < 256) ∧ bits.toNat % 2 ^ 40 ∈ s.tandem.missed) ∧
    (∃ (bits : BitVec 120) (s : State), s.dead = false ∧ (s.compares = true ∧ s.tandem.theirs.length < 256) ∧ (¬bits.toNat % 2 ^ 40 ∈ s.tandem.missed)) :=
  ⟨⟨(s0 : State), (by decide +kernel), (by decide +kernel)⟩,
   ⟨(0x000000007700000000000000000005#120 : BitVec 120), (tq [(tb, 1#32), (tb + 8, ts 2 true 4 0)] { missed := [5, 1048581] } : State), (by decide +kernel), (by decide +kernel), (by decide +kernel)⟩,
   ⟨(0x000000007700000000000000000005#120 : BitVec 120), (tq [(tb, 1#32), (tb + 8, ts 2 true 4 2)] { mine := [rcd 5], part := [{ v := 1 }] } : State), (by decide +kernel), (by decide +kernel), (by decide +kernel)⟩⟩

theorem witness12 :
    (∃ (own : Bool) (x : TRec) (s : State) (y : TRec), (List.find? (fun (z : TRec) => z.bits.toNat % 2 ^ 40 == x.bits.toNat % 2 ^ 40) (if own = true then s.tandem.theirs else s.tandem.mine) = some y) ∧ (x.poison = true ∨ y.poison = true)) ∧
    (∃ (own : Bool) (x : TRec) (s : State) (y : TRec), (List.find? (fun (z : TRec) => z.bits.toNat % 2 ^ 40 == x.bits.toNat % 2 ^ 40) (if own = true then s.tandem.theirs else s.tandem.mine) = some y) ∧ x.poison = false ∧ y.poison = false ∧ x.bits = y.bits) ∧
    (∃ (own : Bool) (x : TRec) (s : State) (y : TRec), (List.find? (fun (z : TRec) => z.bits.toNat % 2 ^ 40 == x.bits.toNat % 2 ^ 40) (if own = true then s.tandem.theirs else s.tandem.mine) = some y) ∧ x.poison = false ∧ y.poison = false ∧ x.bits ≠ y.bits) ∧
    (∃ (own : Bool) (x : TRec) (s : State), (∀ (z : TRec), (z ∈ if own = true then s.tandem.theirs else s.tandem.mine) → z.bits.toNat % 2 ^ 40 ≠ x.bits.toNat % 2 ^ 40) ∧ (∃ (z : TRec), (z ∈ if own = true then s.tandem.mine else s.tandem.theirs) ∧ z.bits.toNat % 2 ^ 40 = x.bits.toNat % 2 ^ 40)) ∧
    (∃ (own : Bool) (x : TRec) (s : State), (∀ (z : TRec), (z ∈ if own = true then s.tandem.theirs else s.tandem.mine) → z.bits.toNat % 2 ^ 40 ≠ x.bits.toNat % 2 ^ 40) ∧ (∀ (z : TRec), (z ∈ if own = true then s.tandem.mine else s.tandem.theirs) → z.bits.toNat % 2 ^ 40 ≠ x.bits.toNat % 2 ^ 40)) :=
  ⟨⟨(false : Bool), ({ bits := 0x000000007700000000000000000005#120, poison := true, placed := 0 } : TRec), (tq [(tb, 1#32), (tb + 8, ts 2 true 4 2)] { mine := [rcd 5], part := [{ v := 1 }] } : State), _, someGet _ (by decide +kernel), (by decide +kernel)⟩,
   ⟨(false : Bool), ({ bits := 0x000000007700000000000000000005#120, poison := false, placed := 0 } : TRec), (tq [(tb, 1#32), (tb + 8, ts 2 true 4 2)] { mine := [rcd 5], part := [{ v := 1 }] } : State), _, someGet _ (by decide +kernel), (by decide +kernel), (by decide +kernel), (by decide +kernel)⟩,
   ⟨(false : Bool), ({ bits := 0x000000047700000000000000000005#120, poison := false, placed := 0 } : TRec), (tq [(tb, 1#32), (tb + 8, ts 2 true 4 2)] { mine := [rcd 5], part := [{ v := 1 }] } : State), _, someGet _ (by decide +kernel), (by decide +kernel), (by decide +kernel), (by decide +kernel)⟩,
   ⟨(false : Bool), ({ bits := 0x000000007700000000000000000006#120, poison := false, placed := 0 } : TRec), (tq [(tb, 0x00010001#32), (tb + 8, ts 2 false 4 2)] { mine := [rcd 5], theirs := [rcd 6] } : State), (by decide +kernel), (by decide +kernel)⟩,
   ⟨(false : Bool), ({ bits := 0x000000007700000000000000000005#120, poison := false, placed := 0 } : TRec), (s0 : State), (by decide +kernel), (by decide +kernel)⟩⟩

theorem witness13 :
    (∃ (kind : Nat) (id : Nat) (s : State), (¬(((((s.setRg (tdmBase + 32) (satInc32 (s.rg (tdmBase + 32)))).setRg (tdmBase + 36) (BitVec.ofNat 32 (2 ^ 31 + kind * 2 ^ 24 + id / 2 ^ 20 % 2 ^ 20))).setRg (tdmBase + 40) (BitVec.ofNat 32 (id % 2 ^ 20))).tdmEvent 3).rf tdmBase 24 8 ≠ 0 ∧ ((((s.setRg (tdmBase + 32) (satInc32 (s.rg (tdmBase + 32)))).setRg (tdmBase + 36) (BitVec.ofNat 32 (2 ^ 31 + kind * 2 ^ 24 + id / 2 ^ 20 % 2 ^ 20))).setRg (tdmBase + 40) (BitVec.ofNat 32 (id % 2 ^ 20))).tdmEvent 3).rf tdmBase 24 8 ≤ BitVec.toNat (((((s.setRg (tdmBase + 32) (satInc32 (s.rg (tdmBase + 32)))).setRg (tdmBase + 36) (BitVec.ofNat 32 (2 ^ 31 + kind * 2 ^ 24 + id / 2 ^ 20 % 2 ^ 20))).setRg (tdmBase + 40) (BitVec.ofNat 32 (id % 2 ^ 20))).tdmEvent 3).rg (tdmBase + 32)) ∧ s.tandem.acted = false))) ∧
    (∃ (kind : Nat) (id : Nat) (s : State), (((((s.setRg (tdmBase + 32) (satInc32 (s.rg (tdmBase + 32)))).setRg (tdmBase + 36) (BitVec.ofNat 32 (2 ^ 31 + kind * 2 ^ 24 + id / 2 ^ 20 % 2 ^ 20))).setRg (tdmBase + 40) (BitVec.ofNat 32 (id % 2 ^ 20))).tdmEvent 3).rf tdmBase 24 8 ≠ 0 ∧ ((((s.setRg (tdmBase + 32) (satInc32 (s.rg (tdmBase + 32)))).setRg (tdmBase + 36) (BitVec.ofNat 32 (2 ^ 31 + kind * 2 ^ 24 + id / 2 ^ 20 % 2 ^ 20))).setRg (tdmBase + 40) (BitVec.ofNat 32 (id % 2 ^ 20))).tdmEvent 3).rf tdmBase 24 8 ≤ BitVec.toNat (((((s.setRg (tdmBase + 32) (satInc32 (s.rg (tdmBase + 32)))).setRg (tdmBase + 36) (BitVec.ofNat 32 (2 ^ 31 + kind * 2 ^ 24 + id / 2 ^ 20 % 2 ^ 20))).setRg (tdmBase + 40) (BitVec.ofNat 32 (id % 2 ^ 20))).tdmEvent 3).rg (tdmBase + 32)) ∧ s.tandem.acted = false) ∧ (((((s.setRg (tdmBase + 32) (satInc32 (s.rg (tdmBase + 32)))).setRg (tdmBase + 36) (BitVec.ofNat 32 (2 ^ 31 + kind * 2 ^ 24 + id / 2 ^ 20 % 2 ^ 20))).setRg (tdmBase + 40) (BitVec.ofNat 32 (id % 2 ^ 20))).tdmEvent 3).rf tdmBase 20 2 = 0 ∨ ((((s.setRg (tdmBase + 32) (satInc32 (s.rg (tdmBase + 32)))).setRg (tdmBase + 36) (BitVec.ofNat 32 (2 ^ 31 + kind * 2 ^ 24 + id / 2 ^ 20 % 2 ^ 20))).setRg (tdmBase + 40) (BitVec.ofNat 32 (id % 2 ^ 20))).tdmEvent 3).rf tdmBase 20 2 = 3)) ∧
    (∃ (kind : Nat) (id : Nat) (s : State), (((((s.setRg (tdmBase + 32) (satInc32 (s.rg (tdmBase + 32)))).setRg (tdmBase + 36) (BitVec.ofNat 32 (2 ^ 31 + kind * 2 ^ 24 + id / 2 ^ 20 % 2 ^ 20))).setRg (tdmBase + 40) (BitVec.ofNat 32 (id % 2 ^ 20))).tdmEvent 3).rf tdmBase 24 8 ≠ 0 ∧ ((((s.setRg (tdmBase + 32) (satInc32 (s.rg (tdmBase + 32)))).setRg (tdmBase + 36) (BitVec.ofNat 32 (2 ^ 31 + kind * 2 ^ 24 + id / 2 ^ 20 % 2 ^ 20))).setRg (tdmBase + 40) (BitVec.ofNat 32 (id % 2 ^ 20))).tdmEvent 3).rf tdmBase 24 8 ≤ BitVec.toNat (((((s.setRg (tdmBase + 32) (satInc32 (s.rg (tdmBase + 32)))).setRg (tdmBase + 36) (BitVec.ofNat 32 (2 ^ 31 + kind * 2 ^ 24 + id / 2 ^ 20 % 2 ^ 20))).setRg (tdmBase + 40) (BitVec.ofNat 32 (id % 2 ^ 20))).tdmEvent 3).rg (tdmBase + 32)) ∧ s.tandem.acted = false) ∧ ((((s.setRg (tdmBase + 32) (satInc32 (s.rg (tdmBase + 32)))).setRg (tdmBase + 36) (BitVec.ofNat 32 (2 ^ 31 + kind * 2 ^ 24 + id / 2 ^ 20 % 2 ^ 20))).setRg (tdmBase + 40) (BitVec.ofNat 32 (id % 2 ^ 20))).tdmEvent 3).rf tdmBase 20 2 = 1 ∧ ({ ((((s.setRg (tdmBase + 32) (satInc32 (s.rg (tdmBase + 32)))).setRg (tdmBase + 36) (BitVec.ofNat 32 (2 ^ 31 + kind * 2 ^ 24 + id / 2 ^ 20 % 2 ^ 20))).setRg (tdmBase + 40) (BitVec.ofNat 32 (id % 2 ^ 20))).tdmEvent 3) with tandem := { s.tandem with acted := true } }.tdmEvent 4).rb (tdmBase + 8) 28 = true) ∧
    (∃ (kind : Nat) (id : Nat) (s : State), (((((s.setRg (tdmBase + 32) (satInc32 (s.rg (tdmBase + 32)))).setRg (tdmBase + 36) (BitVec.ofNat 32 (2 ^ 31 + kind * 2 ^ 24 + id / 2 ^ 20 % 2 ^ 20))).setRg (tdmBase + 40) (BitVec.ofNat 32 (id % 2 ^ 20))).tdmEvent 3).rf tdmBase 24 8 ≠ 0 ∧ ((((s.setRg (tdmBase + 32) (satInc32 (s.rg (tdmBase + 32)))).setRg (tdmBase + 36) (BitVec.ofNat 32 (2 ^ 31 + kind * 2 ^ 24 + id / 2 ^ 20 % 2 ^ 20))).setRg (tdmBase + 40) (BitVec.ofNat 32 (id % 2 ^ 20))).tdmEvent 3).rf tdmBase 24 8 ≤ BitVec.toNat (((((s.setRg (tdmBase + 32) (satInc32 (s.rg (tdmBase + 32)))).setRg (tdmBase + 36) (BitVec.ofNat 32 (2 ^ 31 + kind * 2 ^ 24 + id / 2 ^ 20 % 2 ^ 20))).setRg (tdmBase + 40) (BitVec.ofNat 32 (id % 2 ^ 20))).tdmEvent 3).rg (tdmBase + 32)) ∧ s.tandem.acted = false) ∧ ((((s.setRg (tdmBase + 32) (satInc32 (s.rg (tdmBase + 32)))).setRg (tdmBase + 36) (BitVec.ofNat 32 (2 ^ 31 + kind * 2 ^ 24 + id / 2 ^ 20 % 2 ^ 20))).setRg (tdmBase + 40) (BitVec.ofNat 32 (id % 2 ^ 20))).tdmEvent 3).rf tdmBase 20 2 = 1 ∧ ({ ((((s.setRg (tdmBase + 32) (satInc32 (s.rg (tdmBase + 32)))).setRg (tdmBase + 36) (BitVec.ofNat 32 (2 ^ 31 + kind * 2 ^ 24 + id / 2 ^ 20 % 2 ^ 20))).setRg (tdmBase + 40) (BitVec.ofNat 32 (id % 2 ^ 20))).tdmEvent 3) with tandem := { s.tandem with acted := true } }.tdmEvent 4).rb (tdmBase + 8) 28 = false) ∧
    (∃ (kind : Nat) (id : Nat) (s : State), (((((s.setRg (tdmBase + 32) (satInc32 (s.rg (tdmBase + 32)))).setRg (tdmBase + 36) (BitVec.ofNat 32 (2 ^ 31 + kind * 2 ^ 24 + id / 2 ^ 20 % 2 ^ 20))).setRg (tdmBase + 40) (BitVec.ofNat 32 (id % 2 ^ 20))).tdmEvent 3).rf tdmBase 24 8 ≠ 0 ∧ ((((s.setRg (tdmBase + 32) (satInc32 (s.rg (tdmBase + 32)))).setRg (tdmBase + 36) (BitVec.ofNat 32 (2 ^ 31 + kind * 2 ^ 24 + id / 2 ^ 20 % 2 ^ 20))).setRg (tdmBase + 40) (BitVec.ofNat 32 (id % 2 ^ 20))).tdmEvent 3).rf tdmBase 24 8 ≤ BitVec.toNat (((((s.setRg (tdmBase + 32) (satInc32 (s.rg (tdmBase + 32)))).setRg (tdmBase + 36) (BitVec.ofNat 32 (2 ^ 31 + kind * 2 ^ 24 + id / 2 ^ 20 % 2 ^ 20))).setRg (tdmBase + 40) (BitVec.ofNat 32 (id % 2 ^ 20))).tdmEvent 3).rg (tdmBase + 32)) ∧ s.tandem.acted = false) ∧ ((((s.setRg (tdmBase + 32) (satInc32 (s.rg (tdmBase + 32)))).setRg (tdmBase + 36) (BitVec.ofNat 32 (2 ^ 31 + kind * 2 ^ 24 + id / 2 ^ 20 % 2 ^ 20))).setRg (tdmBase + 40) (BitVec.ofNat 32 (id % 2 ^ 20))).tdmEvent 3).rf tdmBase 20 2 = 2) :=
  ⟨⟨(1 : Nat), (1 : Nat), (s0 : State), (by decide +kernel)⟩,
   ⟨(1 : Nat), (1 : Nat), (tq [(tb, 0x01000001#32), (tb + 8, ts 2 true 4 0)] : State), (by decide +kernel), (by decide +kernel)⟩,
   ⟨(1 : Nat), (1 : Nat), (tq [(tb, 0x01100001#32), (tb + 8, ts 2 true 4 0)] : State), (by decide +kernel), (by decide +kernel), (by decide +kernel)⟩,
   ⟨(1 : Nat), (1 : Nat), (tq [(tb, 0x01100001#32), (tb + 8, ts 2 false 4 0)] : State), (by decide +kernel), (by decide +kernel), (by decide +kernel)⟩,
   ⟨(1 : Nat), (1 : Nat), (tq [(tb, 0x01200001#32), (tb + 8, ts 2 false 4 0)] : State), (by decide +kernel), (by decide +kernel)⟩⟩

theorem witness14 :
    (∃ (s : State), s.dead = false ∧ (¬(s.rb tdmBase 0 = true ∧ s.cons (s.rf (tdmBase + 24) 0 9) = 0 ∧ (s.queue (s.rf (tdmBase + 24) 0 9)).on = true ∧ ¬(s.compares = true ∧ 256 ≤ s.tandem.mine.length)))) ∧
    (∃ (s : State), s.dead = false ∧ (s.rb tdmBase 0 = true ∧ s.cons (s.rf (tdmBase + 24) 0 9) = 0 ∧ (s.queue (s.rf (tdmBase + 24) 0 9)).on = true ∧ ¬(s.compares = true ∧ 256 ≤ s.tandem.mine.length))) :=
  ⟨⟨(s0 : State), (by decide +kernel), (by decide +kernel)⟩,
   ⟨({ tq [(tb, 1#32), (tb + 8, ts 1 false 4 0), (tb+0x30, 0x7FF0000#32)] with signals := { role := true } } : State), (by decide +kernel), (by decide +kernel)⟩⟩

theorem witness15 :
    (∃ (q : Nat) (s : State), s.popHead q = none) ∧
    (∃ (q : Nat) (s : State) (c : Chan) (u : State), s.popHead q = some (u, c) ∧ c.e = false) ∧
    (∃ (q : Nat) (s : State) (c : Chan) (u : State), s.popHead q = some (u, c) ∧ c.e = true) :=
  ⟨⟨(0 : Nat), (s0 : State), (by decide +kernel)⟩,
   ⟨(5 : Nat), (tq [(tb, 1#32), (tb + 8, ts 2 true 4 0)] { mine := [rcd 5], yielding := true } { on := true, head := six ++ [smp 9 false] } : State), _, _, someGet2 _ (by decide +kernel), (by decide +kernel)⟩,
   ⟨(5 : Nat), (tq [(tb, 1#32), (tb + 8, ts 2 false 4 0)] {} { on := true, head := [smp 6 true] } : State), _, _, someGet2 _ (by decide +kernel), (by decide +kernel)⟩⟩

theorem witness16 :
    (∃ (cs : List Chan), cs.length ≠ 6) ∧
    (∃ (cs : List Chan) (s : State), cs.length = 6 ∧ s.compares = false) ∧
    (∃ (cs : List Chan) (s : State), cs.length = 6 ∧ s.compares = true ∧ ({ bits := BitVec.ofNat 120 (List.foldr (fun (c : Chan) (n : Nat) => BitVec.toNat c.v + 2 ^ 20 * n) 0 cs), poison := cs.any fun (c : Chan) => c.p, placed := s.now : TRec }.bits.toNat % 2 ^ 40 ∈ s.tandem.missed)) ∧
    (∃ (cs : List Chan) (s : State), cs.length = 6 ∧ s.compares = true ∧ (¬{ bits := BitVec.ofNat 120 (List.foldr (fun (c : Chan) (n : Nat) => BitVec.toNat c.v + 2 ^ 20 * n) 0 cs), poison := cs.any fun (c : Chan) => c.p, placed := s.now : TRec }.bits.toNat % 2 ^ 40 ∈ s.tandem.missed)) :=
  ⟨⟨([] : List Chan), (by decide +kernel)⟩,
   ⟨([{ v := 0x00005#20, e := false, p := false }, { v := 0x00001#20, e := false, p := false }, { v := 0x00002#20, e := false, p := false }, { v := 0x00003#20, e := false, p := false }, { v := 0x00004#20, e := false, p := false }, { v := 0x00006#20, e := true, p := false }] : List Chan), (s0 : State), (by decide +kernel), (by decide +kernel)⟩,
   ⟨([{ v := 0x00005#20, e := false, p := false }, { v := 0x00001#20, e := false, p := false }, { v := 0x00002#20, e := false, p := false }, { v := 0x00003#20, e := false, p := false }, { v := 0x00004#20, e := false, p := false }, { v := 0x00006#20, e := true, p := false }] : List Chan), (tq [(tb, 1#32), (tb + 8, ts 2 true 4 0)] { missed := [5, 1048581] } : State), (by decide +kernel), (by decide +kernel), (by decide +kernel)⟩,
   ⟨([{ v := 0x00005#20, e := false, p := false }, { v := 0x00001#20, e := false, p := false }, { v := 0x00002#20, e := false, p := false }, { v := 0x00003#20, e := false, p := false }, { v := 0x00004#20, e := false, p := false }, { v := 0x00006#20, e := true, p := false }] : List Chan), (tq [(tb, 1#32), (tb + 8, ts 2 true 4 2)] { mine := [rcd 5], part := [{ v := 1 }] } : State), (by decide +kernel), (by decide +kernel), (by decide +kernel)⟩⟩

theorem witness17 :
    (∃ (s : State), s.dead = false ∧ s.compares = false) ∧
    (∃ (s : State), s.dead = false ∧ s.compares = true) :=
  ⟨⟨(s0 : State), (by decide +kernel), (by decide +kernel)⟩,
   ⟨(tq [(tb, 1#32), (tb + 8, ts 2 true 4 2)] { mine := [rcd 5], part := [{ v := 1 }] } : State), (by decide +kernel), (by decide +kernel)⟩⟩

theorem witness18 :
    (∃ (own : Bool) (s : State), (List.find? (fun (z : TRec) => decide (z.placed + 1000 * s.rf (tdmBase + 28) 0 16 ≤ s.now)) (if own = true then s.tandem.mine else s.tandem.theirs) = none)) ∧
    (∃ (own : Bool) (s : State) (x : TRec), (List.find? (fun (z : TRec) => decide (z.placed + 1000 * s.rf (tdmBase + 28) 0 16 ≤ s.now)) (if own = true then s.tandem.mine else s.tandem.theirs) = some x)) :=
  ⟨⟨(false : Bool), (s0 : State), (by decide +kernel)⟩,
   ⟨(false : Bool), (tq [(tb, 0x00010001#32), (tb + 8, ts 2 false 4 2)] { mine := [rcd 5], theirs := [rcd 6] } : State), _, someGet _ (by decide +kernel)⟩⟩

theorem witness19 :
    (∃ (s : State), s.dead = false ∧ s.tandem.yielding = false ∧ (s.rb tdmBase 0 = true ∧ s.rf (tdmBase + 8) 29 3 = 2) ∧ s.rb (tdmBase + 8) 28 = true ∧ s.rf (tdmBase + 8) 24 3 ≠ 0) ∧
    (∃ (s : State), s.dead = false ∧ s.tandem.yielding = false ∧ (¬((s.rb tdmBase 0 = true ∧ s.rf (tdmBase + 8) 29 3 = 2) ∧ s.rb (tdmBase + 8) 28 = true ∧ s.rf (tdmBase + 8) 24 3 ≠ 0))) ∧
    (∃ (s : State), s.dead = false ∧ (s.rb tdmBase 0 = true ∧ s.rf (tdmBase + 8) 29 3 = 2) ∧ s.rb (tdmBase + 8) 28 = false) ∧
    (∃ (s : State), s.dead = false ∧ (¬((s.rb tdmBase 0 = true ∧ s.rf (tdmBase + 8) 29 3 = 2) ∧ s.rb (tdmBase + 8) 28 = false))) ∧
    (∃ (s : State), s.dead = false ∧ (s.rb tdmBase 0 = true ∧ s.rf (tdmBase + 8) 29 3 = 2) ∧ s.rb (tdmBase + 8) 28 = true ∧ s.tandem.yielding = true) ∧
    (∃ (s : State), s.dead = false ∧ (¬((s.rb tdmBase 0 = true ∧ s.rf (tdmBase + 8) 29 3 = 2) ∧ s.rb (tdmBase + 8) 28 = true ∧ s.tandem.yielding = true))) :=
  ⟨⟨(tq [(tb, 1#32), (tb + 8, ts 2 true 4 2)] { mine := [rcd 5], part := [{ v := 1 }] } : State), (by decide +kernel), (by decide +kernel), (by decide +kernel), (by decide +kernel), (by decide +kernel)⟩,
   ⟨(s0 : State), (by decide +kernel), (by decide +kernel), (by decide +kernel)⟩,
   ⟨(tq [(tb, 0x00010001#32), (tb + 8, ts 2 false 4 2)] { mine := [rcd 5], theirs := [rcd 6] } : State), (by decide +kernel), (by decide +kernel), (by decide +kernel)⟩,
   ⟨(s0 : State), (by decide +kernel), (by decide +kernel)⟩,
   ⟨(tq [(tb, 1#32), (tb + 8, ts 2 true 4 0)] { mine := [rcd 5], yielding := true } { on := true, head := six ++ [smp 9 false] } : State), (by decide +kernel), (by decide +kernel), (by decide +kernel), (by decide +kernel)⟩,
   ⟨(s0 : State), (by decide +kernel), (by decide +kernel)⟩⟩

end TheTandemPairsComparesAndHandsOver

/-! Witnesses of `Obligations.MarchTestsStartAndEnd`. -/
namespace MarchTestsStartAndEnd

def mp (dest : Bool) (st : Nat) (r : Map Word32) (m : March := {}) (e : State := {}) : State :=
  let x := marchPlace 2 (128 * 3 + 4 * 1 + 1)
  { e with regs := [(mtStat 2, BitVec.ofNat 32 (2^31 + st * 2^24)), (memctl x.1 x.2.1, 0x20F1#32), (planeBase 2 + 0xE00C, 3#32)] ++ r, marches := [(2, { m with cur := 128 * 3 + 4 * 1 + 1, dest := dest })], mem := [⟨cellAddr x.1 x.2.1 5, 7⟩, ⟨cellAddr x.1 x.2.1 6, 8⟩], codes := [(cellAddr x.1 x.2.1 5 / 32, { wf := 3 })], now := 5000 }
def ml (v : Word32) (r : Map Word32) : State :=
  let x := marchPlace 2 389
  { regs := [(mtStat 2, BitVec.ofNat 32 (2^31 + 3 * 2^24)), (memctl x.1 x.2.1, v), (planeBase 2 + 0xE00C, 3#32)] ++ r, marches := [(2, { cur := 389 })], now := 5000 }
def fr : State := 
  let x := marchPlace 2 (128 * 3 + 4 * 1 + 1)
  let y := marchPlace 0 0
  { regs := [(memctl x.1 x.2.1, 0xF1#32), (memctl y.1 y.2.1, 0xF1#32)] }

theorem witness0 :
    (∃ (p : Fin 4) (v : Word32) (s : State), s.dead = false ∧ (s.writeFields (planeBase (↑p : Nat) + 57344) { rw := 524156#32, rwl := 0, w1c := 0, en := 0, enBit := 0 : RegSpec } v).rb (mtStat (↑p : Nat)) 31 = true) ∧
    (∃ (p : Fin 4) (v : Word32) (s : State) (c : Nat), s.dead = false ∧ (c ∈ (if BitVec.getLsbD v 3 = true then [] else (s.writeFields (planeBase (↑p : Nat) + 57344) { rw := 524156#32, rwl := 0, w1c := 0, en := 0, enBit := 0 : RegSpec } v).marchCodes (marchPlace (↑p : Nat) (128 * fld v 8 4 + 4 * fld v 12 5 + fld v 17 2)).fst (marchPlace (↑p : Nat) (128 * fld v 8 4 + 4 * fld v 12 5 + fld v 17 2)).snd.fst (marchPlace (↑p : Nat) (128 * fld v 8 4 + 4 * fld v 12 5 + fld v 17 2)).snd.snd (BitVec.getLsbD v 2)) ++ if (BitVec.getLsbD v 2 && fld v 4 3 == 0 || fld v 19 13 != 0 || BitVec.getLsbD v 7) = true then [2819] else []) ∧ (s.writeFields (planeBase (↑p : Nat) + 57344) { rw := 524156#32, rwl := 0, w1c := 0, en := 0, enBit := 0 : RegSpec } v).rb (mtStat (↑p : Nat)) 31 = false ∧ (∀ (d : Nat), (d ∈ (if BitVec.getLsbD v 3 = true then [] else (s.writeFields (planeBase (↑p : Nat) + 57344) { rw := 524156#32, rwl := 0, w1c := 0, en := 0, enBit := 0 : RegSpec } v).marchCodes (marchPlace (↑p : Nat) (128 * fld v 8 4 + 4 * fld v 12 5 + fld v 17 2)).fst (marchPlace (↑p : Nat) (128 * fld v 8 4 + 4 * fld v 12 5 + fld v 17 2)).snd.fst (marchPlace (↑p : Nat) (128 * fld v 8 4 + 4 * fld v 12 5 + fld v 17 2)).snd.snd (BitVec.getLsbD v 2)) ++ if (BitVec.getLsbD v 2 && fld v 4 3 == 0 || fld v 19 13 != 0 || BitVec.getLsbD v 7) = true then [2819] else []) → c ≤ d)) ∧
    (∃ (p : Fin 4) (v : Word32) (s : State), s.dead = false ∧ (s.writeFields (planeBase (↑p : Nat) + 57344) { rw := 524156#32, rwl := 0, w1c := 0, en := 0, enBit := 0 : RegSpec } v).rb (mtStat (↑p : Nat)) 31 = false ∧ (((if BitVec.getLsbD v 3 = true then [] else (s.writeFields (planeBase (↑p : Nat) + 57344) { rw := 524156#32, rwl := 0, w1c := 0, en := 0, enBit := 0 : RegSpec } v).marchCodes (marchPlace (↑p : Nat) (128 * fld v 8 4 + 4 * fld v 12 5 + fld v 17 2)).fst (marchPlace (↑p : Nat) (128 * fld v 8 4 + 4 * fld v 12 5 + fld v 17 2)).snd.fst (marchPlace (↑p : Nat) (128 * fld v 8 4 + 4 * fld v 12 5 + fld v 17 2)).snd.snd (BitVec.getLsbD v 2)) ++ if (BitVec.getLsbD v 2 && fld v 4 3 == 0 || fld v 19 13 != 0 || BitVec.getLsbD v 7) = true then [2819] else []) = []) ∧ BitVec.getLsbD v 3 = false) ∧
    (∃ (p : Fin 4) (v : Word32) (s : State), s.dead = false ∧ (s.writeFields (planeBase (↑p : Nat) + 57344) { rw := 524156#32, rwl := 0, w1c := 0, en := 0, enBit := 0 : RegSpec } v).rb (mtStat (↑p : Nat)) 31 = false ∧ (((if BitVec.getLsbD v 3 = true then [] else (s.writeFields (planeBase (↑p : Nat) + 57344) { rw := 524156#32, rwl := 0, w1c := 0, en := 0, enBit := 0 : RegSpec } v).marchCodes (marchPlace (↑p : Nat) (128 * fld v 8 4 + 4 * fld v 12 5 + fld v 17 2)).fst (marchPlace (↑p : Nat) (128 * fld v 8 4 + 4 * fld v 12 5 + fld v 17 2)).snd.fst (marchPlace (↑p : Nat) (128 * fld v 8 4 + 4 * fld v 12 5 + fld v 17 2)).snd.snd (BitVec.getLsbD v 2)) ++ if (BitVec.getLsbD v 2 && fld v 4 3 == 0 || fld v 19 13 != 0 || BitVec.getLsbD v 7) = true then [2819] else []) = []) ∧ BitVec.getLsbD v 3 = true) :=
  ⟨⟨(2 : Fin 4), (0x00000000#32 : Word32), (mp true 2 [] : State), (by decide +kernel), (by decide +kernel)⟩,
   ⟨(0 : Fin 4), (0x00000000#32 : Word32), (s0 : State), (2817 : Nat), (by decide +kernel), (by decide +kernel), (by decide +kernel), (by decide +kernel)⟩,
   ⟨(0 : Fin 4), (0x00000000#32 : Word32), (fr : State), (by decide +kernel), (by decide +kernel), (by decide +kernel), (by decide +kernel)⟩,
   ⟨(0 : Fin 4), (0x00000008#32 : Word32), (s0 : State), (by decide +kernel), (by decide +kernel), (by decide +kernel), (by decide +kernel)⟩⟩

theorem witness1 :
    (∃ (r : Nat) (c : Nat) (b : Nat) (dest : Bool) (s : State) (k : Nat), k ∈ s.marchCodes r c b dest) :=
  ⟨(0 : Nat), (0 : Nat), (0 : Nat), (false : Bool), (s0 : State), (2817 : Nat), (by decide +kernel)⟩

theorem witness3 :
    (∃ (pos : Nat), 2048 ≤ pos) ∧
    (∃ (p : Nat) (pos : Nat) (dest : Bool) (s : State), pos < 2048 ∧ s.marchCodes (marchPlace p pos).fst (marchPlace p pos).snd.fst (marchPlace p pos).snd.snd dest = []) ∧
    (∃ (p : Nat) (pos : Nat) (dest : Bool) (s : State), pos < 2048 ∧ s.marchCodes (marchPlace p pos).fst (marchPlace p pos).snd.fst (marchPlace p pos).snd.snd dest ≠ []) :=
  ⟨⟨(2048 : Nat), (by decide +kernel)⟩,
   ⟨(0 : Nat), (0 : Nat), (false : Bool), (fr : State), (by decide +kernel), (by decide +kernel)⟩,
   ⟨(0 : Nat), (0 : Nat), (false : Bool), (s0 : State), (by decide +kernel), (by decide +kernel)⟩⟩

theorem witness4 :
    (∃ (p : Fin 4) (s : State), s.dead = false ∧ s.rb (mtStat (↑p : Nat)) 31 = false) ∧
    (∃ (p : Fin 4) (s : State), s.dead = false ∧ s.rb (mtStat (↑p : Nat)) 31 = true) :=
  ⟨⟨(0 : Fin 4), (s0 : State), (by decide +kernel), (by decide +kernel)⟩,
   ⟨(2 : Fin 4), (mp true 2 [] : State), (by decide +kernel), (by decide +kernel)⟩⟩

theorem witness5 :
    (∃ (p : Nat) (goOn : Bool) (s : State), (s.march p).all = true ∧ goOn = true) ∧
    (∃ (p : Nat) (goOn : Bool) (s : State), ((s.march p).all = false ∨ goOn = false)) :=
  ⟨⟨(2 : Nat), _, (mp false 2 [] { all := true } : State), (by decide +kernel), rfl⟩,
   ⟨(0 : Nat), (false : Bool), (s0 : State), (by decide +kernel)⟩⟩

theorem witness6 :
    (∃ (p : Nat) (s : State), ((s.march p).dest = false ∨ s.rb (memctl (marchPlace p (s.march p).cur).fst (marchPlace p (s.march p).cur).snd.fst) (12 + (marchPlace p (s.march p).cur).snd.snd) = false)) ∧
    (∃ (p : Nat) (s : State), (s.march p).dest = true ∧ s.rb (memctl (marchPlace p (s.march p).cur).fst (marchPlace p (s.march p).cur).snd.fst) (12 + (marchPlace p (s.march p).cur).snd.snd) = true) :=
  ⟨⟨(0 : Nat), (s0 : State), (by decide +kernel)⟩,
   ⟨(2 : Nat), (mp true 2 [] : State), (by decide +kernel), (by decide +kernel)⟩⟩

theorem witness7 :
    (∃ (i : Nat), (i < 8 ∨ i = 21 ∨ i = 22 ∨ i = 23 ∨ 24 ≤ i ∧ i < 32)) :=
  ⟨(0 : Nat), (by decide +kernel)⟩

theorem witness8 :
    (∃ (m : March) (k : Nat), m.dest = true ∧ min k (m.total - 1) % 2560 < 256) ∧
    (∃ (m : March) (k : Nat), m.dest = true ∧ 256 ≤ min k (m.total - 1) % 2560 ∧ min k (m.total - 1) % 2560 < 1280) ∧
    (∃ (m : March) (k : Nat), m.dest = true ∧ 1280 ≤ min k (m.total - 1) % 2560 ∧ min k (m.total - 1) % 2560 < 2304) ∧
    (∃ (m : March) (k : Nat), m.dest = true ∧ 2304 ≤ min k (m.total - 1) % 2560) ∧
    (∃ (m : March) (k : Nat) (i : Nat), m.dest = false ∧ i < 256 ∧ elementStart i ≤ k ∧ k < elementStart (i + 1)) ∧
    (∃ (m : March) (k : Nat) (i : Nat), m.dest = false ∧ i < 256 ∧ elementStart (256 + i) ≤ k ∧ k < elementStart (257 + i)) ∧
    (∃ (i : Nat), i < 512) :=
  ⟨⟨({ cur := 0, all := false, dest := true, bg := 0, since := 0, done := 0 } : March), (0 : Nat), (by decide +kernel), (by decide +kernel)⟩,
   ⟨({ cur := 0, all := false, dest := true, bg := 7, since := 0, done := 0 } : March), (256 : Nat), (by decide +kernel), (by decide +kernel), (by decide +kernel)⟩,
   ⟨({ cur := 0, all := false, dest := true, bg := 7, since := 0, done := 0 } : March), (1280 : Nat), (by decide +kernel), (by decide +kernel), (by decide +kernel)⟩,
   ⟨({ cur := 0, all := false, dest := true, bg := 7, since := 0, done := 0 } : March), (2304 : Nat), (by decide +kernel), (by decide +kernel)⟩,
   ⟨({ cur := 0, all := false, dest := false, bg := 0, since := 0, done := 0 } : March), (0 : Nat), (0 : Nat), (by decide +kernel), (by decide +kernel), (by decide +kernel), (by decide +kernel)⟩,
   ⟨({ cur := 0, all := false, dest := false, bg := 0, since := 0, done := 0 } : March), (6647 : Nat), (255 : Nat), (by decide +kernel), (by decide +kernel), (by decide +kernel), (by decide +kernel)⟩,
   ⟨(0 : Nat), (by decide +kernel)⟩⟩

theorem witness9 :
    (∃ (p : Fin 4) (s : State), s.dead = false ∧ (¬(s.rb (mtStat (↑p : Nat)) 31 = true ∧ (s.rf (mtStat (↑p : Nat)) 24 3 = 3 ∨ s.rf (mtStat (↑p : Nat)) 24 3 = 1) ∧ (s.march (↑p : Nat)).since + 1000 * s.rf (planeBase (↑p : Nat) + 57356) 0 16 ≤ s.now))) ∧
    (∃ (p : Fin 4) (s : State), s.dead = false ∧ (s.rb (mtStat (↑p : Nat)) 31 = true ∧ (s.rf (mtStat (↑p : Nat)) 24 3 = 3 ∨ s.rf (mtStat (↑p : Nat)) 24 3 = 1) ∧ (s.march (↑p : Nat)).since + 1000 * s.rf (planeBase (↑p : Nat) + 57356) 0 16 ≤ s.now) ∧ (¬s.rb (memctl (marchPlace (↑p : Nat) (s.march (↑p : Nat)).cur).fst (marchPlace (↑p : Nat) (s.march (↑p : Nat)).cur).snd.fst) (4 + (marchPlace (↑p : Nat) (s.march (↑p : Nat)).cur).snd.snd) = true)) ∧
    (∃ (p : Fin 4) (s : State), s.dead = false ∧ (s.rb (mtStat (↑p : Nat)) 31 = true ∧ (s.rf (mtStat (↑p : Nat)) 24 3 = 3 ∨ s.rf (mtStat (↑p : Nat)) 24 3 = 1) ∧ (s.march (↑p : Nat)).since + 1000 * s.rf (planeBase (↑p : Nat) + 57356) 0 16 ≤ s.now) ∧ s.rb (memctl (marchPlace (↑p : Nat) (s.march (↑p : Nat)).cur).fst (marchPlace (↑p : Nat) (s.march (↑p : Nat)).cur).snd.fst) (4 + (marchPlace (↑p : Nat) (s.march (↑p : Nat)).cur).snd.snd) = true ∧ (s.rf (memctl (marchPlace (↑p : Nat) (s.march (↑p : Nat)).cur).fst (marchPlace (↑p : Nat) (s.march (↑p : Nat)).cur).snd.fst) 0 2 = 0 ∧ s.rb (regionBase (marchPlace (↑p : Nat) (s.march (↑p : Nat)).cur).fst) 0 = true ∨ s.pstate (marchPlace (↑p : Nat) (s.march (↑p : Nat)).cur).fst ≠ 0)) ∧
    (∃ (p : Fin 4) (s : State), s.dead = false ∧ (s.rb (mtStat (↑p : Nat)) 31 = true ∧ (s.rf (mtStat (↑p : Nat)) 24 3 = 3 ∨ s.rf (mtStat (↑p : Nat)) 24 3 = 1) ∧ (s.march (↑p : Nat)).since + 1000 * s.rf (planeBase (↑p : Nat) + 57356) 0 16 ≤ s.now) ∧ s.rb (memctl (marchPlace (↑p : Nat) (s.march (↑p : Nat)).cur).fst (marchPlace (↑p : Nat) (s.march (↑p : Nat)).cur).snd.fst) (4 + (marchPlace (↑p : Nat) (s.march (↑p : Nat)).cur).snd.snd) = true ∧ (¬(s.rf (memctl (marchPlace (↑p : Nat) (s.march (↑p : Nat)).cur).fst (marchPlace (↑p : Nat) (s.march (↑p : Nat)).cur).snd.fst) 0 2 = 0 ∧ s.rb (regionBase (marchPlace (↑p : Nat) (s.march (↑p : Nat)).cur).fst) 0 = true ∨ s.pstate (marchPlace (↑p : Nat) (s.march (↑p : Nat)).cur).fst ≠ 0))) :=
  ⟨⟨(0 : Fin 4), (s0 : State), (by decide +kernel), (by decide +kernel)⟩,
   ⟨(2 : Fin 4), (ml 0x2001 [] : State), (by decide +kernel), (by decide +kernel), (by decide +kernel)⟩,
   ⟨(2 : Fin 4), (ml 0x20F0 [(regionBase (marchPlace 2 389).1, 1#32)] : State), (by decide +kernel), (by decide +kernel), (by decide +kernel), (by decide +kernel)⟩,
   ⟨(2 : Fin 4), (mp false 3 [] : State), (by decide +kernel), (by decide +kernel), (by decide +kernel), (by decide +kernel)⟩⟩

theorem witness10 :
    (∃ (p : Fin 4) (s : State), s.dead = false ∧ (¬(s.rb (mtStat (↑p : Nat)) 31 = true ∧ s.rf (mtStat (↑p : Nat)) 24 3 = 2))) ∧
    (∃ (p : Fin 4) (s : State), s.dead = false ∧ (s.rb (mtStat (↑p : Nat)) 31 = true ∧ s.rf (mtStat (↑p : Nat)) 24 3 = 2)) :=
  ⟨⟨(0 : Fin 4), (s0 : State), (by decide +kernel), (by decide +kernel)⟩,
   ⟨(2 : Fin 4), (mp true 2 [] : State), (by decide +kernel), (by decide +kernel)⟩⟩

theorem witness11 :
    (∃ (p : Nat) (ue : Bool) (s : State), ((s.march p).dest = true ∨ ue = false)) ∧
    (∃ (p : Nat) (ue : Bool) (s : State), (s.march p).dest = false ∧ ue = true) :=
  ⟨⟨(0 : Nat), (false : Bool), (s0 : State), (by decide +kernel)⟩,
   ⟨(0 : Nat), _, (s0 : State), (by decide +kernel), rfl⟩⟩

end MarchTestsStartAndEnd

/-! Witnesses of `Obligations.LogicBistStartsAndEnds`. -/
namespace LogicBistStartsAndEnds

theorem witness0 :
    (∃ (s : State), s.dead = false ∧ s.bist ≠ none) ∧
    (∃ (v : Word32) (s : State) (c : Nat), s.dead = false ∧ c ∈ (s.writeFields (testBase + 4) { rw := 8323840#32, rwl := 0, w1c := 0, en := 0, enBit := 0 : RegSpec } v).bistCodes (fld v 8 2) (fld v 16 7) ∧ s.bist = none ∧ (∀ (d : Nat), d ∈ (s.writeFields (testBase + 4) { rw := 8323840#32, rwl := 0, w1c := 0, en := 0, enBit := 0 : RegSpec } v).bistCodes (fld v 8 2) (fld v 16 7) → c ≤ d)) ∧
    (∃ (v : Word32) (s : State), s.dead = false ∧ s.bist = none ∧ (s.writeFields (testBase + 4) { rw := 8323840#32, rwl := 0, w1c := 0, en := 0, enBit := 0 : RegSpec } v).bistCodes (fld v 8 2) (fld v 16 7) = []) :=
  ⟨⟨({ bist := some (0, 5), regs := [(testBase + 8, 0x80000000#32), (testBase+0x10, 0x30000#32)], regions := [(5, { a := { startPc := 5 }, spoke := [(3, { v := 4 })] })] } : State), (by decide +kernel), (by decide +kernel)⟩,
   ⟨(0x00400000#32 : Word32), (s0 : State), (2835 : Nat), (by decide +kernel), (by decide +kernel), (by decide +kernel), (by decide +kernel)⟩,
   ⟨(0x00000000#32 : Word32), (s0 : State), (by decide +kernel), (by decide +kernel), (by decide +kernel)⟩⟩

theorem witness1 :
    (∃ (kind : Nat) (n : Nat) (s : State) (c : Nat), c ∈ s.bistCodes kind n) :=
  ⟨(0 : Nat), (5 : Nat), ({ regs := [(regionBase 5, 1#32)] } : State), (2832 : Nat), (by decide +kernel)⟩

theorem witness2 :
    (∃ (s : State), s.dead = false ∧ s.bist = none) :=
  ⟨(s0 : State), (by decide +kernel), (by decide +kernel)⟩

theorem witness3 :
    (∃ (s : State) (kind : Nat) (n : Nat) (sig : BitVec 32), s.dead = false ∧ s.bist = some (kind, n) ∧ sig = Config.bistSignature kind) :=
  ⟨({ bist := some (0, 5), regs := [(testBase + 8, 0x80000000#32), (testBase+0x10, 0x30000#32)], regions := [(5, { a := { startPc := 5 }, spoke := [(3, { v := 4 })] })] } : State), _, _, _, (by decide +kernel), someGet2 _ (by decide +kernel), rfl⟩

end LogicBistStartsAndEnds

end Sys2Proof.Tests
end

section
/-! What the probes on a packet's way leave behind (R298, R299): the frame that every transaction of a register
access keeps. -/

namespace Sys2Proof.Machine

theorem mem_mdel_ne {α : Type} (m : Map α) {k : Nat} {e : Nat × α} (h : e.1 ≠ k) : e ∈ mdel k m ↔ e ∈ m := by
  induction m with
  | nil => rfl
  | cons x r ih =>
    obtain ⟨a, w⟩ := x
    by_cases ha : a = k
    · have hx : e ≠ (a, w) := fun he => h (by rw [he]; exact ha)
      rw [mdel, if_pos ha, ih, List.mem_cons, or_iff_right hx]
    · rw [mdel, if_neg ha, List.mem_cons, List.mem_cons, ih]

theorem mem_mins_ne {α : Type} (m : Map α) {k : Nat} (v : α) {e : Nat × α} (h : e.1 ≠ k) :
    e ∈ mins k v m ↔ e ∈ m := by
  have hx : e ≠ (k, v) := fun he => h (by rw [he])
  induction m with
  | nil => simp [mins, hx]
  | cons x r ih =>
    obtain ⟨a, w⟩ := x
    by_cases ha : k < a
    · simp only [mins, if_pos ha, List.mem_cons, or_iff_right hx]
    · simp only [mins, if_neg ha, List.mem_cons, ih]

/-- An entry under another key than the one written stays, and no further one appears. -/
theorem mem_mset_ne {α : Type} [DecidableEq α] (d : α) (m : Map α) {k : Nat} (v : α) {e : Nat × α} (h : e.1 ≠ k) :
    e ∈ mset d m k v ↔ e ∈ m := by
  unfold mset
  split
  · exact mem_mdel_ne m h
  · exact (mem_mins_ne _ v h).trans (mem_mdel_ne m h)

/-- Where the registers lie that probes write: the trace buffer's pointer and loss count, and the counts of each
probe (R302, R303). -/
def isProbeTrace (o : Nat) : Prop := nocBase + 0xF0 ≤ o ∧ o < nocBase + 0x300 ∧ 0x18 ≤ (o - nocBase) % 0x40

theorem not_isProbeTrace_of_lt {o : Nat} (h : o < nocBase + 0xF0) : ¬ isProbeTrace o := by
  unfold isProbeTrace; omega

theorem not_isProbeTrace_of_ge {o : Nat} (h : nocBase + 0x300 ≤ o) : ¬ isProbeTrace o := by
  unfold isProbeTrace; omega

theorem isProbeTrace_pointer : isProbeTrace (nocBase + 0xF0) := by unfold isProbeTrace; omega

theorem isProbeTrace_lossCount : isProbeTrace (nocBase + 0xF4) := by unfold isProbeTrace; omega

theorem not_isProbeTrace_config (n k : Nat) (h : k < 0x18) : ¬ isProbeTrace (probeReg n + k) := by
  unfold isProbeTrace probeReg; omega

theorem isProbeTrace_count {n k : Nat} (hn : n < 8) (h : 0x18 ≤ k) (h' : k < 0x40) : isProbeTrace (probeReg n + k) := by
  unfold isProbeTrace probeReg; omega

theorem not_isProbeTrace_of_isQueueReg {o : Nat} (h : isQueueReg o) : ¬ isProbeTrace o := by
  unfold isQueueReg at h; unfold isProbeTrace nocBase; omega

/-- Whether an enabled probe names queue `q` as the one that takes its records (R298). -/
def State.delivers (s : State) (q : Nat) : Prop :=
  ∃ n, n < 8 ∧ s.rb (probeReg n) 31 = true ∧ s.rf (probeReg n + 0x10) 0 9 = q

theorem State.delivers_lt {s : State} {q : Nat} (h : s.delivers q) : q < 512 := by
  obtain ⟨n, -, -, rfl⟩ := h
  exact fld_lt _ 0 9

/-- The counts of a probe that matches a packet, and its source (R298). -/
def State.probeTally (s : State) (n : Nat) (k : Seen) : State :=
  let b := probeReg n
  let s := (s.count64 (b + 0x18)).setRg64 (b + 0x20) (s.rg64 (b + 0x20) + k.len + 1)
  s.raiseIf (s.rb b 27 && s.rg (b + 0x14) != 0 && s.rg (b + 0x18) == s.rg (b + 0x14)) (1291 + n)

/-- What its mode then makes of the packet's record (R298, R299). -/
def State.probeRecord (s : State) (n : Nat) (k : Seen) (room : Nat) : State × Nat :=
  let kept := fun x : State × Bool => if x.2 then x.1 else x.1.count (probeReg n + 0x28)
  match s.rf (probeReg n) 28 2 with
  | 1 => (kept (if room = 0 then (s.traceLost, false) else s.traceStore (s.traceRecord n k)), room - 1)
  | 2 => (kept (s.pushRecord (s.rf (probeReg n + 0x10) 0 9) (s.traceRecord n k)), room)
  | _ => (s, room)

/-- A probe counts first and then keeps the record. -/
theorem probeCount_eq (s : State) (n : Nat) (k : Seen) (room : Nat) :
    s.probeCount n k room = (s.probeTally n k).probeRecord n k room := rfl

/-- `t` differs from `s` at most by what probes write that deliver to queues of `Q` alone (R298, R299). -/
structure OnlyProbeTraces (Q : Nat → Prop) (s t : State) : Prop where
  frame : { t with regs := s.regs, raised := s.raised, noc := s.noc, queues := s.queues } = s
  noc : { t.noc with trace := s.noc.trace } = s.noc
  rg : ∀ o, ¬ isProbeTrace o → t.rg o = s.rg o
  raised : ∃ l, t.raised = s.raised ++ l ∧ ∀ n ∈ l, 1280 ≤ n ∧ n < 1344
  queue : ∀ q, ¬ Q q → t.queue q = s.queue q
  entry : ∀ e, ¬ Q e.1 → (e ∈ t.queues ↔ e ∈ s.queues)
  trace : (∀ q, ¬ Q q) → t.noc.trace = s.noc.trace

namespace OnlyProbeTraces

variable {Q : Nat → Prop} {s t u : State}

theorem refl (Q : Nat → Prop) (s : State) : OnlyProbeTraces Q s s where
  frame := rfl
  noc := rfl
  rg _ _ := rfl
  raised := ⟨[], by simp⟩
  queue _ _ := rfl
  entry _ _ := Iff.rfl
  trace _ := rfl

theorem trans (h : OnlyProbeTraces Q s t) (h' : OnlyProbeTraces Q t u) : OnlyProbeTraces Q s u where
  frame := by
    conv => rhs; rw [← h.frame, ← h'.frame]
  noc := by
    conv => rhs; rw [← h.noc, ← h'.noc]
  rg o ho := (h'.rg o ho).trans (h.rg o ho)
  raised := by
    obtain ⟨l, hl, hm⟩ := h.raised
    obtain ⟨l', hl', hm'⟩ := h'.raised
    refine ⟨l ++ l', by rw [hl', hl, List.append_assoc], fun n hn => ?_⟩
    exact (List.mem_append.mp hn).elim (hm n) (hm' n)
  queue q hq := (h'.queue q hq).trans (h.queue q hq)
  entry e he := (h'.entry e he).trans (h.entry e he)
  trace hq := (h'.trace hq).trans (h.trace hq)

/-! What lies outside the network's traces may be changed on both sides alike. -/

theorem congr_latches (h : OnlyProbeTraces Q s t) (l : List (Master × Nat × Word32)) :
    OnlyProbeTraces Q { s with latches := l } { t with latches := l } where
  frame := congrArg (fun v : State => { v with latches := l }) h.frame
  noc := h.noc
  rg := h.rg
  raised := h.raised
  queue := h.queue
  entry := h.entry
  trace := h.trace

theorem congr_out (h : OnlyProbeTraces Q s t) (x : List OutMsg) :
    OnlyProbeTraces Q { s with out := x } { t with out := x } where
  frame := congrArg (fun v : State => { v with out := x }) h.frame
  noc := h.noc
  rg := h.rg
  raised := h.raised
  queue := h.queue
  entry := h.entry
  trace := h.trace

theorem latches_eq (h : OnlyProbeTraces Q s t) : t.latches = s.latches := by rw [← h.frame]

theorem out_eq (h : OnlyProbeTraces Q s t) : t.out = s.out := by rw [← h.frame]

/-! Each update that a probe makes is such a trace. -/

theorem setRg (h : OnlyProbeTraces Q s t) {o : Nat} (v : Word32) (ho : isProbeTrace o) :
    OnlyProbeTraces Q s (t.setRg o v) :=
  h.trans { refl Q t with rg := fun _ hp => rg_setRg_ne t v (fun he => hp (he ▸ ho)) }

theorem setRg64 (h : OnlyProbeTraces Q s t) {o : Nat} (v : Nat) (ho : isProbeTrace o) (ho' : isProbeTrace (o + 4)) :
    OnlyProbeTraces Q s (t.setRg64 o v) := (h.setRg _ ho).setRg _ ho'

theorem count64 (h : OnlyProbeTraces Q s t) {o : Nat} (ho : isProbeTrace o) (ho' : isProbeTrace (o + 4)) :
    OnlyProbeTraces Q s (t.count64 o) := h.setRg64 _ ho ho'

theorem raise (h : OnlyProbeTraces Q s t) {n : Nat} (hn : 1280 ≤ n ∧ n < 1344) : OnlyProbeTraces Q s (t.raise n) :=
  h.trans { refl Q t with raised := ⟨[n], rfl, by simpa using hn⟩ }

theorem raiseIf (h : OnlyProbeTraces Q s t) (b : Bool) {n : Nat} (hn : 1280 ≤ n ∧ n < 1344) :
    OnlyProbeTraces Q s (t.raiseIf b n) := by
  cases b with
  | false => exact h
  | true => exact h.raise hn

theorem setTrace (h : OnlyProbeTraces Q s t) {q : Nat} (hq : Q q) (x : Map (BitVec 128)) :
    OnlyProbeTraces Q s { t with noc := { t.noc with trace := x } } :=
  h.trans { refl Q t with trace := fun hn => absurd hq (hn q) }

theorem setQueue (h : OnlyProbeTraces Q s t) {q : Nat} (hq : Q q) (x : Queue) :
    OnlyProbeTraces Q s (t.setQueue q x) :=
  h.trans { refl Q t with
    queue := fun _ hp => queue_setQueue_ne t x (fun he => hp (he ▸ hq))
    entry := fun _ he => mem_mset_ne _ _ x (fun hk => he (hk ▸ hq)) }

/-! The probe's operations. -/

theorem traceLost (h : OnlyProbeTraces Q s t) : OnlyProbeTraces Q s t.traceLost :=
  (h.setRg _ isProbeTrace_lossCount).raise (by decide)

theorem traceStore (h : OnlyProbeTraces Q s t) {q : Nat} (hq : Q q) (v : BitVec 120) :
    OnlyProbeTraces Q s (t.traceStore v).1 := by
  have ho := isProbeTrace_pointer
  unfold State.traceStore
  dsimp only
  split
  · exact h.traceLost
  · have hw := (h.setTrace hq (mset 0 t.noc.trace (t.rf (nocBase + 0xF0) 0 11) (v.zeroExtend 128))).setRg
      (setFld (t.rg (nocBase + 0xF0)) 0 11 (t.rf (nocBase + 0xF0) 0 11 + 1)) ho
    dsimp only
    split
    · split
      · exact (hw.setRg _ ho).raise (by decide)
      · exact hw.setRg _ ho
    · exact hw

theorem pushRecord (h : OnlyProbeTraces Q s t) {q : Nat} (hq : Q q) (v : BitVec 120) :
    OnlyProbeTraces Q s (t.pushRecord q v).1 := by
  unfold State.pushRecord
  dsimp only
  split
  · exact h.setQueue hq _
  · exact h

/-- A record that was not kept is counted. -/
theorem countUnlessKept {x : State × Bool} (h : OnlyProbeTraces Q s x.1) {o : Nat} (ho : isProbeTrace o) :
    OnlyProbeTraces Q s (if x.2 then x.1 else x.1.count o) := by
  split
  · exact h
  · exact h.setRg _ ho

theorem probeTally (h : OnlyProbeTraces Q s t) {n : Nat} (hn : n < 8) (k : Seen) :
    OnlyProbeTraces Q s (t.probeTally n k) := by
  have hc {j : Nat} (hj : 0x18 ≤ j) (hj' : j < 0x3C) :
      isProbeTrace (probeReg n + j) ∧ isProbeTrace (probeReg n + j + 4) :=
    ⟨isProbeTrace_count hn hj (by omega), isProbeTrace_count (k := j + 4) hn (by omega) (by omega)⟩
  have hpkt := hc (j := 0x18) (by omega) (by omega)
  have hflit := hc (j := 0x20) (by omega) (by omega)
  exact ((h.setRg64 _ hpkt.1 hpkt.2).setRg64 _ hflit.1 hflit.2).raiseIf _ ⟨by omega, by omega⟩

theorem probeRecord (h : OnlyProbeTraces Q s t) {n : Nat} (hn : n < 8) (hq : Q (t.rf (probeReg n + 0x10) 0 9))
    (k : Seen) (room : Nat) : OnlyProbeTraces Q s (t.probeRecord n k room).1 := by
  have hdrop : isProbeTrace (probeReg n + 0x28) := isProbeTrace_count hn (by omega) (by omega)
  unfold State.probeRecord
  split
  · refine countUnlessKept ?_ hdrop
    split
    · exact h.traceLost
    · exact h.traceStore hq _
  · exact countUnlessKept (h.pushRecord hq _) hdrop
  · exact h

/-- The configuration of the probes is no trace of theirs. -/
theorem rf_target_eq (h : OnlyProbeTraces Q s t) (n : Nat) :
    t.rf (probeReg n + 0x10) 0 9 = s.rf (probeReg n + 0x10) 0 9 :=
  rf_of_rg (h.rg _ (not_isProbeTrace_config n _ (by omega))) 0 9

theorem rb_enabled_eq (h : OnlyProbeTraces Q s t) (n : Nat) : t.rb (probeReg n) 31 = s.rb (probeReg n) 31 :=
  rb_of_rg (h.rg _ (not_isProbeTrace_config n 0 (by omega))) 31

theorem probeCount (h : OnlyProbeTraces Q s t) {n : Nat} (hn : n < 8) (hq : Q (t.rf (probeReg n + 0x10) 0 9))
    (k : Seen) (room : Nat) : OnlyProbeTraces Q s (t.probeCount n k room).1 := by
  have ht := (refl Q t).probeTally hn k
  rw [probeCount_eq]
  exact h.trans (ht.probeRecord hn (ht.rf_target_eq n ▸ hq) k room)

theorem delivers_of_enabled (h : OnlyProbeTraces s.delivers s t) {n : Nat} (hn : n < 8)
    (hb : t.rb (probeReg n) 31 = true) : s.delivers (t.rf (probeReg n + 0x10) 0 9) :=
  ⟨n, hn, h.rb_enabled_eq n ▸ hb, (h.rf_target_eq n).symm⟩

theorem probeAt (h : OnlyProbeTraces s.delivers s t) (r port : Nat) (k : Seen) :
    OnlyProbeTraces s.delivers s (t.probeAt r port k) := by
  refine List.foldlRecOn (motive := fun a : State × Nat => OnlyProbeTraces s.delivers s a.1) _ _ h ?_
  intro a ha n hn
  split
  · next hm =>
    have hb : a.1.rb (probeReg n) 31 = true := by
      simp only [State.probeMatches, Bool.and_eq_true] at hm; simp only [hm]
    have hn8 : n < 8 := List.mem_range.mp hn
    exact ha.probeCount hn8 (ha.delivers_of_enabled hn8 hb) k a.2
  · exact ha

/-- Along a packet's whole way nothing is left behind but the probes' traces (R298). -/
theorem probeWay (h : OnlyProbeTraces s.delivers s t) (a : Nat) (k : Seen) :
    OnlyProbeTraces s.delivers s (t.probeWay a k) := by
  unfold State.probeWay
  split
  · exact List.foldlRecOn (motive := OnlyProbeTraces s.delivers s) _ _ (h.probeAt a 0xE k)
      (fun u hu r _ => hu.probeAt r _ k)
  · exact h

end OnlyProbeTraces

/-! The routing tables are no trace of a probe. -/

section Routes

variable {s t : State} (hrg : ∀ o, ¬ isProbeTrace o → t.rg o = s.rg o)
include hrg

theorem rtEntry_congr (b r d : Nat) : t.rtEntry b r d = s.rtEntry b r d :=
  rf_of_rg (hrg _ (not_isProbeTrace_of_ge (by unfold rtReg; omega))) _ _

theorem walk_congr (b d f r : Nat) : t.walk b d f r = s.walk b d f r := by
  induction f generalizing r with
  | zero => rfl
  | succ f ih => simp only [State.walk, rtEntry_congr hrg, ih]

/-- A packet meets the same on its way where only the probes' traces, and the same routers isolated, differ. -/
theorem way_congr (hoff : t.noc.off = s.noc.off) (a d : Nat) : t.way a d = s.way a d := by
  have hep : t.epoch = s.epoch := rb_of_rg (hrg _ (not_isProbeTrace_of_lt (by omega))) 8
  unfold State.way State.isolated
  rw [hoff, hep, walk_congr hrg]

end Routes

theorem OnlyProbeTraces.off_eq {Q : Nat → Prop} {s t : State} (h : OnlyProbeTraces Q s t) : t.noc.off = s.noc.off := by
  rw [← h.noc]

theorem OnlyProbeTraces.way_eq {Q : Nat → Prop} {s t : State} (h : OnlyProbeTraces Q s t) (a d : Nat) :
    t.way a d = s.way a d := way_congr h.rg h.off_eq a d

/-! What a command answers whose effect leaves such traces. -/

/-- Raising the sources of one cycle once loses none of them. -/
theorem mem_onceEach (n : Nat) (l : List Nat) : n ∈ onceEach l ↔ n ∈ l := by
  suffices h : ∀ acc : List Nat,
      n ∈ l.foldl (fun acc n => if oncePerCycle n && acc.contains n then acc else acc ++ [n]) acc ↔ n ∈ acc ∨ n ∈ l by
    simpa [onceEach] using h []
  induction l with
  | nil => simp
  | cons a l ih =>
    intro acc
    rw [List.foldl_cons, ih]
    split
    · next ha =>
      have : a ∈ acc := by simpa using (Bool.and_eq_true_iff.mp ha).2
      grind
    · simp [or_assoc]

/-- Whether the evaluation of the levels raises source `n` (R161). -/
def State.levelSource (s : State) (n : Nat) : Prop := ∃ e, e ∈ s.queues ∧ s.levelRaises e = true ∧ 512 + e.1 = n

/-- A source raised when a command ends was raised before it, by its effect, or by a level that has risen. -/
theorem mem_raised_ends {s u : State} {l : List Nat} (h : u.raised = s.raised ++ l) (n : Nat) :
    n ∈ (s.ends u).raised ↔ n ∈ s.raised ∨ n ∈ l ∨ u.levelSource n := by
  have hs : u.settle.raised = s.raised ++ (l ++ (u.queues.filter u.levelRaises).map (fun e => 512 + e.1)) := by
    rw [raised_settle, h, List.append_assoc]
  show n ∈ (s.cycleEnd u).raised ↔ _
  rw [cycleEnd_of_raised hs]
  simp [mem_onceEach, State.levelSource, and_assoc]

namespace OnlyProbeTraces

variable {Q : Nat → Prop} {s v w : State}

/-- The levels asked of a queue do not depend on the probes. -/
theorem wants_eq (h : OnlyProbeTraces Q v w) (q : Nat) (x : Queue) :
    w.wantHigh q x = v.wantHigh q x ∧ w.wantLow q x = v.wantLow q x := by
  have hr (k : Nat) (hk : k < 0x40) : w.rg (queueBase q + k) = v.rg (queueBase q + k) :=
    h.rg _ (not_isProbeTrace_of_isQueueReg (queueBase_isQueueReg q k hk))
  have hb : w.rb (queueBase q) 1 = v.rb (queueBase q) 1 := rb_of_rg (hr 0 (by omega)) 1
  have hh := rf_of_rg (hr 0x1C (by omega)) 0 28
  have hl := rf_of_rg (hr 0x20 (by omega)) 0 28
  simp only [State.wantHigh, State.wantLow, State.simple, hb, hh, hl, and_self]

theorem levelRaises_eq (h : OnlyProbeTraces Q v w) (e : Nat × Queue) : w.levelRaises e = v.levelRaises e := by
  obtain ⟨hh, hl⟩ := h.wants_eq e.1 e.2
  have hr : w.rg (queueBase e.1) = v.rg (queueBase e.1) :=
    h.rg _ (not_isProbeTrace_of_isQueueReg (queueBase_isQueueReg e.1 0 (by omega)))
  simp only [State.levelRaises, hh, hl, rb_of_rg hr]

theorem queue_settle_eq (h : OnlyProbeTraces Q v w) {q : Nat} (hq : ¬ Q q) : w.settle.queue q = v.settle.queue q := by
  obtain ⟨hh, hl⟩ := h.wants_eq q (v.queue q)
  rw [queue_settle, queue_settle, h.queue q hq, hh, hl]

/-- The levels raise the same sources in both, but for a queue that takes a probe's records. -/
theorem levelSource_iff (h : OnlyProbeTraces v.delivers v w) (n : Nat) :
    (∃ q, v.delivers q ∧ 512 + q = n) ∨ (w.levelSource n ↔ v.levelSource n) := by
  by_cases hd : ∃ q, v.delivers q ∧ 512 + q = n
  · exact .inl hd
  · refine .inr (exists_congr fun e => ?_)
    have hentry (hn : 512 + e.1 = n) : e ∈ w.queues ↔ e ∈ v.queues := h.entry e fun hq => hd ⟨e.1, hq, hn⟩
    rw [h.levelRaises_eq e]
    exact ⟨fun ⟨he, hl, hn⟩ => ⟨(hentry hn).mp he, hl, hn⟩, fun ⟨he, hl, hn⟩ => ⟨(hentry hn).mpr he, hl, hn⟩⟩

/-- Two states apart by the probes' traces end a command apart by what transactions leave on the network. -/
theorem netSame_ends (h : OnlyProbeTraces v.delivers v w) (hr : v.raised = s.raised) :
    (s.ends v).netSame (s.ends w) := by
  obtain ⟨l, hl, hprobe⟩ := h.raised
  have hv := mem_raised_ends (s := s) (u := v) (l := []) (by simp [hr])
  have hw := mem_raised_ends (s := s) (u := w) (l := l) (by rw [hl, hr])
  have hqueue {n : Nat} : (∃ q, v.delivers q ∧ 512 + q = n) → 512 ≤ n ∧ n < 1024 := by
    rintro ⟨q, hq, rfl⟩
    have := State.delivers_lt hq
    omega
  refine ⟨?_, ?_, h.noc, ?_, ?_, ?_, ?_⟩
  · exact congrArg (fun x : State => { x with
      raised := (s.ends v).raised, queues := (s.ends v).queues, fresh := x.fresh + 1, pending := s.pending }) h.frame
  · exact fun o ho => h.rg o (ho.elim (fun ho => not_isProbeTrace_of_lt (by omega)) not_isProbeTrace_of_ge)
  · intro n hn
    rcases (hv n).mp hn with hs | hl | hlev
    · exact .inl ((hw n).mpr (.inl hs))
    · cases hl
    · exact (h.levelSource_iff n).symm.imp (fun hiff => (hw n).mpr (.inr (.inr (hiff.mpr hlev)))) hqueue
  · intro n hn
    rcases (hw n).mp hn with hs | hl | hlev
    · exact .inl ((hv n).mpr (.inl hs))
    · exact .inr (.inr (hprobe n hl))
    · exact (h.levelSource_iff n).symm.imp (fun hiff => (hv n).mpr (.inr (.inr (hiff.mp hlev)))) (.inl ∘ hqueue)
  · exact fun q hq => h.queue_settle_eq fun ⟨n, hn, hb, ht⟩ => hq n hn hb ht
  · intro hoff
    have hnone (q : Nat) : ¬ v.delivers q := fun ⟨n, hn, hb, _⟩ => Bool.false_ne_true ((hoff n hn).symm.trans hb)
    refine ⟨h.trace hnone, fun n hn hlo hhi => ?_⟩
    rcases (hw n).mp hn with hs | hl | hlev
    · exact (hv n).mpr (.inl hs)
    · have := hprobe n hl; omega
    · rcases h.levelSource_iff n with ⟨q, hd, -⟩ | hiff
      · exact absurd hd (hnone q)
      · exact (hv n).mpr (.inr (.inr (hiff.mp hlev)))

end OnlyProbeTraces

/-! A register read that finds its way (R289). -/

theorem asked_onlyProbeTraces (s : State) (m : Master) (o op : Nat) : OnlyProbeTraces s.delivers s (s.asked m o op) :=
  (OnlyProbeTraces.refl _ s).probeWay _ _

/-- A response of status OK that finds its way back leaves no more behind than the probes' traces. -/
theorem answerBack_of_ok {s u : State} (hu : OnlyProbeTraces s.delivers s u) {direct : Bool} (at_ a d op addr len : Nat)
    (hway : direct = true ∨ s.way at_ a = none) :
    ∃ w, u.answerBack direct at_ a d op addr len 0 = (w, none) ∧ OnlyProbeTraces s.delivers s w := by
  have hw := hu.probeWay at_ (u.sees true a a (responseOp op) addr (if op = 1 ∨ op = 4 then len else 0) 0)
  refine ⟨_, ?_, hw⟩
  have hback : ¬ (!direct && (s.way at_ a).isSome) = true := by rcases hway with rfl | h <;> simp [*]
  simp only [State.answerBack, State.countStatus, true_or, if_true, true_and, hw.way_eq, if_neg hback]

/-- A register read that finds its way there and back, and that its block answers with OK, answers the value read
there; beside the block's effect only the probes' traces remain. -/
theorem regRead_of_findsWay {s b u : State} {m : Master} {o d v : Nat} (hd : regRouter o = some d) (hway : s.findsWay m d)
    (hget : (s.asked m o 4).regGet m o 4 = (u, 0, v)) (hu : OnlyProbeTraces b.delivers b u)
    (hb : b.way d (masterRouter m) = s.way d (masterRouter m)) :
    ∃ w, s.regRead m o 4 = (w, 0, v) ∧ OnlyProbeTraces b.delivers b w := by
  have ha := asked_onlyProbeTraces s m o 4
  have hasked : s.probeWay (masterRouter m) (s.sees false (masterRouter m) d 4 (0x4200000000 + o) 0 0) = s.asked m o 4 := by
    simp [State.asked, hd]
  have hthere : (if m = .loader then none else (s.asked m o 4).way (masterRouter m) d) = none := by
    rcases hway with rfl | ⟨h, -⟩
    · rfl
    · rw [ha.way_eq, h, ite_self]
  have hback : (m == .loader) = true ∨ b.way d (masterRouter m) = none :=
    hway.imp (fun h => beq_iff_eq.mpr h) (fun h => hb.trans h.2)
  obtain ⟨w, hw, htr⟩ := answerBack_of_ok hu d (masterRouter m) d 4 (0x4200000000 + o) 1 hback
  exact ⟨w, by simp [State.regRead, State.whole, hd, hasked, hthere, hget, hw], htr⟩

end Sys2Proof.Machine
end

section
/-! The 64-bit counters and their latches (R4). -/

namespace Sys2Proof.Machine

/-- A test that depends on a condition succeeds in one of two ways. -/
theorem ite_eq_true_iff_or {p : Prop} [Decidable p] (a b : Bool) :
    (if p then a else b) = true ↔ p ∧ a = true ∨ ¬ p ∧ b = true := by
  by_cases h : p <;> simp [h]

/-- A low word lies at a multiple of 8, in no queue engine's block, and in the scheduler's block at two offsets. -/
theorem counterLow_place {o : Nat} (h : counterLow o = true) :
    o % 8 = 0 ∧ (o < 0x400000 ∨ 0x440000 ≤ o) ∧ (0x500000 ≤ o → o < 0x510000 → o = 0x500020 ∨ o = 0x500068) := by
  simp only [counterLow, ite_eq_true_iff_or, Bool.or_eq_true, Bool.and_eq_true, beq_iff_eq,
    decide_eq_true_eq, Bool.false_eq_true, and_false, or_false] at h
  omega

/-- Neither word of a counter is a Q_DATA. -/
theorem qDataOf_counter {o k : Nat} (h : counterLow o = true) (hk : k < 8) : qDataOf (o + k) = none := by
  obtain ⟨hal, hplane, -⟩ := counterLow_place h
  exact if_neg (by omega)

/-- Neither word of a counter is part of the task view. -/
theorem readsFirst_counter {o k : Nat} (h : counterLow o = true) (hk : k < 8) (s : State) : s.readsFirst (o + k) = s := by
  obtain ⟨hal, -, hsched⟩ := counterLow_place h
  exact if_neg (by simp; omega)

/-- The high word of a counter is no counter's low word. -/
theorem counterLow_high {o : Nat} (h : counterLow o = true) : counterLow (o + 4) = false := by
  have hal := (counterLow_place h).1
  refine Bool.eq_false_iff.mpr fun h4 => ?_
  have := (counterLow_place h4).1
  omega

theorem latchOf_of_latches {s t : State} (h : t.latches = s.latches) (m : Master) (o : Nat) :
    t.latchOf m o = s.latchOf m o := by unfold State.latchOf; rw [h]

theorem latchOf_unlatch_self (s : State) (m : Master) (o : Nat) : (s.unlatch m o).latchOf m o = none := by
  simp only [State.latchOf, State.unlatch, Option.map_eq_none_iff, List.find?_eq_none, List.mem_filter]
  rintro e ⟨-, he⟩ hm
  simp [hm] at he

/-- Releasing a latch leaves every other one alone. -/
theorem latchOf_unlatch_ne (s : State) {m k : Master} {o p : Nat} (h : k ≠ m ∨ p ≠ o) :
    (s.unlatch m o).latchOf k p = s.latchOf k p := by
  simp only [State.latchOf, State.unlatch, List.find?_filter]
  congr 2
  funext e
  grind

/-- Where no latch is held there is none to release. -/
theorem unlatch_of_none {s : State} {m : Master} {o : Nat} (h : s.latchOf m o = none) : s.unlatch m o = s := by
  have hkeep : s.latches.filter (fun e => !(e.1 == m && e.2.1 == o)) = s.latches := by
    refine List.filter_eq_self.mpr fun e he => ?_
    rw [Bool.not_eq_true', Bool.eq_false_iff]
    exact List.find?_eq_none.mp (Option.map_eq_none_iff.mp h) e he
  rw [State.unlatch, hkeep]

theorem latchOf_latch_self (s : State) (m : Master) (o : Nat) (v : Word32) : (s.latch m o v).latchOf m o = some v := by
  have hnone : (s.unlatch m o).latches.find? (fun e => e.1 == m && e.2.1 == o) = none :=
    Option.map_eq_none_iff.mp (latchOf_unlatch_self s m o)
  simp only [State.latchOf, State.latch, List.find?_append, hnone]
  simp

/-- Latching a counter's high word leaves every other latch alone. -/
theorem latchOf_latch_ne (s : State) {m k : Master} {o p : Nat} (v : Word32) (h : k ≠ m ∨ p ≠ o) :
    (s.latch m o v).latchOf k p = s.latchOf k p := by
  rw [← latchOf_unlatch_ne s h]
  simp only [State.latchOf, State.latch, List.find?_append]
  have : ¬ (m = k ∧ o = p) := by grind
  simp [this]

/-! The counter reads at their block. -/

theorem regGet_counterLow {s : State} {o : Nat} {lo hi : Word32} (m : Master) (h : counterLow o = true)
    (hlo : s.regPeek o = some lo) (hhi : s.regPeek (o + 4) = some hi) :
    s.regGet m o 4 = (s.latch m (o + 4) hi, 0, lo.toNat) := by
  have hal := (counterLow_place h).1
  have hq : qDataOf o = none := qDataOf_counter (k := 0) h (by omega)
  have hr : s.readsFirst o = s := readsFirst_counter (k := 0) h (by omega) s
  have hok : regSizeOk o 4 = true := by simp [regSizeOk]; omega
  simp [State.regGet, State.regGet32, hok, hq, hr, hlo, hhi, h]

theorem regGet_counterHigh {s : State} {o : Nat} {live : Word32} (m : Master) (h : counterLow o = true)
    (hlive : s.regPeek (o + 4) = some live) :
    s.regGet m (o + 4) 4 = (s.unlatch m (o + 4), 0, ((s.latchOf m (o + 4)).getD live).toNat) := by
  have hal := (counterLow_place h).1
  have hq : qDataOf (o + 4) = none := qDataOf_counter h (by omega)
  have hr : s.readsFirst (o + 4) = s := readsFirst_counter h (by omega) s
  have hok : regSizeOk (o + 4) 4 = true := by simp [regSizeOk]; omega
  cases hl : s.latchOf m (o + 4) with
  | none => simp [State.regGet, State.regGet32, hok, hq, hr, hlive, h, counterLow_high h, hl, unlatch_of_none hl]
  | some w => simp [State.regGet, State.regGet32, hok, hq, hr, hlive, h, counterLow_high h, hl]

theorem regGet_counter_pair {s : State} {o : Nat} {lo hi : Word32} (m : Master) (h : counterLow o = true)
    (hlo : s.regPeek o = some lo) (hhi : s.regPeek (o + 4) = some hi) :
    s.regGet m o 8 = (s, 0, lo.toNat + hi.toNat * 2 ^ 32) := by
  have hal := (counterLow_place h).1
  have hq := qDataOf_counter (k := 4) h (by omega)
  have hr : s.readsFirst o = s := readsFirst_counter (k := 0) h (by omega) s
  have hok : regSizeOk o 8 = true := by simp [regSizeOk]; omega
  simp [State.regGet, hok, hq, hr, hlo, hhi]

/-! The commands. -/

/-- What a 32-bit register read by master `m` makes of the state. -/
def State.readAnswered (s : State) (m : Master) (addr : Addr) : State :=
  let r := s.regRead m (regOffset addr) 4
  r.1.put (.answer m addr.toNat r.2.1 r.2.2)

theorem exec_counterLowRead (m : Master) (addr : Addr) (s : State) :
    exec (.counterLowRead m addr) s = .next (s.ends (s.readAnswered m addr)) := rfl

theorem exec_counterHighRead (m : Master) (addr : Addr) (s : State) :
    exec (.counterHighRead m addr) s = .next (s.ends (s.readAnswered m addr)) := rfl

/-- A counter read that finds its way, and whose block answers OK with the latches `l`, ends in a state with these
latches and its answer, apart from the command's start by these and by what its transaction leaves on the network. -/
theorem ends_readAnswered {s : State} {m : Master} {addr : Addr} {d v : Nat} {l : List (Master × Nat × Word32)}
    (hd : regRouter (regOffset addr) = some d) (hway : s.findsWay m d)
    (hget : (s.asked m (regOffset addr) 4).regGet m (regOffset addr) 4 =
      ({ s.asked m (regOffset addr) 4 with latches := l }, 0, v)) :
    (s.ends (s.readAnswered m addr)).latches = l ∧
      (s.ends (s.readAnswered m addr)).out = s.out ++ [.answer m addr.toNat 0 v] ∧
      (s.ends { s with latches := l, out := s.out ++ [.answer m addr.toNat 0 v] }).netSame
        (s.ends (s.readAnswered m addr)) := by
  have hu := (asked_onlyProbeTraces s m (regOffset addr) 4).congr_latches l
  obtain ⟨w, hw, htr⟩ := regRead_of_findsWay (b := { s with latches := l }) hd hway hget hu
    (way_congr (s := s) (t := { s with latches := l }) (fun _ _ => rfl) rfl d (masterRouter m))
  have hput : s.readAnswered m addr = w.put (.answer m addr.toNat 0 v) := by rw [State.readAnswered, hw]
  have hout : w.out = s.out := htr.out_eq
  rw [hput, State.put, hout]
  have hans := htr.congr_out (s.out ++ [.answer m addr.toNat 0 v])
  exact ⟨hans.latches_eq, hans.out_eq, hans.netSame_ends rfl⟩

/-- Settles O7: the block changes the latches alone, and the probes on the way there and back, which touch neither
latches nor routing tables nor any register of a queue, leave what `State.netSame` allows. -/
theorem counterReadsLatchTheHighWord : Obligations.CounterReadsLatchTheHighWord := by
  unfold Obligations.CounterReadsLatchTheHighWord
  refine ⟨?_, ?_, fun m o lo hi s _ hc hlo hhi => regGet_counter_pair m hc hlo hhi⟩
  · intro m addr d lo hi s o hd hway _ hc hlo hhi
    have ha : (s.asked m o 4).latches = s.latches := (asked_onlyProbeTraces s m o 4).latches_eq
    obtain ⟨hl, hout, hnet⟩ := ends_readAnswered hd hway (regGet_counterLow m hc hlo hhi)
    refine ⟨_, exec_counterLowRead m addr s, hout, ?_, fun k p hk => ?_, by rw [hl, hout]; exact hnet⟩
    · exact (latchOf_of_latches hl m _).trans (latchOf_latch_self (s.asked m o 4) m (o + 4) hi)
    · calc State.latchOf _ k p = ((s.asked m o 4).latch m (o + 4) hi).latchOf k p := latchOf_of_latches hl k p
        _ = (s.asked m o 4).latchOf k p := latchOf_latch_ne _ hi hk
        _ = s.latchOf k p := latchOf_of_latches ha k p
  · intro m addr d live s o hd hway _ hpos hc hlive
    obtain ⟨b, hb⟩ : ∃ b, o = b + 4 := ⟨o - 4, by omega⟩
    have ha : (s.asked m o 4).latches = s.latches := (asked_onlyProbeTraces s m o 4).latches_eq
    have hget : (s.asked m o 4).regGet m o 4 =
        ((s.asked m o 4).unlatch m o, 0, ((s.latchOf m o).getD live).toNat) := by
      rw [← latchOf_of_latches ha m o]
      generalize s.asked m o 4 = u at hlive ⊢
      rw [hb] at hlive hc ⊢
      exact regGet_counterHigh m hc hlive
    obtain ⟨hl, hout, hnet⟩ := ends_readAnswered hd hway hget
    refine ⟨_, exec_counterHighRead m addr s, hout, ?_, fun k p hk => ?_, by rw [hl, hout]; exact hnet⟩
    · exact (latchOf_of_latches hl m _).trans (latchOf_unlatch_self (s.asked m o 4) m o)
    · calc State.latchOf _ k p = ((s.asked m o 4).unlatch m o).latchOf k p := latchOf_of_latches hl k p
        _ = (s.asked m o 4).latchOf k p := latchOf_unlatch_ne _ hk
        _ = s.latchOf k p := latchOf_of_latches ha k p

end Sys2Proof.Machine
end

section
/-! The results of the ALU opcodes in exact arithmetic (R54). -/

namespace Sys2Proof.Machine

theorem toInt_sample_range (a : Sample) : -0x80000 ≤ a.toInt ∧ a.toInt ≤ 0x7FFFF := by
  have hlo := BitVec.le_toInt a
  have hhi := BitVec.toInt_lt (x := a)
  omega

theorem toInt_clamp20 (x : Int) : (clamp20 x).toInt = max (-524288) (min 524287 x) := by
  unfold clamp20
  split
  · rw [show (0x80000#20).toInt = -524288 by decide]; omega
  · split
    · rw [show (0x7FFFF#20).toInt = 524287 by decide]; omega
    · rw [BitVec.toInt_ofInt_eq_self (by decide) (by omega) (by omega)]; omega

/-- A comparison's sample is 1 where it holds and 0 where it does not. -/
theorem toNat_sample_ite (p : Prop) [Decidable p] : (if p then 1 else 0 : Sample).toNat = b2n (decide p) := by
  by_cases h : p <;> simp [h, b2n]

/-- The shifts and the rotation read the low five bits of operand B alone. -/
theorem fld_low_five (b : Sample) : fld b 0 5 = b.toNat % 32 := by simp [fld]

theorem toNat_fxAlu_sub (a b c : Sample) :
    ((fxAlu 0x02 a b c).toNat : Int) = ((a.toNat : Int) - b.toNat) % 2 ^ 20 := by
  rw [show fxAlu 0x02 a b c = a - b from rfl, BitVec.toNat_sub]
  omega

theorem getLsbD_fxAlu_bitwise (a b c : Sample) (i : Nat) :
    (fxAlu 0x05 a b c).getLsbD i = (a.getLsbD i && b.getLsbD i) ∧
      (fxAlu 0x06 a b c).getLsbD i = (a.getLsbD i || b.getLsbD i) ∧
      (fxAlu 0x07 a b c).getLsbD i = (a.getLsbD i != b.getLsbD i) :=
  ⟨BitVec.getLsbD_and, BitVec.getLsbD_or, BitVec.getLsbD_xor⟩

theorem fxAlu_sel (a b c : Sample) : fxAlu 0x09 a b c = if c.toNat = 0 then b else a := by
  have hc : c ≠ 0 ↔ ¬ c.toNat = 0 := BitVec.toNat_ne (y := 0)
  simp only [show fxAlu 0x09 a b c = if c ≠ 0 then a else b from rfl, hc, ite_not]

theorem toNat_fxAlu_cmpeq (a b c : Sample) : (fxAlu 0x0A a b c).toNat = b2n (decide (a.toNat = b.toNat)) :=
  (toNat_sample_ite (a = b)).trans (congrArg b2n (decide_eq_decide.mpr BitVec.toNat_inj.symm))

theorem toInt_fxAlu_min (a b c : Sample) : (fxAlu 0x0D a b c).toInt = min a.toInt b.toInt := by
  rw [show fxAlu 0x0D a b c = if b.toInt < a.toInt then b else a from rfl, apply_ite BitVec.toInt]
  omega

theorem toInt_fxAlu_max (a b c : Sample) : (fxAlu 0x0E a b c).toInt = max a.toInt b.toInt := by
  rw [show fxAlu 0x0E a b c = if a.toInt < b.toInt then b else a from rfl, apply_ite BitVec.toInt]
  omega

/-- Only the most negative sample has a magnitude that no sample holds. -/
theorem toInt_fxAlu_abs (a b c : Sample) : (fxAlu 0x0F a b c).toInt = min 524287 (a.toInt.natAbs : Int) := by
  rw [show fxAlu 0x0F a b c = if a = 0x80000#20 then 0x7FFFF#20 else if a.toInt < 0 then -a else a from rfl]
  split
  case isTrue h => subst h; decide
  case isFalse h =>
    have hrange := toInt_sample_range a
    have hne : a.toInt ≠ -0x80000 := fun he => h (BitVec.eq_of_toInt_eq he)
    have hneg : (-a).toInt = -a.toInt := BitVec.toInt_neg_of_ne_intMin h
    rw [apply_ite BitVec.toInt, hneg]
    omega

theorem toNat_fxAlu_shl (a b c : Sample) :
    (fxAlu 0x10 a b c).toNat = if b.toNat % 32 ≤ 19 then a.toNat * 2 ^ (b.toNat % 32) % 2 ^ 20 else 0 := by
  rw [← fld_low_five, ← Nat.shiftLeft_eq, ← BitVec.toNat_shiftLeft]
  exact apply_ite BitVec.toNat _ _ _

theorem toNat_fxAlu_shrl (a b c : Sample) :
    (fxAlu 0x11 a b c).toNat = if b.toNat % 32 ≤ 19 then a.toNat / 2 ^ (b.toNat % 32) else 0 := by
  rw [← fld_low_five, ← Nat.shiftRight_eq_div_pow, ← BitVec.toNat_ushiftRight]
  exact apply_ite BitVec.toNat _ _ _

/-- The arithmetic shift rounds down, and past the last place it leaves the sign. -/
theorem toInt_fxAlu_shra (a b c : Sample) : (fxAlu 0x12 a b c).toInt =
    if b.toNat % 32 ≤ 19 then a.toInt / 2 ^ (b.toNat % 32) else if a.toInt < 0 then -1 else 0 := by
  rw [← fld_low_five, show fxAlu 0x12 a b c =
    if fld b 0 5 ≤ 19 then a.sshiftRight (fld b 0 5) else if a.msb then 0xFFFFF#20 else 0 from rfl]
  split
  · rw [BitVec.toInt_sshiftRight, Int.shiftRight_eq_div_pow]; rfl
  · simp only [BitVec.msb_eq_toInt, decide_eq_true_eq, apply_ite BitVec.toInt]; rfl

/-- Bit `i` goes to place `i + n` modulo 20: below the end of the word, or round it. -/
theorem getLsbD_fxAlu_rotl (a b c : Sample) {i : Nat} (hi : i < 20) :
    (fxAlu 0x13 a b c).getLsbD ((i + b.toNat % 32) % 20) = a.getLsbD i := by
  rw [← fld_low_five, show fxAlu 0x13 a b c = a.rotateLeft (fld b 0 5 % 20) from rfl, BitVec.getLsbD_rotateLeft]
  generalize fld b 0 5 = n
  by_cases h : i + n % 20 < 20
  · have hplace : (i + n) % 20 = i + n % 20 := by omega
    have hge : ¬ i + n % 20 < n % 20 % 20 := by omega
    have hback : i + n % 20 - n % 20 % 20 = i := by omega
    rw [hplace, decide_eq_false hge, cond_false, decide_eq_true h, Bool.true_and, hback]
  · have hplace : (i + n) % 20 = i + n % 20 - 20 := by omega
    have hlt : i + n % 20 - 20 < n % 20 % 20 := by omega
    have hback : 20 - n % 20 % 20 + (i + n % 20 - 20) = i := by omega
    rw [hplace, decide_eq_true hlt, cond_true, hback]

/-- Settles O10: opcode by opcode, the model's word operations are the exact results of the table. -/
theorem aluOpcodesProduceTheirResults : Obligations.AluOpcodesProduceTheirResults := by
  unfold Obligations.AluOpcodesProduceTheirResults
  intro a b c n clamp
  exact ⟨BitVec.toNat_add a b, toNat_fxAlu_sub a b c, toInt_clamp20 _, toInt_clamp20 _, getLsbD_fxAlu_bitwise a b c,
    rfl, fun hc => (fxAlu_sel a b c).trans (if_neg hc), fun hc => (fxAlu_sel a b c).trans (if_pos hc),
    toNat_fxAlu_cmpeq a b c, toNat_sample_ite _, toNat_sample_ite _, toInt_fxAlu_min a b c, toInt_fxAlu_max a b c,
    toInt_fxAlu_abs a b c, toNat_fxAlu_shl a b c, toNat_fxAlu_shrl a b c, toInt_fxAlu_shra a b c,
    fun _ hi => getLsbD_fxAlu_rotl a b c hi⟩

end Sys2Proof.Machine
end

section
/-! Samples as binary32 values (R63, R67). -/

namespace Sys2Proof.Machine

section Fields
variable {s : Bool} {e f : Nat} (he : e < 256) (hf : f < 2 ^ 23)
include he hf

theorem toNat_fMake : (fMake s e f).toNat = b2n s * 2 ^ 31 + e * 2 ^ 23 + f := by
  have hs : b2n s ≤ 1 := by cases s <;> decide
  rw [fMake, BitVec.toNat_ofNat, Nat.mod_eq_of_lt (by omega)]

theorem fSign_fMake : fSign (fMake s e f) = s := by
  rw [fSign, BitVec.getLsbD, toNat_fMake he hf, Nat.testBit_eq_decide_div_mod_eq,
    show (b2n s * 2 ^ 31 + e * 2 ^ 23 + f) / 2 ^ 31 = b2n s by omega]
  cases s <;> rfl

theorem fExp_fMake : fExp (fMake s e f) = e := by
  rw [fExp, fld, toNat_fMake he hf, Nat.shiftRight_eq_div_pow]
  omega

theorem fFrac_fMake : fFrac (fMake s e f) = f := by
  rw [fFrac, fld, toNat_fMake he hf, Nat.shiftRight_zero]
  omega

end Fields

/-- A value of at most 24 bits whose exponent is a normal one is packed without rounding. -/
theorem fPack_of_normal {s : Bool} {m : Nat} {e : Int} (hm : m ≠ 0) (hn : m.log2 ≤ 23)
    (hlo : -126 ≤ (m.log2 : Int) + e) (hhi : (m.log2 : Int) + e ≤ 127) :
    fPack s m e = fMake s ((m.log2 : Int) + e + 127).toNat (m * 2 ^ (23 - m.log2) - 2 ^ 23) := by
  have ht : (if 23 ≤ m.log2 then m >>> (m.log2 - 23) else m <<< (23 - m.log2)) = m * 2 ^ (23 - m.log2) := by
    split
    · rw [show m.log2 = 23 by omega]; simp
    · exact Nat.shiftLeft_eq m _
  simp only [fPack, if_neg hm, ht]
  rw [if_neg (by omega), if_neg (by omega)]

/-- The significand brought to its place has 24 bits. -/
theorem significand_range {m : Nat} (hm : m ≠ 0) (hn : m.log2 ≤ 23) :
    2 ^ 23 ≤ m * 2 ^ (23 - m.log2) ∧ m * 2 ^ (23 - m.log2) < 2 ^ 24 := by
  have hsplit : 2 ^ m.log2 * 2 ^ (23 - m.log2) = 2 ^ 23 := by rw [← Nat.pow_add, Nat.add_sub_cancel' hn]
  have hlo := Nat.mul_le_mul_right (2 ^ (23 - m.log2)) (Nat.log2_self_le hm)
  have hhi := Nat.mul_lt_mul_of_pos_right (Nat.lt_log2_self (n := m)) (Nat.two_pow_pos (23 - m.log2))
  rw [Nat.pow_succ, Nat.mul_right_comm, hsplit] at hhi
  omega

/-- What the packed word of such a value reads as: its sign, the significand at its place and the scale to it. -/
theorem fDyadic_fPack_of_normal {s : Bool} {m : Nat} {e : Int} (hm : m ≠ 0) (hn : m.log2 ≤ 23)
    (hlo : -126 ≤ (m.log2 : Int) + e) (hhi : (m.log2 : Int) + e ≤ 127) :
    fExp (fPack s m e) < 255 ∧
      fDyadic (fPack s m e) = { s := s, m := m * 2 ^ (23 - m.log2), e := (m.log2 : Int) + e - 23 } := by
  obtain ⟨hge, hlt⟩ := significand_range hm hn
  have he : ((m.log2 : Int) + e + 127).toNat < 256 := by omega
  have hf : m * 2 ^ (23 - m.log2) - 2 ^ 23 < 2 ^ 23 := by omega
  have hpos : ((m.log2 : Int) + e + 127).toNat ≠ 0 := by omega
  rw [fPack_of_normal hm hn hlo hhi, fDyadic, fMant, fScale, fSign_fMake he hf, fExp_fMake he hf, fFrac_fMake he hf,
    if_neg hpos]
  have hscale : (((m.log2 : Int) + e + 127).toNat : Int) - 150 = (m.log2 : Int) + e - 23 := by omega
  rw [Nat.add_sub_cancel' hge, hscale]
  exact ⟨by omega, rfl⟩

theorem fFromFix_zero (q : Nat) : fFromFix 0 q = 0 := rfl

theorem fDyadic_zero : fDyadic 0 = { s := false, m := 0, e := -150 } := by decide

/-- Sign and magnitude make the number, at any scale. -/
theorem ite_neg_natAbs_mul (x k : Int) :
    (if decide (x < 0) then -((x.natAbs : Int) * k) else (x.natAbs : Int) * k) = x * k := by
  by_cases h : x < 0
  · rw [decide_eq_true h, if_pos rfl, ← Int.neg_mul, Int.ofNat_natAbs_of_nonpos (Int.le_of_lt h), Int.neg_neg]
  · rw [decide_eq_false h, if_neg Bool.false_ne_true, Int.natAbs_of_nonneg (Int.not_lt.mp h)]

theorem log2_natAbs_sample_le (a : Sample) (ha : a.toInt.natAbs ≠ 0) : a.toInt.natAbs.log2 ≤ 19 := by
  have hrange := toInt_sample_range a
  exact Nat.le_of_lt_succ ((Nat.log2_lt ha).mpr (by omega))

/-- Settles O11: a sample's magnitude has at most 20 bits and its exponent lies between -19 and 19, so that packing
rounds nothing off. -/
theorem fixedToFloatIsExact : Obligations.FixedToFloatIsExact := by
  unfold Obligations.FixedToFloatIsExact
  intro a q hq
  by_cases ha : a = 0
  · subst ha
    rw [fFromFix_zero]
    refine ⟨by decide, ?_, fun _ => rfl⟩
    rw [fDyadic_zero]
    simp
  · have hm : a.toInt.natAbs ≠ 0 := fun h => ha (BitVec.eq_of_toInt_eq (Int.natAbs_eq_zero.mp h))
    have hn := log2_natAbs_sample_le a hm
    obtain ⟨hexp, hval⟩ := fDyadic_fPack_of_normal (s := decide (a.toInt < 0)) (e := -(q : Int)) hm
      (by omega) (by omega) (by omega)
    have hscale : (2 : Int) ^ (23 - a.toInt.natAbs.log2) *
        2 ^ ((a.toInt.natAbs.log2 : Int) + -(q : Int) - 23 + 150).toNat = 2 ^ (150 - q) := by
      rw [← Int.pow_add]; congr 1; omega
    refine ⟨hexp, ?_, fun h => absurd h ha⟩
    have hcast : ((a.toInt.natAbs * 2 ^ (23 - a.toInt.natAbs.log2) : Nat) : Int) =
        (a.toInt.natAbs : Int) * 2 ^ (23 - a.toInt.natAbs.log2) := by
      rw [Int.natCast_mul, Int.natCast_pow]; rfl
    rw [fFromFix, hval]
    calc _ = a.toInt * 2 ^ (23 - a.toInt.natAbs.log2) *
          2 ^ ((a.toInt.natAbs.log2 : Int) + -(q : Int) - 23 + 150).toNat := by
          rw [hcast, ite_neg_natAbs_mul]
      _ = a.toInt * 2 ^ (150 - q) := by rw [Int.mul_assoc, hscale]

end Sys2Proof.Machine
end
